-- ==== Sys2Proof/Word.lean ====
section
/-! DEFINITION. The words of the ZT9 and the type of the sparse tables that its large stores are held in. -/

namespace Sys2Proof

/-- A 64-bit register value (02, "Registers and the scoreboard"). -/
abbrev Word := BitVec 64

/-- One byte of memory. -/
abbrev Byte := BitVec 8

/-- A table of values by number, in the order of the numbers. A number that is not listed has the
table's unlisted value, which the reader names; no entry equals that value, so equal tables are equal data. -/
abbrev Sparse (α : Type) := List (Nat × α)

end Sys2Proof
end

