-- ==== Sys2Proof/Syntax.lean ====
section
/-! DEFINITION. The commands of the block: the operand types, and one constructor for each row of
spec/opcode_table.json. An instruction command carries every field of the encoding its chapter gives,
the must-be-zero ones too; a step command carries what the step takes from outside the block. -/

set_option linter.unusedVariables false

namespace Sys2Proof

abbrev TileId := Fin 192
abbrev StrandId := Fin 8
abbrev StackId := Fin 20
abbrev ChannelId := Fin 640
abbrev PortId := Fin 16
abbrev EthId := Fin 8
abbrev QuireId := Fin 16
abbrev IslandId := Fin 16
abbrev GroupId := Fin 4096
abbrev DeviceId := BitVec 20

/-- The strand that issues an instruction. -/
structure At where
  t : TileId
  h : StrandId
deriving DecidableEq, Repr

/-- Formats R of Table 02-3; fields an instruction does not use must be zero (02 R37). -/
structure RF where
  rd : BitVec 5
  rs1 : BitVec 5
  rs2 : BitVec 5
deriving DecidableEq, Repr

/-- Format I of Table 02-3. -/
structure IF where
  rd : BitVec 5
  rs1 : BitVec 5
  imm : BitVec 16
deriving DecidableEq, Repr

/-- Format S of Table 02-3: rs2 is the data, rs1 the base. -/
structure SF where
  rs2 : BitVec 5
  rs1 : BitVec 5
  imm : BitVec 16
deriving DecidableEq, Repr

/-- Format B of Table 02-3: the offset counts words from the branch. -/
structure BF where
  rs1 : BitVec 5
  rs2 : BitVec 5
  off : BitVec 16
deriving DecidableEq, Repr

/-- The fields of a vector instruction, Table 04-4. -/
structure VF where
  src : BitVec 2
  masked : Bool
  mreg : BitVec 3
  gs : BitVec 5
  vs2 : BitVec 5
  vs1 : BitVec 5
  vd : BitVec 5
  imm : BitVec 16
  fmtx : BitVec 4
deriving DecidableEq, Repr

/-- The fields of major 0x3C, Table 07-3. -/
structure MF where
  ta : BitVec 5
  tb : BitVec 5
  row : BitVec 7
  arr : BitVec 2
  acc : BitVec 2
  nt : Bool
  ch : Bool
  fmt : BitVec 4
  uns : Bool
  mx : Bool
  boff : BitVec 9
  z47 : Bool
  mask : BitVec 16
deriving DecidableEq, Repr

/-- The fields of major 0x3D, Table 07-4. -/
structure QF where
  ta : BitVec 5
  gt : BitVec 5
  gs : BitVec 5
  arr : BitVec 2
  acc : BitVec 2
  tosl : Bool
  nt : Bool
  z0 : Bool
  nrow : BitVec 7
  drow : BitVec 7
  rl : BitVec 2
  mode : BitVec 2
  fm : BitVec 4
  fo : BitVec 4
  pk : Bool
  raw : Bool
  z60 : BitVec 4
deriving DecidableEq, Repr

/-- The fields of major 0x3E, Table 07-5. -/
structure CF where
  sel : BitVec 5
  z12 : BitVec 5
  gs : BitVec 5
  rd : BitVec 5
  z0 : BitVec 2
  hi : BitVec 32
deriving DecidableEq, Repr

/-- What a read of a unit finds (09 R228–R230), or that the core die reports an error that its own code met (09 Table 09-1). -/
inductive Ecc where
  | ok | corrected | bad | onDie
deriving DecidableEq, Repr

/-- The two pipes of the vector unit (04, "Issue, pipes and the vector scoreboard"). -/
inductive Pipe where
  | arith | mem
deriving DecidableEq, Repr

/-- The four traffic classes of the mesh (01 R25). -/
inductive MeshClass where
  | request | response | reduction | control
deriving DecidableEq, Repr

/-- A port of the mesh: a tile's, a stack's or an exchange die's. -/
inductive MeshPort where
  | tile (t : TileId)
  | stack (m : StackId)
  | xd (x : Fin 2)
deriving DecidableEq, Repr

/-- The two 48 V feeds (14, "Feeds and switch-over"). -/
inductive Feed where
  | main | backup
deriving DecidableEq, Repr

/-- A Splice packet: its header (10 Table 10-5) and payload. `ecrcOk` is the outcome of the check of ecrc. -/
structure SPacket where
  dst : DeviceId
  src : DeviceId
  type : BitVec 6
  dquire : BitVec 4
  squire : BitVec 4
  hops : Nat
  addr : BitVec 64
  len : Nat
  status : BitVec 3
  txn : BitVec 16
  tile : BitVec 8
  strand : BitVec 3
  op : BitVec 8
  word3 : BitVec 32
  ecrcOk : Bool
  payload : List Byte
deriving DecidableEq, Repr

/-- A payload block with its tag (10 Table 10-3). The last block of a packet brings the packet. -/
structure Block where
  vl : Fin 4
  cls : Bool
  start : Bool
  stop : Bool
  packet : Option SPacket
deriving DecidableEq, Repr

/-- A frame as it arrives: the outcomes of FEC, CRC and tag (10 R259), frame control (Table 10-2) and blocks. -/
structure Frame where
  fecOk : Bool
  crcOk : Bool
  tagOk : Bool
  fixed : Nat
  fseq : BitVec 16
  aseq : BitVec 16
  nak : Bool
  idle : Bool
  close : Bool
  keyid : Bool
  credit : List (BitVec 12)
  blocks : List Block
deriving DecidableEq, Repr

/-- What the peer's Spine shows in step 3 of training (10 R282, 13 R339): `slot` is the place of its port among the members of its bundle, which is
that of a dimension and a direction (10 R269). -/
structure PeerOffer where
  chainOk : Bool
  svn : Nat
  device : DeviceId
  port : PortId
  dim : Nat
  minus : Bool
  slot : Nat
  incarnation : BitVec 32
deriving DecidableEq, Repr

/-- A TLV as a request carries it (12 R309): its type and the length of its value. -/
structure TlvHead where
  type : Nat
  len : Nat
deriving DecidableEq, Repr

/-- A command packet but for its opcode, which the row gives (12 Table 12-2): `udp` is the length of its UDP payload, `tagOk` whether its
tag verifies, `port` and `source` where it came from, and `tlvs` the parameters of its whole message, whose values are the row's operands. -/
structure Hdr where
  magic : Nat
  version : Nat
  clear : Bool
  retry : Bool
  more : Bool
  part : Nat
  session : Nat
  seq : Nat
  quire : Nat
  epoch : Nat
  plen : Nat
  udp : Nat
  tagOk : Bool
  port : EthId
  source : Nat
  tlvs : List TlvHead
deriving DecidableEq, Repr

/-- HELLO: the host's nonce and its two public keys (12 R314). -/
structure HelloReq where
  nonce : List Byte
  hostKey : Nat
  kemKey : Nat
  maxPayload : Nat
deriving DecidableEq, Repr

/-- AUTH: the keys named, and whether each signature verifies (12 R315). -/
structure AuthReq where
  role : Nat
  rsaKey : Nat
  slhKey : Nat
  rsaOk : Bool
  slhOk : Bool
deriving DecidableEq, Repr

structure RekeyReq where
  hostKey : Nat
  kemKey : Nat
deriving DecidableEq, Repr

structure NetCfgReq where
  port : Nat
  ipv6 : Option (Nat × Nat)
  ipv4 : Option (Nat × Nat)
  vlan : Option Nat
  cmdpcp : Option Nat
  bulkpcp : Option Nat
  cmdUdp : Option Nat
  bulkUdp : Option Nat
deriving DecidableEq, Repr

structure RightReq where
  first : Nat
  count : Nat
  peer : Nat
deriving DecidableEq, Repr

/-- QCREATE (12 Table 12-7); `badTiles` are the tiles whose self-test fails (15 R376). -/
structure QCreateReq where
  tiles : BitVec 192
  regions : List (Nat × Nat)
  seals : List (Nat × Nat)
  rate : Nat
  cap : Bool
  share : Nat
  groups : Option (Nat × Nat)
  rights : List RightReq
  rsaKey : Nat
  slhKey : Nat
  badTiles : List Nat
deriving DecidableEq, Repr

structure QModifyReq where
  bandwidth : Option (Nat × Bool)
  share : Option Nat
  rights : Option (List RightReq)
  add : Option (List (Nat × Nat))
deriving DecidableEq, Repr

/-- B1 to B5 of Table 12-8. -/
structure BulkParams where
  chunk : Option Nat
  window : Option Nat
  mask : Option (BitVec 8)
  hostA : Option Nat
  hostB : Option Nat
deriving DecidableEq, Repr

structure LoadReq where
  kind : Nat
  addr : Nat
  len : Nat
  digest : Option Nat
  bulk : BulkParams
deriving DecidableEq, Repr

structure BulkReq where
  fromDevice : Bool
  addr : Nat
  len : Nat
  bulk : BulkParams
deriving DecidableEq, Repr

structure FeedTags where
  main : BitVec 6
  backup : BitVec 6
deriving DecidableEq, Repr

/-- PARTNER: the device named and what its Spine answers (14 R366, 16 R395). -/
structure PartnerReq where
  device : DeviceId
  tags : FeedTags
  fourHeld : Bool
  noQuire : Bool
deriving DecidableEq, Repr

/-- The copy of one quire that a partner holds (16 R400, R404): composition, floor, steps, lost list, log and data. -/
structure CopyImage where
  quire : QuireId
  create : QCreateReq
  floor : BitVec 16
  steps : List (Nat × Nat × Word × Word)
  lost : List Nat
  replayable : Bool
  position : Nat
  number : Nat
  log : List (Nat × Nat × Nat × Nat)
  data : List (Nat × List Byte)
  groups : List (Nat × List Byte)
deriving DecidableEq, Repr

structure RestoreReq where
  device : DeviceId
  copies : List CopyImage
deriving DecidableEq, Repr

structure GeometryReq where
  device : Nat
  dims : List (Nat × Bool)
  hop : Option Nat
deriving DecidableEq, Repr

structure PortCfgReq where
  port : Nat
  dim : Option Nat
  dir : Option Nat
  member : Option Nat
  halfok : Option Nat
  rto : Option Nat
  drainto : Option Nat
deriving DecidableEq, Repr

structure OvrReq where
  index : Nat
  first : Nat
  count : Nat
  port : Nat
  valid : Bool
deriving DecidableEq, Repr

structure PlanReq where
  sustained : Option Nat
  excursion : Option Nat
  length : Option Nat
  ceilings : Option (List Nat)
deriving DecidableEq, Repr

/-- An owner record (13 Table 13-5) with the outcomes of its two signature checks. -/
structure OwnerRecord where
  seqno : Nat
  device : Nat
  bootsvn : Nat
  peersvn : Nat
  rsaKey : Nat
  slhKey : Nat
  sigsOk : Bool
deriving DecidableEq, Repr

/-- A firmware image (13 Table 13-8) with the outcomes of the checks of R347, or an owner record. -/
structure FwImage where
  owner : Option OwnerRecord
  formOk : Bool
  keyOk : Bool
  rsaOk : Bool
  slhOk : Bool
  partsOk : Bool
  svn : Nat
  digests : List Nat
deriving DecidableEq, Repr

/-- What stage 1 finds on the two Spines (15 R370, R371). -/
structure FirmwareCheck where
  chainOk : Bool
  slot0Ok : Bool
  slot1Ok : Bool
  xd0Ok : Bool
  xd1Ok : Bool
  sameSlot : Bool
deriving DecidableEq, Repr

/-- The manufacturing record (15 Table 15-3) and the outcomes of the checks of R372. -/
structure ManufRecord where
  formOk : Bool
  deviceOk : Bool
  sigsOk : Bool
  grade : Nat
  serialIndex : Nat
  arrays : List Nat
  macs : List Nat
  serial : List Byte
  chx : List Nat
deriving DecidableEq, Repr

/-- What the governor measures (14 R358, R361, R365): input power and shared load in mW, the voltage of
the feed in use in mV, and each island's hottest junction in °C. -/
structure PlanMeasure where
  pIn : Nat
  pSh : Nat
  vFeed : Nat
  tj : List Nat
deriving DecidableEq, Repr

/-- A bulk data packet (12 Table 12-16). -/
structure BulkData where
  xid : Nat
  session : Nat
  chunk : Nat
  attempt : Nat
  bytes : List Byte
  tagOk : Bool
  port : EthId
deriving DecidableEq, Repr

/-- A bulk acknowledgement packet (12 R322). -/
structure BulkAck where
  xid : Nat
  session : Nat
  serial : Nat
  word : Nat
  bitmap : BitVec 256
  tagOk : Bool
  port : EthId
deriving DecidableEq, Repr

/-- A network packet that no session carries: its sender, the address asked for, IP version, whether it
has options, extension headers or is a fragment, and its bytes (12 Table 12-1). -/
structure NetPacket where
  source : Nat
  target : Nat
  v6 : Bool
  plain : Bool
  bytes : List Byte
deriving DecidableEq, Repr

/-- A shelf's answer to the PMBus poll (17 R417). -/
structure PmbusReply where
  answered : Bool
  fault : Bool
  vin : Nat
  iout : Nat
deriving DecidableEq, Repr

/-- A Spine message of type 0x3E (16 Table 16-7). -/
structure GroupMsg where
  group : GroupId
  src : DeviceId
  nextseq : BitVec 32
  gsig : BitVec 20
deriving DecidableEq, Repr

/-- A Spine message of type 0x3F (16 Table 16-7). -/
structure CkMsg where
  src : DeviceId
  quire : QuireId
  number : BitVec 32
  regions : BitVec 32
deriving DecidableEq, Repr

/-- What the module's sensors read when SMBus asks (17 Table 17-4). -/
structure SensorBlock where
  pin : BitVec 16
  tjmax : BitVec 16
  tstack : BitVec 16
  tin : BitVec 16
  tout : BitVec 16
deriving DecidableEq, Repr

/-- Why a received packet is discarded (12 R307, R311, Table 12-1, Table 12-17). -/
inductive DiscardWhy where
  | fcs | form | tag | window | protocol
deriving DecidableEq, Repr


/-- The commands, one constructor for each row of spec/opcode_table.json, in its order. -/
inductive Instr where
  /-- ADD (R34): Integer add of two registers into rd. -/
  | add (a : At) (f : RF)
  /-- SUB (R34): Integer subtract of two registers into rd. -/
  | sub (a : At) (f : RF)
  /-- AND (R34): Bitwise AND of two registers into rd. -/
  | and (a : At) (f : RF)
  /-- OR (R34): Bitwise OR of two registers into rd. -/
  | or (a : At) (f : RF)
  /-- XOR (R34): Bitwise XOR of two registers into rd. -/
  | xor (a : At) (f : RF)
  /-- SLL (R34): Shift left logical by rs2[5:0]. -/
  | sll (a : At) (f : RF)
  /-- SRL (R34): Shift right logical by rs2[5:0]. -/
  | srl (a : At) (f : RF)
  /-- SRA (R34): Shift right arithmetic by rs2[5:0]. -/
  | sra (a : At) (f : RF)
  /-- SLT (R34): Set rd to 1 if rs1 is less than rs2, signed. -/
  | slt (a : At) (f : RF)
  /-- SLTU (R34): Set rd to 1 if rs1 is less than rs2, unsigned. -/
  | sltu (a : At) (f : RF)
  /-- MIN (R34): Signed minimum of two registers. -/
  | min (a : At) (f : RF)
  /-- MAX (R34): Signed maximum of two registers. -/
  | max (a : At) (f : RF)
  /-- MINU (R34): Unsigned minimum of two registers. -/
  | minu (a : At) (f : RF)
  /-- MAXU (R34): Unsigned maximum of two registers. -/
  | maxu (a : At) (f : RF)
  /-- MUL (R34): Low 64 bits of the product, latency 3. -/
  | mul (a : At) (f : RF)
  /-- MULH (R34): High 64 bits of the signed product. -/
  | mulh (a : At) (f : RF)
  /-- MULHU (R34): High 64 bits of the unsigned product. -/
  | mulhu (a : At) (f : RF)
  /-- DIV (R35): Signed division rounding toward zero, never faulting. -/
  | div (a : At) (f : RF)
  /-- DIVU (R35): Unsigned division, never faulting. -/
  | divu (a : At) (f : RF)
  /-- REM (R35): Signed remainder with the sign of the dividend. -/
  | rem (a : At) (f : RF)
  /-- REMU (R35): Unsigned remainder. -/
  | remu (a : At) (f : RF)
  /-- CLZ (R34): Count leading zeros of rs1. -/
  | clz (a : At) (f : RF)
  /-- CTZ (R34): Count trailing zeros of rs1. -/
  | ctz (a : At) (f : RF)
  /-- POPC (R34): Population count of rs1. -/
  | popc (a : At) (f : RF)
  /-- ADDI (R34): Add the sign-extended immediate to rs1. -/
  | addi (a : At) (f : IF)
  /-- ANDI (R34): AND rs1 with the immediate. -/
  | andi (a : At) (f : IF)
  /-- ORI (R34): OR rs1 with the immediate. -/
  | ori (a : At) (f : IF)
  /-- XORI (R34): XOR rs1 with the immediate. -/
  | xori (a : At) (f : IF)
  /-- SLTI (R34): Signed compare of rs1 with the immediate. -/
  | slti (a : At) (f : IF)
  /-- SLTIU (R34): Unsigned compare of rs1 with the immediate. -/
  | sltiu (a : At) (f : IF)
  /-- SHI (R37): Shift by immediate amount, kind selected by imm16[7:6]. -/
  | shi (a : At) (f : IF)
  /-- LUI (R34): Load sign-extended imm21 shifted left by 16. -/
  | lui (a : At) (rd : BitVec 5) (imm : BitVec 21)
  /-- LB (R48): Load a sign-extended byte. -/
  | lb (a : At) (f : IF)
  /-- LBU (R48): Load a zero-extended byte. -/
  | lbu (a : At) (f : IF)
  /-- LH (R48): Load a sign-extended 2-byte value. -/
  | lh (a : At) (f : IF)
  /-- LHU (R48): Load a zero-extended 2-byte value. -/
  | lhu (a : At) (f : IF)
  /-- LW (R48): Load a sign-extended 4-byte value. -/
  | lw (a : At) (f : IF)
  /-- LWU (R48): Load a zero-extended 4-byte value. -/
  | lwu (a : At) (f : IF)
  /-- LD (R48): Load an 8-byte value, forwarding or waiting on the store buffer. -/
  | ld (a : At) (f : IF)
  /-- SB (R47): Store one byte through the store buffer. -/
  | sb (a : At) (f : SF)
  /-- SH (R47): Store two bytes through the store buffer. -/
  | sh (a : At) (f : SF)
  /-- SW (R47): Store four bytes through the store buffer. -/
  | sw (a : At) (f : SF)
  /-- SD (R47): Store eight bytes through the store buffer. -/
  | sd (a : At) (f : SF)
  /-- AMO (R50): Send an aligned memory-side atomic and receive the old value. -/
  | amo (a : At) (f : RF) (fn : BitVec 11)
  /-- BEQ (R39): Branch if equal, with one delay slot. -/
  | beq (a : At) (f : BF)
  /-- BNE (R39): Branch if not equal, with one delay slot. -/
  | bne (a : At) (f : BF)
  /-- BLT (R39): Branch if less, signed, with one delay slot. -/
  | blt (a : At) (f : BF)
  /-- BGE (R39): Branch if greater or equal, signed, with one delay slot. -/
  | bge (a : At) (f : BF)
  /-- BLTU (R39): Branch if less, unsigned, with one delay slot. -/
  | bltu (a : At) (f : BF)
  /-- BGEU (R39): Branch if greater or equal, unsigned, with one delay slot. -/
  | bgeu (a : At) (f : BF)
  /-- J (R38): Jump with one delay slot. -/
  | j (a : At) (off : BitVec 26)
  /-- JAL (R38): Jump and link g1 when the delay slot completes. -/
  | jal (a : At) (off : BitVec 26)
  /-- JR (R38): Jump to rs1 with one delay slot. -/
  | jr (a : At) (f : RF) (fn : BitVec 11)
  /-- JALR (R38): Jump to rs1 and link rd when the delay slot completes. -/
  | jalr (a : At) (f : RF) (fn : BitVec 11)
  /-- LOOP (R42): Start or nest a hardware loop, or skip it for a zero count. -/
  | loop (a : At) (z : BitVec 5) (rs1 : BitVec 5) (n : BitVec 16)
  /-- FSYNC (R57): Discard the strand's fetched instructions and refetch from the next pc. -/
  | fsync (a : At) (f : RF)
  /-- ICINV (R57): Invalidate the instruction-cache line of a translated address, never faulting. -/
  | icinv (a : At) (f : RF)
  /-- ICINV_ALL (R57): Invalidate the whole instruction cache of the tile. -/
  | icinvAll (a : At) (f : RF)
  /-- RDBEAT (R22): Read the tile's beat counter. -/
  | rdbeat (a : At) (f : RF)
  /-- RDINT (R22): Read the tile's interval counter. -/
  | rdint (a : At) (f : RF)
  /-- RDCAL (R22): Read the island's ring calibration. -/
  | rdcal (a : At) (f : RF)
  /-- RDSELF (R12): Read the tile number and strand number. -/
  | rdself (a : At) (f : RF)
  /-- PARK (R80): Enter the parked state unless an enabled line is pending. -/
  | park (a : At) (f : RF)
  /-- STORE_BUFFER_DRAIN (R47): A store-buffer entry drains in its strand's program order. -/
  | storeBufferDrain (a : At)
  /-- LOAD_REPLY (R427): A reply or error status for a pending load or amo arrives and writes or records a delayed fault. -/
  | loadReply (a : At) (k : Nat)
  /-- ICACHE_LINE_FILL (R55): An instruction line arrives after a miss and the strand becomes ready. -/
  | icacheLineFill (a : At)
  /-- STRAND_HALT (R59): A write of 1 to STRAND_CTL.halt requests a halt. -/
  | strandHalt (a : At)
  /-- STRAND_HALT_TAKE (R59): A requested halt takes effect at the next permitted instruction boundary. -/
  | strandHaltTake (a : At)
  /-- STRAND_RELEASE (R60): A write of 1 to STRAND_CTL.release starts a halted strand at STRAND_PC. -/
  | strandRelease (a : At)
  /-- STRAND_PC_WRITE (R60): A write to STRAND_PC takes effect only while the strand is halted. -/
  | strandPcWrite (a : At) (v : Word)
  /-- WMOV (R64): Copy a valid visible warrant whose derive bit is set. -/
  | wmov (a : At) (f : RF)
  /-- WCLR (R64): Set a warrant register to null. -/
  | wclr (a : At) (f : RF)
  /-- WBOUND (R65): Narrow a MEM or CTRL warrant to a sub-range. -/
  | wbound (a : At) (f : RF)
  /-- WRIGHT (R65): AND the rights and derive bits of a warrant. -/
  | wright (a : At) (f : RF)
  /-- WLOW (R65): Lower a warrant's epoch. -/
  | wlow (a : At) (f : RF)
  /-- WGRP (R65): Narrow an XFER warrant's group range. -/
  | wgrp (a : At) (f : RF)
  /-- WDEV (R65): Narrow an XFER warrant's device range. -/
  | wdev (a : At) (f : RF)
  /-- WGET (R37): Read a warrant half or its validity into rd. -/
  | wget (a : At) (f : RF)
  /-- WSV (R66): Store a warrant into seal memory. -/
  | wsv (a : At) (f : RF)
  /-- WLD (R66): Load a warrant from seal memory, holding the strand. -/
  | wld (a : At) (f : RF)
  /-- GCALL (R74): Call through a GATE warrant, pushing an entry frame and installing w15. -/
  | gcall (a : At) (f : RF)
  /-- GRET (R76): Return from a gate level, restoring w15 and visibility. -/
  | gret (a : At) (f : RF)
  /-- FRAME_READBACK (R77): A spilled entry frame is read back in the background after a pop. -/
  | frameReadback (a : At)
  /-- ESIGNAL (R82): Signal an event line named by an EVENT warrant after earlier stores complete. -/
  | esignal (a : At) (f : RF)
  /-- QFLOOR (R67): Raise the quire floor using a QUIRE warrant. -/
  | qfloor (a : At) (f : RF)
  /-- QFLOOR_APPLIED (R67): The Spine reports every tile applied the new floor and the strand becomes ready. -/
  | qfloorApplied (a : At)
  /-- TLBINV (R72): Invalidate this tile's translation for an address. -/
  | tlbinv (a : At) (f : RF)
  /-- TLBINV_ALL (R72): Invalidate every translation held by this tile. -/
  | tlbinvAll (a : At) (f : RF)
  /-- PAGE_WALK_READ (R71): A walker read returns and fills or fails a TLB entry. -/
  | pageWalkRead (t : TileId) (k : Nat)
  /-- XRET (R84): Return from an exception frame and pop the entry frame. -/
  | xret (a : At) (f : RF)
  /-- RDSTAT (R79): Read status into rd. -/
  | rdstat (a : At) (f : RF)
  /-- WRSTAT (R85): Write hush, precise and aten, waiting for vector work when setting precise. -/
  | wrstat (a : At) (f : RF)
  /-- RDCAUSE (R83): Read cause into rd. -/
  | rdcause (a : At) (f : RF)
  /-- RDFAULT (R83): Read faultaddr into rd. -/
  | rdfault (a : At) (f : RF)
  /-- RDXSP (R83): Read XSP into rd. -/
  | rdxsp (a : At) (f : RF)
  /-- HUSHSET (R79): Read hush and set it to 1. -/
  | hushset (a : At) (f : RF)
  /-- HUSHCLR (R79): Clear hush. -/
  | hushclr (a : At) (f : RF)
  /-- RDEVT (R78): Read the pending event lines. -/
  | rdevt (a : At) (f : RF)
  /-- EVCLR (R78): Clear the selected pending event lines. -/
  | evclr (a : At) (f : RF)
  /-- WREVEN (R78): Write EVT_EN. -/
  | wreven (a : At) (f : RF)
  /-- WRCMP (R78): Write INTERVAL_CMP. -/
  | wrcmp (a : At) (f : RF)
  /-- INTERVAL_COMPARE_MATCH (R78): INTERVAL_COUNT reaches INTERVAL_CMP and line 0 becomes pending. -/
  | intervalCompareMatch (a : At)
  /-- EXCEPTION_ENTRY (R83): A fault, trap or enabled event is taken, stacking a frame and entering the handler. -/
  | exceptionEntry (a : At)
  /-- WX_HI_WRITE (R88): A write of WX_HI installs WX from WX_LO and the written value. -/
  | wxHiWrite (a : At) (v : Word)
  /-- VADD (R103): Vector add. -/
  | vadd (a : At) (f : VF)
  /-- VSUB (R103): Vector subtract a minus b. -/
  | vsub (a : At) (f : VF)
  /-- VRSUB (R103): Vector reverse subtract b minus a. -/
  | vrsub (a : At) (f : VF)
  /-- VMUL (R103): Vector multiply. -/
  | vmul (a : At) (f : VF)
  /-- VMIN (R129): Vector signed or floating minimum. -/
  | vmin (a : At) (f : VF)
  /-- VMAX (R129): Vector signed or floating maximum. -/
  | vmax (a : At) (f : VF)
  /-- VMINU (R103): Vector unsigned minimum. -/
  | vminu (a : At) (f : VF)
  /-- VMAXU (R103): Vector unsigned maximum. -/
  | vmaxu (a : At) (f : VF)
  /-- VAND (R103): Vector bitwise AND. -/
  | vand (a : At) (f : VF)
  /-- VOR (R103): Vector bitwise OR. -/
  | vor (a : At) (f : VF)
  /-- VXOR (R103): Vector bitwise XOR. -/
  | vxor (a : At) (f : VF)
  /-- VSLL (R103): Vector shift left by b mod w. -/
  | vsll (a : At) (f : VF)
  /-- VSRL (R103): Vector logical shift right by b mod w. -/
  | vsrl (a : At) (f : VF)
  /-- VSRA (R103): Vector arithmetic shift right by b mod w. -/
  | vsra (a : At) (f : VF)
  /-- VMULH (R103): Vector high half of the signed product. -/
  | vmulh (a : At) (f : VF)
  /-- VMULHU (R103): Vector high half of the unsigned product. -/
  | vmulhu (a : At) (f : VF)
  /-- VFMA (R103): Vector fused multiply-add into vd. -/
  | vfma (a : At) (f : VF)
  /-- VFMS (R103): Vector fused multiply-subtract. -/
  | vfms (a : At) (f : VF)
  /-- VFNMA (R103): Vector negated fused multiply-add. -/
  | vfnma (a : At) (f : VF)
  /-- VDIV (R103): Vector floating divide. -/
  | vdiv (a : At) (f : VF)
  /-- VSQRT (R103): Vector floating square root of b. -/
  | vsqrt (a : At) (f : VF)
  /-- VABS (R103): Vector absolute value of b. -/
  | vabs (a : At) (f : VF)
  /-- VNEG (R103): Vector negation of b. -/
  | vneg (a : At) (f : VF)
  /-- VCMPEQ (R92): Compare equal into a mask. -/
  | vcmpeq (a : At) (f : VF)
  /-- VCMPNE (R92): Compare not equal into a mask. -/
  | vcmpne (a : At) (f : VF)
  /-- VCMPLT (R92): Compare less than into a mask. -/
  | vcmplt (a : At) (f : VF)
  /-- VCMPLE (R92): Compare less or equal into a mask. -/
  | vcmple (a : At) (f : VF)
  /-- VCMPLTU (R92): Unsigned compare less than into a mask. -/
  | vcmpltu (a : At) (f : VF)
  /-- VCMPLEU (R92): Unsigned compare less or equal into a mask. -/
  | vcmpleu (a : At) (f : VF)
  /-- VCMPUN (R92): Unordered compare into a mask. -/
  | vcmpun (a : At) (f : VF)
  /-- VCVT (R128): Convert elements from fmtx to vfmt.fmt. -/
  | vcvt (a : At) (f : VF)
  /-- VMERGE (R92): Select a or b per element by mask. -/
  | vmerge (a : At) (f : VF)
  /-- VMV (R92): Move or broadcast into vd. -/
  | vmv (a : At) (f : VF)
  /-- VWADD (R104): Widening add. -/
  | vwadd (a : At) (f : VF)
  /-- VWADDU (R104): Widening unsigned add. -/
  | vwaddu (a : At) (f : VF)
  /-- VWMUL (R104): Widening multiply. -/
  | vwmul (a : At) (f : VF)
  /-- VWMULU (R104): Widening unsigned multiply. -/
  | vwmulu (a : At) (f : VF)
  /-- VWFMA (R104): Widening fused multiply-add. -/
  | vwfma (a : At) (f : VF)
  /-- VDOT2 (R105): Two-way dot product into wide lanes. -/
  | vdot2 (a : At) (f : VF)
  /-- VDOT4 (R105): Four-way dot product into wide lanes. -/
  | vdot4 (a : At) (f : VF)
  /-- VDOT8 (R105): Eight-way dot product into wide lanes. -/
  | vdot8 (a : At) (f : VF)
  /-- VSADD (R106): Saturating signed add. -/
  | vsadd (a : At) (f : VF)
  /-- VSADDU (R106): Saturating unsigned add. -/
  | vsaddu (a : At) (f : VF)
  /-- VSSUB (R106): Saturating signed subtract. -/
  | vssub (a : At) (f : VF)
  /-- VSSUBU (R106): Saturating unsigned subtract. -/
  | vssubu (a : At) (f : VF)
  /-- VSMUL (R106): Fractional multiply with rounding and clamp. -/
  | vsmul (a : At) (f : VF)
  /-- VSSRA (R106): Rounding arithmetic shift right. -/
  | vssra (a : At) (f : VF)
  /-- VSSRL (R106): Rounding logical shift right. -/
  | vssrl (a : At) (f : VF)
  /-- VNCLIP (R106): Narrowing signed rounding shift with saturation. -/
  | vnclip (a : At) (f : VF)
  /-- VNCLIPU (R106): Narrowing unsigned rounding shift with saturation. -/
  | vnclipu (a : At) (f : VF)
  /-- VAADD (R106): Averaging add rounded by xrm. -/
  | vaadd (a : At) (f : VF)
  /-- VMXQ (R108): MX quantise FP32 blocks into scales and narrow elements. -/
  | vmxq (a : At) (f : VF)
  /-- VMXDQ (R108): MX dequantise to FP32 or BF16. -/
  | vmxdq (a : At) (f : VF)
  /-- VLD (R109): Unit-stride vector load, holding the strand. -/
  | vld (a : At) (f : VF)
  /-- VLDS (R109): Strided vector load. -/
  | vlds (a : At) (f : VF)
  /-- VLDX (R109): Indexed vector load (gather). -/
  | vldx (a : At) (f : VF)
  /-- VST (R110): Unit-stride vector store. -/
  | vst (a : At) (f : VF)
  /-- VSTS (R110): Strided vector store. -/
  | vsts (a : At) (f : VF)
  /-- VSTX (R110): Indexed vector store (scatter). -/
  | vstx (a : At) (f : VF)
  /-- VLDM (R92): Load mask bits 0 to vlen-1 from memory. -/
  | vldm (a : At) (f : VF)
  /-- VSTM (R92): Store mask bits 0 to vlen-1 to memory. -/
  | vstm (a : At) (f : VF)
  /-- VAMOX (R111): Send a memory-side operation per active element. -/
  | vamox (a : At) (f : VF)
  /-- VECTOR_ELEMENT_RETURN (R117): Data or a failure for a vector memory element returns. -/
  | vectorElementReturn (t : TileId)
  /-- VECTOR_OP_COMPLETE (R115): A vector instruction writes its last result and releases marks and any held strand. -/
  | vectorOpComplete (t : TileId) (p : Pipe)
  /-- VSETVL (R94): Set group, format and vector length. -/
  | vsetvl (a : At) (f : VF)
  /-- VSETMODE (R94): Set the rounding, sat, ftz and xrm fields of vfmt. -/
  | vsetmode (a : At) (f : VF)
  /-- VRDST (R95): Read a per-strand vector state register. -/
  | vrdst (a : At) (f : VF)
  /-- VWRST (R95): Write a per-strand vector state register. -/
  | vwrst (a : At) (f : VF)
  /-- MAND (R92): Mask AND. -/
  | mand (a : At) (f : VF)
  /-- MOR (R92): Mask OR. -/
  | mor (a : At) (f : VF)
  /-- MXOR (R92): Mask XOR. -/
  | mxor (a : At) (f : VF)
  /-- MANDN (R92): Mask AND-NOT. -/
  | mandn (a : At) (f : VF)
  /-- MNOT (R92): Mask NOT. -/
  | mnot (a : At) (f : VF)
  /-- MPOPC (R116): Count active set mask bits into a general register. -/
  | mpopc (a : At) (f : VF)
  /-- MFIRST (R116): Index of the lowest active set mask bit, or -1. -/
  | mfirst (a : At) (f : VF)
  /-- VCOMPRESS (R112): Pack active elements to the low end. -/
  | vcompress (a : At) (f : VF)
  /-- VEXPAND (R112): Spread source elements to active positions. -/
  | vexpand (a : At) (f : VF)
  /-- VSLIDEUP (R112): Slide elements up by an offset. -/
  | vslideup (a : At) (f : VF)
  /-- VSLIDEDOWN (R112): Slide elements down by an offset. -/
  | vslidedown (a : At) (f : VF)
  /-- VPERM (R112): Permute elements by an index group. -/
  | vperm (a : At) (f : VF)
  /-- VMVXS (R426): Move one vector element to a general register. -/
  | vmvxs (a : At) (f : VF)
  /-- VMVSX (R426): Move a general register into one vector element. -/
  | vmvsx (a : At) (f : VF)
  /-- VREDSUM (R113): Tree reduction sum into element 0. -/
  | vredsum (a : At) (f : VF)
  /-- VREDMIN (R113): Tree reduction minimum. -/
  | vredmin (a : At) (f : VF)
  /-- VREDMAX (R113): Tree reduction maximum. -/
  | vredmax (a : At) (f : VF)
  /-- VREDMINU (R113): Tree reduction unsigned minimum. -/
  | vredminu (a : At) (f : VF)
  /-- VREDMAXU (R113): Tree reduction unsigned maximum. -/
  | vredmaxu (a : At) (f : VF)
  /-- VREDAND (R113): Tree reduction AND. -/
  | vredand (a : At) (f : VF)
  /-- VREDOR (R113): Tree reduction OR. -/
  | vredor (a : At) (f : VF)
  /-- VREDXOR (R113): Tree reduction XOR. -/
  | vredxor (a : At) (f : VF)
  /-- VWREDSUM (R113): Widening tree reduction sum. -/
  | vwredsum (a : At) (f : VF)
  /-- VSCANSUM (R114): Segmented doubling scan sum. -/
  | vscansum (a : At) (f : VF)
  /-- VSCANMIN (R114): Segmented scan minimum. -/
  | vscanmin (a : At) (f : VF)
  /-- VSCANMAX (R114): Segmented scan maximum. -/
  | vscanmax (a : At) (f : VF)
  /-- TWLD (R151): Load a weight tile into every array of the tile. -/
  | twld (a : At) (f : MF)
  /-- TMMA (R150): Multiply-accumulate over masked activation rows. -/
  | tmma (a : At) (f : MF)
  /-- TMMR (R154): Multiply-accumulate over rows chosen by a route descriptor. -/
  | tmmr (a : At) (f : MF)
  /-- THAM (R162): Hamming distance over B1 operands. -/
  | tham (a : At) (f : MF)
  /-- TL1 (R162): L1 distance over INT8 or INT4 operands. -/
  | tl1 (a : At) (f : MF)
  /-- TMINP (R163): Min-plus semiring product. -/
  | tminp (a : At) (f : MF)
  /-- TMAXP (R163): Max-plus semiring product. -/
  | tmaxp (a : At) (f : MF)
  /-- TLD (R185): Tile load from memory into an operand slot through a staging buffer. -/
  | tld (a : At) (f : QF)
  /-- TST (R185): Tile store of operand-slot rows to memory. -/
  | tst (a : At) (f : QF)
  /-- TACLD (R187): Load an accumulator slot from memory. -/
  | tacld (a : At) (f : QF)
  /-- TACST (R187): Store an accumulator slot to memory or an operand slot. -/
  | tacst (a : At) (f : QF)
  /-- TACZERO (R181): Set an accumulator slot to the zero of its kind. -/
  | taczero (a : At) (f : QF)
  /-- TCFG (R176): Write TILE_CFG, waiting on busy slots whose kind changes. -/
  | tcfg (a : At) (f : CF)
  /-- TCFGRD (R176): Read TILE_CFG. -/
  | tcfgrd (a : At) (f : CF)
  /-- TWAIT (R182): Wait for the strand's tile operations and raise any recorded fault. -/
  | twait (a : At) (f : CF)
  /-- TFRD (R139): Read TILE_FLAGS. -/
  | tfrd (a : At) (f : CF)
  /-- TFCLR (R139): Clear selected TILE_FLAGS bits. -/
  | tfclr (a : At) (f : CF)
  /-- TFLTRD (R189): Read TFAULT or TFAULT_IA. -/
  | tfltrd (a : At) (f : CF)
  /-- TRPSV (R192): Save and remove the strand's held entries. -/
  | trpsv (a : At) (f : CF)
  /-- TRPLD (R192): Install held entries from a save area. -/
  | trpld (a : At) (f : CF)
  /-- TRPCLR (R192): Discard held entries by tag. -/
  | trpclr (a : At) (f : CF)
  /-- TILE_OP_BEGIN (R179): A queued tile operation begins once its ordering, timing and staging conditions hold. -/
  | tileOpBegin (t : TileId) (k : Nat)
  /-- TILE_ROW_RETURN (R189): A memory row of a tile operation returns or fails, recording a fault and cancelling. -/
  | tileRowReturn (t : TileId) (k : Nat)
  /-- TILE_OP_COMMIT (R181): A tile operation commits, updating the shadow, flags and busy state. -/
  | tileOpCommit (t : TileId) (k : Nat)
  /-- DUMMY_ROW_FEED (R168): An idle array with smooth set feeds a dummy row under the ramp. -/
  | dummyRowFeed (t : TileId) (arr : Fin 4)
  /-- TILE_CFG_STORE (R176): A store to TILE_CFG through the control block acts as tcfg. -/
  | tileCfgStore (t : TileId) (v : Word)
  /-- ARRAY_HOLD (R171): Writing ARRAY_CTL.hold 1 drains the arrays. -/
  | arrayHold (t : TileId)
  /-- ARRAY_RUN (R171): Writing ARRAY_CTL.hold 0 runs the arrays and queued operations enter. -/
  | arrayRun (t : TileId)
  /-- ARRAY_DRAIN_DONE (R171): A draining array has no uncommitted operation and goes off. -/
  | arrayDrainDone (t : TileId)
  /-- FENCE (R213): Hold the strand until earlier loads return and stores complete. -/
  | fence (a : At) (f : RF)
  /-- FENCE_LD (R213): Hold the strand until earlier loads return. -/
  | fenceLd (a : At) (f : RF)
  /-- DCL (R209): Clean the sector holding an address. -/
  | dcl (a : At) (f : RF)
  /-- DCI (R209): Clean and invalidate the sector holding an address. -/
  | dci (a : At) (f : RF)
  /-- DINV (R209): Invalidate a sector, discarding dirty data. -/
  | dinv (a : At) (f : RF)
  /-- DCLR (R210): Clean every sector of a range. -/
  | dclr (a : At) (f : RF)
  /-- DCIR (R210): Clean and invalidate every sector of a range. -/
  | dcir (a : At) (f : RF)
  /-- DINVR (R210): Invalidate every sector of a range. -/
  | dinvr (a : At) (f : RF)
  /-- DCLSW (R209): Clean a line by set and way. -/
  | dclsw (a : At) (f : RF)
  /-- DCISW (R209): Clean and invalidate a line by set and way. -/
  | dcisw (a : At) (f : RF)
  /-- DINVSW (R209): Invalidate a line by set and way under a CTRL warrant. -/
  | dinvsw (a : At) (f : RF)
  /-- DCL_ALL (R209): Clean every line of the tile store. -/
  | dclAll (a : At) (f : RF)
  /-- DCI_ALL (R209): Clean and invalidate every line of the tile store. -/
  | dciAll (a : At) (f : RF)
  /-- DINV_ALL (R209): Invalidate every line under a CTRL warrant. -/
  | dinvAll (a : At) (f : RF)
  /-- PFL (R208): Make one checked prefetch request. -/
  | pfl (a : At) (f : RF)
  /-- PFS (R207): Install a stream prefetcher. -/
  | pfs (a : At) (f : RF)
  /-- PFSTOP (R207): Stop selected stream prefetchers. -/
  | pfstop (a : At) (f : RF)
  /-- PFRD (R207): Read PF_STATE of a stream. -/
  | pfrd (a : At) (f : RF)
  /-- STREAM_PREFETCH_REQUEST (R208): A running stream checks and issues its next line request. -/
  | streamPrefetchRequest (t : TileId) (k : Fin 16)
  /-- FILL_RETURN (R200): Sectors of a tile-store fill arrive and are installed. The words of the line that `weak` and `torn` name
  have an error that the tile store's code can, or cannot, correct when it is next read (08 R197). -/
  | fillReturn (t : TileId) (place : Nat) (weak torn : BitVec 32)
  /-- MERGING_BUFFER_SEND (R199): A merging-buffer entry is sent when full, aged, needed or before a miss. -/
  | mergingBufferSend (t : TileId) (k : Nat)
  /-- WRITEBACK_REFUSED (R215): A refused write-back sets wbfail and raises line 4 on every strand. -/
  | writebackRefused (t : TileId)
  /-- MESH_PACKET_DELIVER (R26): A mesh packet is delivered to its destination port. -/
  | meshPacketDeliver (c : MeshClass) (src dst : MeshPort)
  /-- STACK_PORT_ACCEPT (R27): A stack port moves a request into the Tailband and returns its credit. -/
  | stackPortAccept (m : StackId)
  /-- MEMORY_REQUEST (R226): A channel controller chooses and performs a request at a command opportunity. -/
  | memoryRequest (c : ChannelId) (unit : Nat) (e : Ecc)
  /-- REGULATOR_REFILL (R225): A bandwidth regulator gains tokens. -/
  | regulatorRefill (m : StackId) (q : Fin 17) (ns : Nat)
  /-- HBM_REFRESH (R217): Per-bank refresh is issued to a channel. -/
  | hbmRefresh (c : ChannelId)
  /-- STACK_TEMP_READ (R233): Core-die temperatures are read and the throttle level updated. -/
  | stackTempRead (m : StackId) (temp : BitVec 10)
  /-- THERMAL_STOP_BOUND (R235): A stop lasting beyond stopbound raises an alarm. -/
  | thermalStopBound (m : StackId)
  /-- PATROL_SCRUB (R232): The patrol scrub reads a unit and applies correction. -/
  | patrolScrub (m : StackId) (u : Nat) (e : Ecc)
  /-- RETRAIN_START (R236): A channel due for retraining is granted and begins quiescing. -/
  | retrainStart (c : ChannelId) (ms : Nat)
  /-- RETRAIN_QUIESCE_DONE (R238): Issued commands complete and training begins. -/
  | retrainQuiesceDone (c : ChannelId)
  /-- RETRAIN_TRAIN_DONE (R239): Training ends, keeping or restoring settings. -/
  | retrainTrainDone (c : ChannelId) (ok : Bool)
  /-- RETRAIN_RESUME_DONE (R238): The channel resumes and performs held requests. -/
  | retrainResumeDone (c : ChannelId)
  /-- LANE_PHASE_TRACK (R379): A data lane's sampling phase moves one step. -/
  | lanePhaseTrack (c : ChannelId) (lane : Fin 64) (up : Bool)
  /-- RESTRIPE_START (R244): A waiting restripe starts once condemned regions are free. -/
  | restripeStart
  /-- RESTRIPE_BATCH (R241): A batch of granules moves and the watermark advances. -/
  | restripeBatch
  /-- CHANNEL_DEAD (R245): An unreadable channel becomes dead and every assigned region lost. -/
  | channelDead (c : ChannelId)
  /-- KEY_SWEEP_REGION (R342): The key-rotation sweep rewrites one region under the new slot. -/
  | keySweepRegion (q : QuireId)
  /-- FILL_REGION (R332): The scrub fill writes one region with zeros under the fill key. -/
  | fillRegion (q : QuireId)
  /-- FRAME_SEND (R259): A Splice port encrypts, checks and sends a frame. -/
  | frameSend (p : PortId)
  /-- FRAME_RECEIVE (R260): A received frame is decoded, checked and accepted or discarded. -/
  | frameReceive (p : PortId) (fr : Frame)
  /-- RETRY_TIMEOUT (R260): No acknowledgement for rto resends from the oldest frame. -/
  | retryTimeout (p : PortId)
  /-- SPLICE_KEY_CHANGE (R262): The sender moves to the next link key before its counter reaches 2^32. -/
  | spliceKeyChange (p : PortId)
  /-- REMOTE_REQUEST (R278): A destination checks and performs a remote request. -/
  | remoteRequest (p : PortId)
  /-- REMOTE_WRITE_RESPONSE (R280): A response to a remote write or bulk request arrives. -/
  | remoteWriteResponse (p : PortId)
  /-- EVENT_SIGNAL_PACKET (R82): An event signal packet sets a line on the named strand. -/
  | eventSignalPacket (p : PortId)
  /-- PORT_ENABLE (R282): Writing PORT_CTL.en 1 starts training. -/
  | portEnable (p : PortId)
  /-- LANE_ADAPTATION_DONE (R282): Lane adaptation ends, at full or half width, or fails. -/
  | laneAdaptationDone (p : PortId) (lowOk highOk : Bool)
  /-- ALIGNMENT_DONE (R282): Deskew and frame lock complete. -/
  | alignmentDone (p : PortId) (ok : Bool)
  /-- KEY_EXCHANGE_DONE (R339): The Spines agree traffic keys and the port initialises credits and goes up. -/
  | keyExchangeDone (p : PortId) (peer : PeerOffer)
  /-- PORT_RETRAIN_REQUEST (R283): Writing PORT_CTL.retrain requests live retraining. -/
  | portRetrainRequest (p : PortId)
  /-- ADAPTATION_LOSS (R380): Error ratio or coefficient limit held 1 ms starts live retraining. -/
  | adaptationLoss (p : PortId)
  /-- LIVE_RETRAIN_DONE (R283): Live retraining ends with the port up or failed. -/
  | liveRetrainDone (p : PortId) (ok : Bool)
  /-- PORT_DISABLE (R284): Writing PORT_CTL.en 0 drains the port. -/
  | portDisable (p : PortId)
  /-- PORT_DRAIN_TIMEOUT (R284): Drain exceeding drainto abandons frames and turns the port off. -/
  | portDrainTimeout (p : PortId)
  /-- CGSET (R289): Install a group entry. -/
  | cgset (a : At) (f : RF)
  /-- CGGET (R289): Write a group entry to memory. -/
  | cgget (a : At) (f : RF)
  /-- CGCLR (R290): Empty a group entry. -/
  | cgclr (a : At) (f : RF)
  /-- CCOL (R291): Issue a collective from its descriptor. -/
  | ccol (a : At) (f : RF)
  /-- XSTART (R302): Start a transfer engine from its descriptor. -/
  | xstart (a : At) (f : RF)
  /-- COLLECTIVE_PACKET (R299): A collective packet is checked and its chunk combined or placed. -/
  | collectivePacket (p : PortId)
  /-- COLLECTIVE_BOUND_EXPIRY (R300): No chunk for the group's bound ends the collective with 0x06. -/
  | collectiveBoundExpiry (g : GroupId)
  /-- COLLECTIVE_END (R301): A collective ends and completion records are written. -/
  | collectiveEnd (g : GroupId)
  /-- TRANSFER_PIECE_DONE (R302): A transfer piece completes or fails, ending the transfer after the last. -/
  | transferPieceDone (k : Nat)
  /-- HELLO (R314): Establish a session with key exchange and signed transcript. -/
  | hello (c : Hdr) (p : HelloReq)
  /-- AUTH (R315): Authenticate the session to a role. -/
  | auth (c : Hdr) (p : AuthReq)
  /-- CLOSE (R315): Close the session. -/
  | close (c : Hdr)
  /-- REKEY (R314): Renew session keys and increment the epoch. -/
  | rekey (c : Hdr) (p : RekeyReq)
  /-- PING (R317): Echo data and report the Spine in service. -/
  | ping (c : Hdr) (echo : List Byte)
  /-- SESSIONS (R317): List sessions. -/
  | sessions (c : Hdr)
  /-- EVICT (R315): Evict a session. -/
  | evict (c : Hdr) (id : Nat)
  /-- NETCFG (R305): Change a port's network record. -/
  | netcfg (c : Hdr) (p : NetCfgReq)
  /-- NETPORT (R324): Enable or drain Ethernet ports. -/
  | netport (c : Hdr) (mask : BitVec 8) (enable : Bool)
  /-- STATUS (R369): Report stage byte, grade, device and firmware. -/
  | status (c : Hdr)
  /-- HEALTH (R383): Report risk estimate and health state. -/
  | health (c : Hdr)
  /-- INVENTORY (R317): Report manufacturing record and disabled arrays. -/
  | inventory (c : Hdr)
  /-- LOSTLIST (R386): Return lost regions from a first index. -/
  | lostlist (c : Hdr) (first : Nat)
  /-- ALARMS (R408): Return coalesced alarm records. -/
  | alarms (c : Hdr) (n : Nat)
  /-- ALARMACK (R408): Clear alarm records up to a sequence number. -/
  | alarmack (c : Hdr) (n : Nat)
  /-- QCREATE (R327): Create and assign a quire. -/
  | qcreate (c : Hdr) (p : QCreateReq)
  /-- QQUERY (R317): Report a quire's state and composition. -/
  | qquery (c : Hdr)
  /-- QMODIFY (R318): Change a quire's bandwidth, energy, rights or regions. -/
  | qmodify (c : Hdr) (p : QModifyReq)
  /-- QDRAIN (R413): Drain a quire within a bound. -/
  | qdrain (c : Hdr) (bound : Nat)
  /-- QRELEASE (R330): Release a quire, destroying keys and scrubbing. -/
  | qrelease (c : Hdr)
  /-- KEYROTATE (R342): Start a quire key rotation. -/
  | keyrotate (c : Hdr)
  /-- LOAD (R319): Load bytes by bulk transfer and measure them. -/
  | load (c : Hdr) (p : LoadReq)
  /-- READ (R317): Read up to 64 KiB of quire memory. -/
  | read (c : Hdr) (addr len : Nat)
  /-- WRITE (R317): Write up to 64 KiB of quire memory. -/
  | write (c : Hdr) (addr : Nat) (bytes : List Byte)
  /-- BULKOPEN (R322): Open a bulk transfer. -/
  | bulkopen (c : Hdr) (p : BulkReq)
  /-- BULKSTATUS (R317): Report a bulk transfer's state. -/
  | bulkstatus (c : Hdr) (xid : Nat)
  /-- BULKCANCEL (R323): Cancel a bulk transfer. -/
  | bulkcancel (c : Hdr) (xid : Nat)
  /-- START (R328): Install start-record state and root warrants and release strands. -/
  | start (c : Hdr) (tiles : BitVec 192) (strands : BitVec 8) (rec : Nat)
  /-- HALT (R59): Halt named strands. -/
  | halt (c : Hdr) (tiles : BitVec 192) (strands : BitVec 8)
  /-- TILERESET (R390): Reset tiles and re-run from step marks. -/
  | tilereset (c : Hdr) (tiles : BitVec 192)
  /-- STRANDS (R317): Report strand control, pc and cause. -/
  | strands (c : Hdr) (tiles : BitVec 192)
  /-- SIGNAL (R82): Set a software event line as esignal does. -/
  | signal (c : Hdr) (tile strand line : Nat)
  /-- ATTEST (R350): Build and sign an attestation report. -/
  | attest (c : Hdr) (nonce : List Byte)
  /-- CERTS (R337): Return the certificate chain. -/
  | certs (c : Hdr)
  /-- MEASLOG (R348): Return measurement-log entries. -/
  | measlog (c : Hdr) (first : Nat)
  /-- PARTNER (R395): Name the partner module that holds copies. -/
  | partner (c : Hdr) (p : PartnerReq)
  /-- CKESTIMATE (R396): Report dirty regions and freeze estimate. -/
  | ckestimate (c : Hdr)
  /-- CHECKPOINT (R397): Request a checkpoint within a bound. -/
  | checkpoint (c : Hdr) (bound : Nat)
  /-- RESTORE (R404): Restore quires from a partner's copies. -/
  | restore (c : Hdr) (p : RestoreReq)
  /-- REPLAYREC (R394): Report the replayable flag and log position. -/
  | replayrec (c : Hdr)
  /-- RECOVERREGION (R386): Zero-fill and reassign lost regions. -/
  | recoverregion (c : Hdr) (regions : List Nat)
  /-- MAPOUT (R240): Map a channel out by restripe. -/
  | mapout (c : Hdr) (ch : Nat)
  /-- FAILOVER (R406): Make the standby Spine take over. -/
  | failover (c : Hdr)
  /-- GEOMETRY (R269): Set device identifier and system geometry. -/
  | geometry (c : Hdr) (p : GeometryReq)
  /-- PORTCFG (R269): Set a Splice port's bundle and parameters. -/
  | portcfg (c : Hdr) (p : PortCfgReq)
  /-- PORTEN (R284): Train or drain Splice ports. -/
  | porten (c : Hdr) (mask : BitVec 16) (enable : Bool)
  /-- PORTSTAT (R317): Report Splice port state and errors. -/
  | portstat (c : Hdr) (mask : BitVec 16)
  /-- OVERRIDE (R273): Write routing override entries. -/
  | override (c : Hdr) (es : List OvrReq)
  /-- GROUPSAVE (R303): Send the group-table image by bulk transfer. -/
  | groupsave (c : Hdr) (b : BulkParams)
  /-- GROUPRESTORE (R304): Install a group-table image for a quire. -/
  | grouprestore (c : Hdr) (quire : Nat) (b : BulkParams)
  /-- PLANSET (R357): Set energy budgets and island ceilings. -/
  | planset (c : Hdr) (p : PlanReq)
  /-- PLANGET (R358): Report the plan in force. -/
  | planget (c : Hdr)
  /-- READING (R346): Report energy readings. -/
  | reading (c : Hdr) (windows : Nat)
  /-- FEEDS (R366): Report feed tags, voltage, current and use. -/
  | feeds (c : Hdr)
  /-- SUBSCRIBE (R320): Subscribe to alarm, log or trace notices. -/
  | subscribe (c : Hdr) (classes : BitVec 8) (dest : Nat)
  /-- UNSUBSCRIBE (R320): End a subscription. -/
  | unsubscribe (c : Hdr) (id : Nat)
  /-- LOGREAD (R409): Read log records and the loss count. -/
  | logread (c : Hdr) (first limit : Nat)
  /-- EXPORTCFG (R320): Set the notice export share. -/
  | exportcfg (c : Hdr) (share : Option Nat)
  /-- COUNTERS (R345): Report the quire's coarsened counts. -/
  | counters (c : Hdr) (set : Nat)
  /-- FWSTAGE (R381): Stage a firmware image or owner record in the inactive slot. -/
  | fwstage (c : Hdr) (len : Nat) (image : FwImage) (b : BulkParams)
  /-- FWVERIFY (R347): Verify the staged image's signatures. -/
  | fwverify (c : Hdr)
  /-- FWACTIVATE (R381): Activate staged firmware at reset or now via the standby. -/
  | fwactivate (c : Hdr) (now : Nat)
  /-- FWINFO (R370): Report running and staged firmware. -/
  | fwinfo (c : Hdr)
  /-- MESSAGE_PART_TIMEOUT (R310): A message whose parts are incomplete after 1 s is discarded. -/
  | messagePartTimeout (session : Nat) (seq : Nat)
  /-- SESSION_IDLE_TIMEOUT (R315): A session silent for 60 s is closed. -/
  | sessionIdleTimeout (session : Nat)
  /-- SESSION_REKEY_TIMEOUT (R314): A session not rekeyed for 24 hours is closed. -/
  | sessionRekeyTimeout (session : Nat)
  /-- EPOCH_GRACE_EXPIRY (R314): Packets under the previous epoch stop being accepted 1 s after rekey. -/
  | epochGraceExpiry (session : Nat)
  /-- BULK_DATA (R322): A bulk data chunk is received and written. -/
  | bulkData (p : BulkData)
  /-- BULK_ACKNOWLEDGEMENT (R322): A bulk acknowledgement is received and resends decided. -/
  | bulkAcknowledgement (p : BulkAck)
  /-- BULK_DONE (R323): A done packet ends a transfer. -/
  | bulkDone (xid session : Nat) (status : BitVec 16) (detail : BitVec 16)
  /-- BULK_ABORT (R323): An abort packet ends a transfer. -/
  | bulkAbort (xid session : Nat) (status : BitVec 16) (detail : BitVec 16)
  /-- BULK_ACK_TIMER (R322): 50 µs after an unacknowledged chunk an acknowledgement is sent. -/
  | bulkAckTimer (xid : Nat)
  /-- BULK_RESEND_TIMEOUT (R322): No advance of word for 2 ms resends chunks. -/
  | bulkResendTimeout (xid : Nat)
  /-- BULK_PEER_TIMEOUT (R323): No packet from the peer for 10 s aborts the transfer with LOST. -/
  | bulkPeerTimeout (xid : Nat)
  /-- ETH_PORT_ENABLE (R324): Writing ETH_CTL.en 1 trains the Ethernet port. -/
  | ethPortEnable (e : EthId)
  /-- ETH_PORT_DISABLE (R324): Writing ETH_CTL.en 0 drains the Ethernet port. -/
  | ethPortDisable (e : EthId)
  /-- ETH_PORT_DRAINED (R324): An empty queue turns a draining Ethernet port off. -/
  | ethPortDrained (e : EthId)
  /-- ETH_LINK_DROP (R380): An Ethernet link drops and trains again. -/
  | ethLinkDrop (e : EthId)
  /-- ICMP_ECHO (R305): An ICMP or ICMPv6 echo request is answered. -/
  | icmpEcho (e : EthId) (p : NetPacket)
  /-- ARP_REQUEST (R305): An ARP request is answered. -/
  | arpRequest (e : EthId) (p : NetPacket)
  /-- NEIGHBOUR_DISCOVERY (R305): A neighbour discovery message is processed. -/
  | neighbourDiscovery (e : EthId) (p : NetPacket)
  /-- PRIORITY_FLOW_CONTROL (R305): A PFC frame pauses or resumes the bulk priority. -/
  | priorityFlowControl (e : EthId) (prio : Fin 8) (pause : Bool)
  /-- QREAD (R344): Read a quire reading. -/
  | qread (a : At) (f : RF)
  /-- QREKEY (R344): Start a key rotation from a strand. -/
  | qrekey (a : At) (f : RF)
  /-- DISCARD_RETRY (R330): Discard is sent again to an unanswering partner. -/
  | discardRetry (q : QuireId)
  /-- GRANT_REFILL (R355): Every 10 µs each tile's grant balance is refilled. -/
  | grantRefill
  /-- ENERGY_PLAN (R358): The governor measures, divides budget and sets voltages and refills. -/
  | energyPlan (m : PlanMeasure)
  /-- FEED_FAIL (R363): A feed fails, starting a switch-over or loss. -/
  | feedFail (f : Feed)
  /-- FEED_GOOD (R363): A feed becomes good. -/
  | feedGood (f : Feed)
  /-- FEED_TRANSFER_DONE (R363): A switch-over transfer completes on the new feed; the straps are read as they then stand (R366). -/
  | feedTransferDone (tags : FeedTags)
  /-- MAIN_GOOD_TIMER (R363): Main good for 10 s switches back from backup. -/
  | mainGoodTimer
  /-- HOLDUP_EXHAUSTED (R363): Hold-up ends in the lost state and the module powers down. -/
  | holdupExhausted
  /-- PMBUS_POLL (R417): Each shelf is polled every 10 ms. -/
  | pmbusPoll (f : Feed) (r : PmbusReply)
  /-- RING_CALIBRATION (R21): The Spine publishes a ring reference calibration. -/
  | ringCalibration (i : IslandId) (period : BitVec 32)
  /-- POWER_UP (R363): Feeds are applied and the module enters its first feed state. -/
  | powerUp (mainGood backupGood : Bool) (tags : FeedTags)
  /-- MODULE_RESET (R415): MRST_N low for 1 µs resets the module and bring-up begins on release. -/
  | moduleReset
  /-- STAGE_ROM (R367): Stage 0 ROM self-check and Ethernet training complete. -/
  | stageRom (ok0 ok1 : Bool) (eth : BitVec 8)
  /-- STAGE_FIRMWARE (R370): Stage 1 verifies owner records and firmware. -/
  | stageFirmware (p : FirmwareCheck)
  /-- STAGE_KEYS (R335): Stage 2 unwraps the device key and derives keys. -/
  | stageKeys (ok0 ok1 : Bool)
  /-- STAGE_RECORD (R372): Stage 3 verifies and applies the manufacturing record. -/
  | stageRecord (r : ManufRecord)
  /-- STAGE_MEMORY (R374): Stage 4 trains channels, zero-fills memory and creates the log ring. -/
  | stageMemory (okTb : Bool) (failed : List Nat)
  /-- STAGE_LINKS (R375): Stage 5 completes when member ports settle. -/
  | stageLinks
  /-- STAGE_LINKS_TIMEOUT (R375): Stage 5 ends 500 ms after it began. -/
  | stageLinksTimeout
  /-- STAGE_TILES (R376): Stage 6 sets delays, tests routers and self-tests tiles, then grants pools. -/
  | stageTiles (meshOk : Bool) (failed : List Nat) (steps : List Nat)
  /-- MARGIN_LENGTHEN (R377): A margin below 2 steps lengthens its delay in the next beat. -/
  | marginLengthen (t : TileId)
  /-- DELAY_LIMIT (R378): A delay at step 255 without margin sets limit and tells the Spine. -/
  | delayLimit (t : TileId)
  /-- RISK_DECAY (R383): The event score falls by 1 each second. -/
  | riskDecay
  /-- QMARK (R387): Record a step mark. -/
  | qmark (a : At) (f : RF)
  /-- QNOREP (R393): Declare the program non-replayable. -/
  | qnorep (a : At) (f : RF)
  /-- QCKPT (R397): Request a checkpoint from a strand. -/
  | qckpt (a : At) (f : RF)
  /-- HUNG_TILE_DETECT (R389): The Spine judges a tile hung. -/
  | hungTileDetect (t : TileId)
  /-- CHECKPOINT_BOUND_EXPIRY (R399): The freeze bound passes before committed and the checkpoint is abandoned. -/
  | checkpointBoundExpiry
  /-- ABORT (R301): An abort Spine message ends a collective. -/
  | abort (group : GroupId) (seq : BitVec 32) (status : BitVec 8) (rank : BitVec 20)
  /-- GOING_DOWN (R401): A going-down message declares the sender lost. -/
  | goingDown (d : DeviceId) (inc : BitVec 32)
  /-- DEVICE_LOST (R401): A device-lost message is flooded and groups are held. -/
  | deviceLost (d : DeviceId) (inc : BitVec 32)
  /-- PROBE (R401): A probe message is answered with a probe reply. -/
  | probe (d : DeviceId) (inc : BitVec 32)
  /-- PROBE_REPLY (R401): A probe reply shows the device reachable. -/
  | probeReply (d : DeviceId) (inc : BitVec 32)
  /-- FEED_TAGS (R366): Feed tags are exchanged with a partner. -/
  | feedTags (d : DeviceId) (main backup : BitVec 6)
  /-- PORT_LOSS_TIMER (R401): All ports to a neighbour failed for 1 s sends a probe. -/
  | portLossTimer (d : DeviceId) (inc : BitVec 32)
  /-- PROBE_TIMEOUT (R401): No probe reply in 100 ms declares the device lost. -/
  | probeTimeout (d : DeviceId) (inc : BitVec 32)
  /-- HOLD (R402): A hold message for a group is received. -/
  | hold (g : GroupMsg)
  /-- HELD (R402): A coordinator receives a member's held answer. -/
  | held (g : GroupMsg)
  /-- REJOIN (R405): A coordinator receives a restored member's rejoin. -/
  | rejoin (g : GroupMsg)
  /-- RELEASE (R405): A release message releases a group and restarts strands. -/
  | release (g : GroupMsg)
  /-- MISMATCH (R405): A mismatch message keeps the group held with an alarm. -/
  | mismatch (g : GroupMsg)
  /-- BEGIN (R398): Checkpoint begin is received by the partner; `seals` are the virtual numbers of the quire's seal regions (R66). -/
  | begin (m : CkMsg) (seals : List Nat)
  /-- COMMITTED (R398): Committed ends the freeze and clears dirty bits. -/
  | committed (m : CkMsg)
  /-- CHECKPOINT_ABANDON (R399): The partner discards the regions of an abandoned checkpoint. -/
  | checkpointAbandon (m : CkMsg)
  /-- RESTORE_REQUEST (R404): A partner receives a restore request and streams copies. -/
  | restoreRequest (m : CkMsg)
  /-- RESTORE_DONE (R404): Restore done completes a restore stream. -/
  | restoreDone (m : CkMsg)
  /-- DISCARD (R330): The partner destroys a copy quire's keys and releases it. -/
  | discard (m : CkMsg)
  /-- DISCARDED (R330): The source Spine records that the partner discarded the copy. -/
  | discarded (m : CkMsg)
  /-- SPINE_HEARTBEAT_TIMEOUT (R406): 500 µs without heartbeat makes the standby take over. -/
  | spineHeartbeatTimeout
  /-- SPINE_FAULT_REPORT (R406): The primary reports its own fault and the standby takes over. -/
  | spineFaultReport
  /-- SPINE_WATCHDOG_EXPIRY (R407): With no Spine for 10 ms the exchange dies flood going down and fail ports. -/
  | spineWatchdogExpiry
  /-- LOG_RECORD_WRITE (R409): A queued log record is written to the log ring. -/
  | logRecordWrite
  /-- QDRAIN_TILE_TIMEOUT (R413): At b/4 remaining tiles of a draining quire are drained. -/
  | qdrainTileTimeout (q : QuireId)
  /-- QDRAIN_BOUND_EXPIRY (R413): The drain bound passes and remaining work is abandoned. -/
  | qdrainBoundExpiry (q : QuireId)
  /-- TILE_DRAIN_REMOTE_TIMEOUT (R412): After 1 ms of tile drain late remote responses are discarded. -/
  | tileDrainRemoteTimeout (t : TileId)
  /-- THERMTRIP (R420): A junction at 112 °C or stack at 110 °C trips and removes power. -/
  | thermtrip (tj tstack : BitVec 16)
  /-- SMBUS_STATUS_READ (R418): SMBus block read 0x10 returns the status block. -/
  | smbusStatusRead (addr : BitVec 7) (s : SensorBlock)
  /-- SMBUS_OTHER_COMMAND (R418): Any other SMBus command is refused with a NACK. -/
  | smbusOtherCommand (addr : BitVec 7) (cmd : BitVec 8)
  /-- REGISTER_WRITE (R8): A control-space write to a register without its own row acts per its access code. -/
  | registerWrite (addr : BitVec 44) (v : Word)
  /-- FEED_NOT_GOOD (R363): A feed ceases to be good without failing, for example by leaving 47.0 V to 55.0 V, and the module moves from main or backup to single. -/
  | feedNotGood (f : Feed)
  /-- SPLICE_CONNECTOR_MATED (R414): A Splice cable is mated to a powered module, and a failed port trains again under R282. -/
  | spliceConnectorMated (p : PortId)
  /-- ETH_PORT_TRAINED (R324): Ethernet port training ends with the port up or failed, and a pending NETPORT gets its phase 1 reply. -/
  | ethPortTrained (e : EthId) (ok : Bool)
  /-- COMMAND_PACKET_DISCARD (R311): A received packet with a bad FCS, magic, length or tag, outside the request window, or of an unsupported protocol is discarded and counted in ETH_ERR. -/
  | commandPacketDiscard (e : EthId) (why : DiscardWhy)
  /-- UNKNOWN_OPCODE (R313): A decrypted request whose opcode no table assigns gets the reply BAD_PARAM. -/
  | unknownOpcode (c : Hdr) (op : BitVec 16)
  /-- MRST_N_RELEASE (R415): MRST_N rises after a module reset, and bring-up begins at stage 0. -/
  | mrstNRelease
deriving DecidableEq, Repr

end Sys2Proof
end

