-- ==== Sys2Proof/Machine/Bits.lean ====
section
/-! DEFINITION. Bit fields, sign extension and byte order, on numbers and registers. -/

namespace Sys2Proof

/-- Bits [lo + w − 1 : lo] of a number. -/
def bitsOf (n lo w : Nat) : Nat := (n / 2 ^ lo) % 2 ^ w

/-- Bit `i` of a number. -/
def bitOf (n i : Nat) : Bool := n / 2 ^ i % 2 == 1

/-- A truth value as a number. -/
def natOf (b : Bool) : Nat := if b then 1 else 0

/-- The number `n` with bits [lo + w − 1 : lo] replaced by the low bits of `v`. -/
def setBits (n lo w v : Nat) : Nat :=
  n % 2 ^ lo + (v % 2 ^ w) * 2 ^ lo + n / 2 ^ (lo + w) * 2 ^ (lo + w)

/-- The number that little-endian bytes spell (00, "Byte order"). -/
def leNat : List Byte → Nat
  | [] => 0
  | b :: bs => b.toNat + 256 * leNat bs

/-- The `n` little-endian bytes of a number. -/
def leBytes : Nat → Nat → List Byte
  | 0, _ => []
  | n + 1, v => BitVec.ofNat 8 v :: leBytes n (v / 256)

/-- The two's-complement reading of the low `w` bits of a number. -/
def signedOf (w n : Nat) : Int :=
  let m := n % 2 ^ w
  if w ≠ 0 ∧ m ≥ 2 ^ (w - 1) then (m : Int) - (2 ^ w : Nat) else m

/-- The low `w` bits of an integer, as a number. -/
def unsignedOf (w : Nat) (z : Int) : Nat := (z % (2 ^ w : Nat)).toNat

/-- Sign extension of the low `w` bits of a number into a register. -/
def sext (w n : Nat) : Word := BitVec.ofInt 64 (signedOf w n)

/-- A number as a register value. -/
def word (n : Nat) : Word := BitVec.ofNat 64 n

/-- ⌈a / b⌉. -/
def ceilDiv (a b : Nat) : Nat := (a + b - 1) / b

/-- The exponent of the smallest power of two that is at least `n`. -/
def log2Ceil (n : Nat) : Nat := if n ≤ 1 then 0 else Nat.log2 (n - 1) + 1

/-- `xs` with position `i` changed by `f`. -/
def modAt {α : Type} (f : α → α) : Nat → List α → List α
  | _, [] => []
  | 0, x :: xs => f x :: xs
  | n + 1, x :: xs => x :: modAt f n xs

/-- A count of `w` bits raised by `k`, saturating. -/
def satAdd (w n k : Nat) : Nat := min (n + k) (2 ^ w - 1)

/-- The set bit numbers of a mask, rising. -/
def onesOf {w : Nat} (m : BitVec w) : List Nat := (List.range w).filter (fun i => m.getLsbD i)

/-- The number of ones among the low `w` bits of a number. -/
def popCount (w n : Nat) : Nat := ((List.range w).filter (bitOf n)).length

/-- The low `n` bytes of a number whose byte `i` is chosen by the mask from `new`, else from `old`. -/
def mergeBytes (mask : Nat → Bool) (new old : Nat) (n : Nat) : Nat :=
  leNat ((List.range n).map fun i =>
    BitVec.ofNat 8 (if mask i then new / 256 ^ i else old / 256 ^ i))

end Sys2Proof
end

