-- ==== Sys2Proof/Machine/Float.lean ====
section
/-! DEFINITION. Number formats, rounding and conversion (05): every result is an exact value rounded once. -/

namespace Sys2Proof

/-- How a floating format spends its largest exponents (05 Table 05-1). -/
inductive Specials where
  | ieee | e4m3 | none
deriving DecidableEq, Repr

/-- A floating format: exponent and fraction widths, bias, specials (05 Table 05-1). `flushes` marks the
formats that ftz acts on (05 R130). -/
structure FFmt where
  we : Nat
  wf : Nat
  bias : Nat
  sp : Specials
  flushes : Bool
deriving DecidableEq, Repr

def fp64 : FFmt := { we := 11, wf := 52, bias := 1023, sp := .ieee, flushes := true }
def fp32 : FFmt := { we := 8, wf := 23, bias := 127, sp := .ieee, flushes := true }
def fp16 : FFmt := { we := 5, wf := 10, bias := 15, sp := .ieee, flushes := true }
def bf16 : FFmt := { we := 8, wf := 7, bias := 127, sp := .ieee, flushes := true }
def e4m3 : FFmt := { we := 4, wf := 3, bias := 7, sp := .e4m3, flushes := false }
def e5m2 : FFmt := { we := 5, wf := 2, bias := 15, sp := .ieee, flushes := false }
def e2m3 : FFmt := { we := 2, wf := 3, bias := 1, sp := .none, flushes := false }
def e3m2 : FFmt := { we := 3, wf := 2, bias := 3, sp := .none, flushes := false }
def e2m1 : FFmt := { we := 2, wf := 1, bias := 1, sp := .none, flushes := false }

/-- The floating format of a code of 04 Table 04-3. -/
def ffmtOf (c : Nat) : Option FFmt :=
  match c with
  | 6 => some fp16 | 7 => some bf16 | 8 => some fp32 | 9 => some fp64 | 10 => some e4m3 | 11 => some e5m2
  | 12 => some e2m3 | 13 => some e3m2 | 14 => some e2m1 | _ => none

/-- The width of an integer format of 04 Table 04-3. -/
def intWidth (c : Nat) : Option Nat :=
  match c with
  | 1 => some 8 | 2 => some 16 | 3 => some 32 | 4 => some 64 | 5 => some 4 | _ => none

/-- Container width of a format code (04 Table 04-1); 0 for none and reserved. -/
def widthOf (c : Nat) : Nat :=
  match c with
  | 1 | 10 | 11 | 12 | 13 => 8 | 2 | 6 | 7 => 16 | 3 | 8 => 32 | 4 | 9 => 64 | 5 | 14 => 4 | _ => 0

/-- Flags as a mask: IEEE invalid, division by zero, overflow, underflow, inexact in bits 0 to 4, flush in bit 5, integer
saturation in bit 6 (04 Table 04-2). -/
abbrev Flags := Nat
abbrev fInvalid : Flags := 1
abbrev fDivZero : Flags := 2
abbrev fOverflow : Flags := 4
abbrev fUnderflow : Flags := 8
abbrev fInexact : Flags := 16
abbrev fFlush : Flags := 32
abbrev fSat : Flags := 64

/-- Rounding mode, overflow mode, flush mode (05 R125). -/
structure FMode where
  rm : Nat
  sat : Bool
  ftz : Bool
deriving DecidableEq, Repr

/-- What an encoding stands for; a finite value is (−1)^neg × m × 2^e. -/
inductive FVal where
  | nan
  | inf (neg : Bool)
  | fin (neg : Bool) (m : Nat) (e : Int)
deriving DecidableEq, Repr

def FFmt.width (F : FFmt) : Nat := 1 + F.we + F.wf
def FFmt.emin (F : FFmt) : Int := 1 - F.bias
/-- The encoding of the largest finite magnitude (05 Table 05-1). -/
def FFmt.maxCode (F : FFmt) : Nat :=
  match F.sp with
  | .ieee => (2 ^ F.we - 1) * 2 ^ F.wf - 1
  | .e4m3 => 2 ^ (F.we + F.wf) - 2
  | .none => 2 ^ (F.we + F.wf) - 1
/-- The canonical NaN (05 R120); the formats without one are never asked for it. -/
def FFmt.nanCode (F : FFmt) : Nat :=
  match F.sp with
  | .ieee => (2 ^ F.we - 1) * 2 ^ F.wf + 2 ^ (F.wf - 1)
  | .e4m3 => 2 ^ (F.we + F.wf) - 1
  | .none => 0
def FFmt.infCode (F : FFmt) : Nat := (2 ^ F.we - 1) * 2 ^ F.wf
def FFmt.signed (F : FFmt) (neg : Bool) (code : Nat) : Nat := code + natOf neg * 2 ^ (F.we + F.wf)

/-- The value of an encoding (05 R119). -/
def FFmt.decode (F : FFmt) (n : Nat) : FVal :=
  let neg := bitOf n (F.we + F.wf)
  let e := bitsOf n F.wf F.we
  let f := bitsOf n 0 F.wf
  if F.sp = .ieee ∧ e = 2 ^ F.we - 1 then if f = 0 then .inf neg else .nan
  else if F.sp = .e4m3 ∧ e = 2 ^ F.we - 1 ∧ f = 2 ^ F.wf - 1 then .nan
  else if e = 0 then .fin neg f (F.emin - F.wf)
  else .fin neg (2 ^ F.wf + f) ((e : Int) - F.bias - F.wf)

/-- A signalling NaN (05 R120): in the four wide formats, the top fraction bit 0. -/
def FFmt.signalling (F : FFmt) (n : Nat) : Bool :=
  F.flushes && (F.decode n == .nan) && !bitOf n (F.wf - 1)

/-- An operand as arithmetic reads it: signalling NaNs set invalid, ftz takes subnormals as zeros (05 R120, R130). -/
def FFmt.read (F : FFmt) (md : FMode) (n : Nat) : FVal × Flags :=
  match F.decode n with
  | .nan => (.nan, if F.signalling n then fInvalid else 0)
  | .inf s => (.inf s, 0)
  | .fin s m e =>
    if md.ftz ∧ F.flushes ∧ m ≠ 0 ∧ m < 2 ^ F.wf then (.fin s 0 e, fFlush) else (.fin s m e, 0)

/-- m × 2^e in units of 2^q, rounded (05 R124): the count of units, and whether it is inexact. -/
def roundUnits (rm : Nat) (neg : Bool) (m : Nat) (e q : Int) : Nat × Bool :=
  if q ≤ e then (m * 2 ^ (e - q).toNat, false)
  else
    let d := (q - e).toNat
    let k := m / 2 ^ d
    let r := m % 2 ^ d
    let half := 2 ^ (d - 1)
    let up : Bool :=
      match rm with
      | 0 => decide (r > half) || (decide (r = half) && k % 2 == 1)
      | 1 => false
      | 2 => neg && decide (r ≠ 0)
      | 3 => !neg && decide (r ≠ 0)
      | _ => decide (r ≥ half)
    (if up then k + 1 else k, decide (r ≠ 0))

/-- The encoding of k × 2^q, exactly representable and finite in F. -/
def FFmt.encode (F : FFmt) (k : Nat) (q : Int) : Nat :=
  if k = 0 then 0
  else
    let E := (Nat.log2 k : Int) + q
    if E < F.emin then k * 2 ^ (q - (F.emin - F.wf)).toNat / 2 ^ ((F.emin - F.wf) - q).toNat
    else
      let sh := (F.wf : Int) - Nat.log2 k
      let frac := (if 0 ≤ sh then k * 2 ^ sh.toNat else k / 2 ^ (-sh).toNat) - 2 ^ F.wf
      (E + F.bias).toNat * 2 ^ F.wf + frac

/-- Overflow goes to infinity in this mode (05 Table 05-4). -/
def toInfinity (rm : Nat) (neg : Bool) : Bool :=
  match rm with | 0 => true | 1 => false | 2 => neg | 3 => !neg | _ => true

/-- What an overflow becomes (05 R127, Table 05-4). -/
def FFmt.overflow (F : FFmt) (md : FMode) (neg : Bool) : Nat × Flags :=
  let code :=
    if md.sat ∨ F.sp = .none ∨ !toInfinity md.rm neg then F.signed neg F.maxCode
    else if F.sp = .e4m3 then F.nanCode
    else F.signed neg F.infCode
  (code, fOverflow ||| fInexact)

/-- k × 2^q as a dyadic compared with the largest finite value: greater. -/
def FFmt.tooBig (F : FFmt) (k : Nat) (q : Int) : Bool :=
  match F.decode F.maxCode with
  | .fin _ m e =>
    let lo := min q e
    decide (k * 2 ^ (q - lo).toNat > m * 2 ^ (e - lo).toNat)
  | _ => false

/-- Round a non-zero value once to F (05 R124, R127, R130). -/
def FFmt.round (F : FFmt) (md : FMode) (neg : Bool) (m : Nat) (e : Int) : Nat × Flags :=
  let E := (Nat.log2 m : Int) + e
  let (ku, _) := roundUnits md.rm neg m e (E - F.wf)
  let tiny : Bool := decide ((Nat.log2 ku : Int) + (E - F.wf) < F.emin)
  if md.ftz ∧ F.flushes ∧ E < F.emin then
    if tiny then (F.signed neg 0, fFlush ||| fUnderflow ||| fInexact)
    else (F.signed neg (2 ^ F.wf), fInexact)
  else
    let q := max (E - F.wf) (F.emin - F.wf)
    let (k, inexact) := roundUnits md.rm neg m e q
    if F.tooBig k q then F.overflow md neg
    else (F.signed neg (F.encode k q), (if inexact then fInexact else 0) ||| (if tiny ∧ inexact then fUnderflow else 0))

/-- What a NaN result is in F (05 R120, Table 05-5). -/
def FFmt.nanResult (F : FFmt) : Nat × Flags := if F.sp = .none then (0, fInvalid) else (F.nanCode, 0)

/-- What an infinity becomes in F (05 Table 05-5). -/
def FFmt.infResult (F : FFmt) (md : FMode) (neg : Bool) : Nat × Flags :=
  match F.sp with
  | .ieee => (F.signed neg F.infCode, 0)
  | .e4m3 => if md.sat then (F.signed neg F.maxCode, fOverflow ||| fInexact) else (F.nanCode, fInvalid)
  | .none => (F.signed neg F.maxCode, fInvalid)

/-- A value as a result in F, rounded once. -/
def FFmt.ofVal (F : FFmt) (md : FMode) : FVal → Nat × Flags
  | .nan => F.nanResult
  | .inf s => F.infResult md s
  | .fin s m e => if m = 0 then (F.signed s 0, 0) else F.round md s m e

def FVal.neg : FVal → FVal
  | .nan => .nan
  | .inf s => .inf (!s)
  | .fin s m e => .fin (!s) m e

/-- The exact product; infinity times zero is NaN and invalid (05 R123). -/
def FVal.mul : FVal → FVal → FVal × Flags
  | .nan, _ => (.nan, 0)
  | _, .nan => (.nan, 0)
  | .inf s, .inf t => (.inf (s != t), 0)
  | .inf s, .fin t m _ => if m = 0 then (.nan, fInvalid) else (.inf (s != t), 0)
  | .fin s m _, .inf t => if m = 0 then (.nan, fInvalid) else (.inf (s != t), 0)
  | .fin s m e, .fin t k f => (.fin (s != t) (m * k) (e + f), 0)

def FVal.isNan : FVal → Bool | .nan => true | _ => false
def FVal.isInf (neg : Bool) : FVal → Bool | .inf s => s == neg | _ => false
def FVal.sign : FVal → Bool | .nan => false | .inf s => s | .fin s _ _ => s
def FVal.isZero : FVal → Bool | .fin _ m _ => m == 0 | _ => false

/-- A finite value in units of 2^q, for q at or below its exponent. -/
def FVal.units (q : Int) : FVal → Int
  | .fin s m e => (if s then -1 else 1) * ((m * 2 ^ (e - q).toNat : Nat) : Int)
  | _ => 0

def FVal.exp : FVal → Option Int
  | .fin _ m e => if m = 0 then none else some e
  | _ => none

/-- The sign of an exact zero sum of terms (05 R124): the one sign that all zero terms have, else − only toward −∞. -/
def zeroSign (rm : Nat) (ts : List FVal) : Bool :=
  if ts.all (fun t => t.isZero && t.sign) && !ts.isEmpty then true
  else if ts.all (fun t => t.isZero && !t.sign) then false
  else rm == 2

/-- The exact sum of terms, with IEEE 754's outcome for specials (05 R124, R131). -/
def exactSum (rm : Nat) (ts : List FVal) : FVal × Flags :=
  if ts.any FVal.isNan then (.nan, 0)
  else if ts.any (FVal.isInf true) then if ts.any (FVal.isInf false) then (.nan, fInvalid) else (.inf true, 0)
  else if ts.any (FVal.isInf false) then (.inf false, 0)
  else
    let q := (ts.filterMap FVal.exp).foldl min 100000
    let z := (ts.map (FVal.units q)).sum
    if z = 0 then (.fin (zeroSign rm ts) 0 0, 0) else (.fin (decide (z < 0)) z.natAbs q, 0)

/-- Round an exact sum of terms once to F. -/
def FFmt.sum (F : FFmt) (md : FMode) (ts : List FVal) : Nat × Flags :=
  let (v, f) := exactSum md.rm ts
  let (n, g) := F.ofVal md v
  (n, f ||| g)

def FFmt.addOp (F : FFmt) (md : FMode) (x y : Nat) : Nat × Flags :=
  let (a, f) := F.read md x
  let (b, g) := F.read md y
  let (n, h) := F.sum md [a, b]
  (n, f ||| g ||| h)

def FFmt.subOp (F : FFmt) (md : FMode) (x y : Nat) : Nat × Flags :=
  let (a, f) := F.read md x
  let (b, g) := F.read md y
  let (n, h) := F.sum md [a, b.neg]
  (n, f ||| g ||| h)

def FFmt.mulOp (F : FFmt) (md : FMode) (x y : Nat) : Nat × Flags :=
  let (a, f) := F.read md x
  let (b, g) := F.read md y
  let (p, h) := a.mul b
  let (n, k) := F.ofVal md p
  (n, f ||| g ||| h ||| k)

/-- ±(a × b) ± c, rounded once (05 R103): `np` negates the product, `nc` the addend. -/
def FFmt.fmaOp (F : FFmt) (md : FMode) (np nc : Bool) (x y z : Nat) : Nat × Flags :=
  let (a, f) := F.read md x
  let (b, g) := F.read md y
  let (c, h) := F.read md z
  let (p, k) := a.mul b
  let (n, l) := F.sum md [if np then p.neg else p, if nc then c.neg else c]
  (n, f ||| g ||| h ||| k ||| l)

/-- An exact quotient, given to 2^−(wf+3) of its size with a sticky last bit, so that rounding it once is rounding the quotient. -/
def quotient (F : FFmt) (m k : Nat) (e f : Int) : Nat × Int :=
  let sh := (F.wf + 4) + Nat.log2 k + 1 - min (Nat.log2 m) (Nat.log2 k)
  let n := m * 2 ^ sh
  (2 * (n / k) + (if n % k = 0 then 0 else 1), e - f - (sh : Int) - 1)

def FFmt.divOp (F : FFmt) (md : FMode) (x y : Nat) : Nat × Flags :=
  let (a, f) := F.read md x
  let (b, g) := F.read md y
  let s := a.sign != b.sign
  let (v, h) : FVal × Flags :=
    match a, b with
    | .nan, _ => (.nan, 0)
    | _, .nan => (.nan, 0)
    | .inf _, .inf _ => (.nan, fInvalid)
    | .inf _, .fin _ _ _ => (.inf s, 0)
    | .fin _ _ _, .inf _ => (.fin s 0 0, 0)
    | .fin _ m e, .fin _ k e' =>
      if k = 0 then if m = 0 then (.nan, fInvalid) else (.inf s, fDivZero)
      else if m = 0 then (.fin s 0 0, 0)
      else
        let (q, d) := quotient F m k e e'
        (.fin s q d, 0)
  let (n, k) := F.ofVal md v
  (n, f ||| g ||| h ||| k)

/-- Integer square root. -/
def isqrtGo : Nat → Nat → Nat → Nat
  | 0, _, r => r
  | n + 1, m, r => let t := r + 2 ^ n; isqrtGo n m (if t * t ≤ m then t else r)
def isqrt (m : Nat) : Nat := isqrtGo (Nat.log2 m / 2 + 1) m 0

def FFmt.sqrtOp (F : FFmt) (md : FMode) (x : Nat) : Nat × Flags :=
  let (a, f) := F.read md x
  let (v, h) : FVal × Flags :=
    match a with
    | .nan => (.nan, 0)
    | .inf true => (.nan, fInvalid)
    | .inf false => (.inf false, 0)
    | .fin s m e =>
      if m = 0 then (.fin s 0 0, 0)
      else if s then (.nan, fInvalid)
      else
        let sh := 2 * (F.wf + 4) + (e % 2).toNat
        let n := m * 2 ^ sh
        let r := isqrt n
        (.fin false (2 * r + (if r * r = n then 0 else 1)) ((e - sh) / 2 - 1), 0)
  let (n, k) := F.ofVal md v
  (n, f ||| h ||| k)

/-- a < b, a = b of two values that are no NaN; −0 equals +0 here. -/
def FVal.lt : FVal → FVal → Bool
  | .nan, _ => false
  | _, .nan => false
  | .inf s, .inf t => s && !t
  | .inf s, .fin _ _ _ => s
  | .fin _ _ _, .inf t => !t
  | .fin s m e, .fin t k f =>
    let q := min e f
    decide (FVal.units q (.fin s m e) < FVal.units q (.fin t k f))
def FVal.eq (a b : FVal) : Bool := !a.isNan && !b.isNan && !a.lt b && !b.lt a

/-- minimum or maximum of IEEE 754-2019 (05 R129). -/
def FFmt.minmaxOp (F : FFmt) (md : FMode) (max : Bool) (x y : Nat) : Nat × Flags :=
  let (a, f) := F.read md x
  let (b, g) := F.read md y
  let v : FVal :=
    if a.isNan || b.isNan then .nan
    else if a.eq b then (if max then (if a.sign then b else a) else (if a.sign then a else b))
    else if a.lt b != max then a else b
  let (n, k) := F.ofVal md v
  (n, f ||| g ||| k)

/-- Sign operations: |b| and −b, with NaNs canonical (05 R120). -/
def FFmt.absOp (F : FFmt) (md : FMode) (x : Nat) : Nat × Flags :=
  let (a, f) := F.read md x
  let (n, k) := F.ofVal md (if a.sign then a.neg else a)
  (n, f ||| k)
def FFmt.negOp (F : FFmt) (md : FMode) (x : Nat) : Nat × Flags :=
  let (a, f) := F.read md x
  let (n, k) := F.ofVal md a.neg
  (n, f ||| k)

/-- The nearest member of a range of integers. -/
def clampInt (lo hi z : Int) : Int := max lo (min hi z)
def minInt (w : Nat) : Int := -((2 ^ (w - 1) : Nat) : Int)
def maxInt (w : Nat) : Int := ((2 ^ (w - 1) : Nat) : Int) - 1

/-- A value as a two's-complement integer of w bits (05 R127, R128). -/
def toIntOf (w : Nat) (rm : Nat) : FVal → Nat × Flags
  | .nan => (0, fInvalid)
  | .inf s => (unsignedOf w (if s then minInt w else maxInt w), fInvalid)
  | .fin s m e =>
    let (k, inexact) := roundUnits rm s m e 0
    let z : Int := if s then -(k : Int) else k
    let c := clampInt (minInt w) (maxInt w) z
    if c ≠ z then (unsignedOf w c, fInvalid) else (unsignedOf w z, if inexact then fInexact else 0)

def FVal.ofInt (z : Int) : FVal := .fin (decide (z < 0)) z.natAbs 0

/-- Conversion between two formats of 04 Table 04-3 (05 R128, Table 05-5). -/
def convert (md : FMode) (src dst : Nat) (n : Nat) : Nat × Flags :=
  match ffmtOf src, ffmtOf dst with
  | some F, some G =>
    let (v, f) := F.read md n
    let (r, g) := G.ofVal md v
    (r, f ||| g)
  | some F, none =>
    match intWidth dst with
    | some w => let (v, f) := F.read md n; let (r, g) := toIntOf w md.rm v; (r, f ||| g)
    | none => (0, 0)
  | none, some G =>
    match intWidth src with
    | some w => G.ofVal md (FVal.ofInt (signedOf w n))
    | none => (0, 0)
  | none, none =>
    match intWidth src, intWidth dst with
    | some w, some v =>
      let z := signedOf w n
      let c := clampInt (minInt v) (maxInt v) z
      (unsignedOf v c, if c ≠ z then fSat else 0)
    | _, _ => (0, 0)

/-- Fixed-point rounding of d dropped bits (05 R126). -/
def fixedRound (xrm d : Nat) (v : Int) : Int :=
  if d = 0 then v
  else
    let q := v / (2 ^ d : Nat)
    let r := (v % (2 ^ d : Nat)).toNat
    match xrm with
    | 0 => if r ≥ 2 ^ (d - 1) then q + 1 else q
    | 1 => if r > 2 ^ (d - 1) ∨ (r = 2 ^ (d - 1) ∧ q % 2 = 1) then q + 1 else q
    | 2 => q
    | _ => if r ≠ 0 ∧ q % 2 = 0 then q + 1 else q

/-- A long accumulator or exact slot (05 Tables 05-6, 05-7): the sum in its units, and the fields. -/
structure Exact where
  sum : Int
  ovf : Bool
  pinf : Bool
  ninf : Bool
  nan : Bool
deriving DecidableEq, Repr

def Exact.zero : Exact := { sum := 0, ovf := false, pinf := false, ninf := false, nan := false }

/-- Read a container whose sum field has `w` bits (96 or 480). -/
def Exact.ofNat (w n : Nat) : Exact :=
  { sum := signedOf w n, ovf := bitOf n w, pinf := bitOf n (w + 1), ninf := bitOf n (w + 2), nan := bitOf n (w + 3) }
def Exact.toNat (w : Nat) (x : Exact) : Nat :=
  unsignedOf w x.sum + 2 ^ w * (natOf x.ovf + 2 * natOf x.pinf + 4 * natOf x.ninf + 8 * natOf x.nan)

/-- The sum fits: the range of a long accumulator's field; below 2^330 in magnitude for an exact slot (05 Table 05-6, R138). -/
def sumFits (w : Nat) (z : Int) : Bool :=
  decide ((if w = 480 then minInt w < z else minInt w ≤ z) ∧ z ≤ maxInt w)

/-- Add an exact count of units; leaving the range sets ovf and reads zero from then on (05 Table 05-6, R138). -/
def Exact.addUnits (w : Nat) (x : Exact) (z : Int) : Exact :=
  if x.ovf then x
  else if sumFits w (x.sum + z) then { x with sum := x.sum + z } else { x with sum := 0, ovf := true }

/-- Add a value that is a multiple of 2^q, q the weight of bit 0. -/
def Exact.add (w : Nat) (q : Int) (x : Exact) : FVal → Exact
  | .nan => { x with nan := true }
  | .inf false => { x with pinf := true }
  | .inf true => { x with ninf := true }
  | .fin s m e => x.addUnits w (FVal.units q (.fin s m e))

/-- Combine two exact sums (11, "Exact-sum"). -/
def Exact.join (w : Nat) (x y : Exact) : Exact :=
  let z : Exact := { sum := x.sum, ovf := x.ovf || y.ovf, pinf := x.pinf || y.pinf, ninf := x.ninf || y.ninf, nan := x.nan || y.nan }
  if z.ovf then { z with sum := 0 } else z.addUnits w y.sum

/-- Convert on the way out (05 R135): the first rule that applies; the second part of the result is that ovf was set. -/
def Exact.out (F : FFmt) (md : FMode) (q : Int) (x : Exact) : (Nat × Flags) × Bool :=
  (if x.nan ∨ (x.pinf ∧ x.ninf) then let (n, f) := F.nanResult; (n, f ||| fInvalid)
   else if x.ovf then let (n, f) := F.nanResult; (n, f ||| fInvalid)
   else if x.pinf then F.infResult md false
   else if x.ninf then F.infResult md true
   else if x.sum = 0 then (0, 0)
   else F.round md (decide (x.sum < 0)) x.sum.natAbs q, x.ovf)

end Sys2Proof
end

