-- ==== Sys2Proof/Config.lean ====
section
/-! DEFINITION. The free values: what the spec leaves open or takes from a standard it only names.
Each is a constant without a body, so no proof can use a number for it. -/

namespace Sys2Proof.Config

/-- Beats that passed before a counter is read (01 R19, R20). Log 5. -/
opaque elapsedBeats : Nat → Nat

/-- Ring reference periods that passed before a counter is read (01 R20, R22). Log 5. -/
opaque elapsedTicks : Nat → Nat

/-- The way that pseudo-LRU replacement picks among `n` usable ways that all hold lines (08 R194). Log 6. -/
opaque victimWay : Nat → Nat → Nat

/-- The instruction-cache or TLB entry that replacement picks (02 instruction cache, 03 R71). Log 6. -/
opaque victimEntry : Nat → Nat → Nat

/-- The SHA-384 digest of bytes, as a number of 384 bits (13 R336, R348). Log 7. -/
opaque sha384 : List Byte → Nat

/-- The device root key K_dev that the PUF unwraps at every bring-up (13 R335). Log 7. -/
opaque deviceRoot : Nat

/-- A key drawn by the device's random generator (13 R336). Log 7. -/
opaque drbgKey : Nat → Nat

/-- A Splice traffic key agreed with a peer (13 R339). Log 7. -/
opaque agreedKey : Nat → Nat → Nat

/-- What an exchange with a host's public key gives under a fresh random number: 0 the device's ECDH key, 1 the ML-KEM ciphertext, 2 and 3 the
two secrets (12 R314). Log 7. -/
opaque exchange : Nat → Nat → Nat → Nat

/-- The HKDF output for a label from the keying material and the salt: a key and its direction salt (12 R314). Log 7. -/
opaque hkdf : List Nat → Nat → Nat → Nat

/-- A signature by an alias key of the device, 0 RSA or 1 SLH-DSA, over a digest (12 R314, 13 R338). Log 7. -/
opaque aliasSignature : Nat → Nat → Nat

/-- How many notices the export share lets out now (12 R320). Log 103. -/
opaque shareRoom : Nat → Nat

/-- A byte of the backstop handler of a firmware image (13 R327). Log 8. -/
opaque backstopByte : Nat → Nat → Byte

/-- What a sensor that no rule computes reads: margins, powers, temperatures (14 R358, 15 R377). Log 8. -/
opaque sensor : Nat → Nat → Nat

/-- Whether a tile fails its self-test (15 R376). Log 8. -/
opaque selfTestFails : Nat → Nat → Bool

/-- A byte that the destination of an aborted collective holds (11 R301). Log 9. -/
opaque abortedByte : Nat → Byte

/-- One less than the requests that the queue of a memory channel holds (01 R27, 09 R234). Log 101. -/
opaque channelQueue : Nat

/-- A byte of the metadata region of a checkpoint, from what the region holds and its place: 16 R400 gives no layout. Log 23. -/
opaque metadataByte : List Nat → Nat → Byte

/-- A result value that the spec leaves unstated, by number and operand. Log 10. -/
opaque openValue : Nat → Nat → Nat

end Sys2Proof.Config
end

