-- ==== Sys2Proof/Machine/StrandState.lean ====
section
/-! DEFINITION. The state of one strand (02, 03) and of what it has in flight. -/

namespace Sys2Proof.Machine

/-- A warrant, 128 bits (03 R61). -/
abbrev Warrant := BitVec 128

/-- 02 Table 02-1. -/
inductive RunState where
  | running | parked | halted | stopped
deriving DecidableEq, Repr

/-- Page policies, 08 Table 08-1. -/
inductive Policy where
  | writeBack | writeThrough | uncached
deriving DecidableEq, Repr

/-- Where a checked access goes: this device's memory, another device's, or control space. -/
inductive Target where
  | memory | remote | control
deriving DecidableEq, Repr

/-- Whose access a page walk serves (03 R71): a strand's, a tile operation's by its number, a prefetch stream's, or that of a strand's pfl of an
address (08 R208). -/
inductive WalkFor where
  | strand (h : StrandId)
  | op (id : Nat)
  | stream (k : Nat)
  | line (h : StrandId) (va : BitVec 64)
deriving DecidableEq, Repr

/-- The warrants an access may use, and the floor they are held against (03 R63, R67): what was visible at issue; and whose access it is. -/
structure Auth where
  who : WalkFor
  ws : List (Nat × Warrant)
  floor : BitVec 16
deriving DecidableEq, Repr

/-- An entry frame, 03 Table 03-7. -/
structure EntryFrame where
  savedw15 : Warrant
  retpc : BitVec 48
  savedvis : BitVec 15
  exc : Bool
deriving DecidableEq, Repr

/-- The branch whose delay slot is next (02 R38–R40): its address, where control goes after the slot, and the link write. -/
structure Slot where
  branch : Word
  next : Word
  link : Option (BitVec 5 × Word)
deriving DecidableEq, Repr

/-- A store-buffer entry: one store of 1 to 8 bytes with its translated address (02 R47). `seq` orders the
strand's loads and stores; `backstop` marks an offset in the tile's backstop region. -/
structure SbEntry where
  seq : Nat
  va : Word
  addr : Nat
  bytes : List Byte
  target : Target
  policy : Policy
  isSeal : Bool
  backstop : Bool
deriving DecidableEq, Repr

/-- How far one part of a pending load has come. -/
inductive PartState where
  | waiting
  | asked (tag : Nat)
  | got (bytes : List Byte)
  | failed (code check : Nat)
deriving DecidableEq, Repr

/-- One part (a whole load, a half of a split load, a sector of a frame) of a pending load. -/
structure LoadPart where
  va : Word
  addr : Nat
  len : Nat
  target : Target
  policy : Policy
  backstop : Bool
  state : PartState
deriving DecidableEq, Repr

/-- What a pending load does with its bytes: a general register (02 R48), an atomic's old value (02 R50),
a warrant register (03 wld), an exception frame (03 R84), a replay area (07 R192),
or the operand of a group, collective or transfer instruction with the warrant it names (11 R289, R291, R302). -/
inductive LoadKind where
  | reg (signed : Bool)
  | amo (code : Nat) (operand compare : Word)
  | warrant (wd : BitVec 4)
  | frame
  | replay
  | group (wreg : Nat) (w : Warrant)
  | collective (wreg : Nat) (w : Warrant)
  | transfer (wreg : Nat) (w : Warrant)
deriving DecidableEq, Repr

/-- A load or amo that awaits its data (02 R53, R59, R427). -/
structure PendingLoad where
  kind : LoadKind
  rd : BitVec 5
  len : Nat
  seq : Nat
  isSeal : Bool
  parts : List LoadPart
deriving DecidableEq, Repr

/-- What holds a strand beyond its own scoreboard. -/
inductive Hold where
  | vector (n : Nat)
  | load
  | quireFloor (v : BitVec 16)
deriving DecidableEq, Repr

/-- What a strand takes at a boundary before the next instruction (03 R79 action 2), in the order it became pending. -/
inductive Late where
  | trap | load
deriving DecidableEq, Repr

/-- What a cause register says (03 Table 03-9). -/
structure Cause where
  code : Nat
  check : Nat
  wreg : Nat
  flags : Nat
  ds : Bool
  async : Bool
  imp : Bool
  multi : Bool
deriving DecidableEq, Repr

/-- A pending imprecise arithmetic trap (03 R85). -/
structure Trap where
  flags : BitVec 5
  addr : Word
  multi : Bool
deriving DecidableEq, Repr

/-- 03 Table 03-8. -/
structure Status where
  hush : Bool
  precise : Bool
  loop : BitVec 2
  gdepth : BitVec 5
  bs : Bool
  aten : BitVec 5
deriving DecidableEq, Repr

/-- One strand. `lineBuf` is the line of its line buffer, and `lineNext` the line after it when the instruction at the pc reaches into
that; `fetchFail` is a line whose fetch failed, with the code and check. `recur` is an imprecise trap or a delayed load fault whose
entry escalated, with its address: it recurs after the backstop handler returns (03 R87). -/
structure Strand where
  run : RunState
  regs : Sparse Word
  board : BitVec 32
  pc : Word
  slot : Option Slot
  lstart : Word
  lend : Word
  lcount : Word
  lineBuf : Option Nat
  lineNext : Option Nat
  fetchWait : Option Nat
  fetchFail : Option (Nat × Nat × Nat)
  haltReq : Bool
  hold : Option Hold
  seq : Nat
  sb : List SbEntry
  loads : List PendingLoad
  late : List Late
  trap : Option Trap
  recur : Option (Cause × Word)
  line4 : Option Word
  wregs : Sparse Warrant
  vis : BitVec 15
  frames : List EntryFrame
  readback : Bool
  status : Status
  cause : Word
  faultaddr : Word
  xsp : Word
  xvec : Word
  wx : Warrant
  wxLo : Word
  gspill : Word
  evtPend : BitVec 32
  evtEn : BitVec 32
  cmp : Word
  bsCause : BitVec 11
  bsAddr : Word
  bsCount : BitVec 32
  tfault : Word
  tfaultIa : BitVec 48
  tfaultOp : Nat
  tfaultAddr : Word
  stepRec : Word
  stepPos : Word
  vlen : BitVec 16
  vfmt : BitVec 11
  vgrp : BitVec 2
  vresume : BitVec 16
  vflags : BitVec 7
deriving DecidableEq, Repr

/-- 03 Table 03-8, the reset column. -/
def Status.reset : Status :=
  { hush := true, precise := false, loop := 0, gdepth := 0, bs := false, aten := 0 }

/-- A strand after tile reset (02 R33, R60; 03 Tables 03-8, 03-9, 03-15; 04 Table 04-2; 07 Table 07-10).
What those tables do not give is named in log 4. -/
def Strand.reset : Strand where
  run := .halted
  regs := []
  board := 0
  pc := 0
  slot := none
  lstart := 0
  lend := 0
  lcount := 0
  lineBuf := none
  lineNext := none
  fetchWait := none
  fetchFail := none
  haltReq := false
  hold := none
  seq := 0
  sb := []
  loads := []
  late := []
  trap := none
  recur := none
  line4 := none
  wregs := []
  vis := BitVec.allOnes 15
  frames := []
  readback := false
  status := Status.reset
  cause := 0
  faultaddr := 0
  xsp := 0
  xvec := 0
  wx := 0
  wxLo := 0
  gspill := 0
  evtPend := 0
  evtEn := 0
  cmp := BitVec.allOnes 64
  bsCause := 0
  bsAddr := 0
  bsCount := 0
  tfault := 0
  tfaultIa := 0
  tfaultOp := 0
  tfaultAddr := 0
  stepRec := 0
  stepPos := 0
  vlen := 0
  vfmt := 0
  vgrp := 0
  vresume := 0
  vflags := 0

end Sys2Proof.Machine
end

