-- ==== Sys2Proof/Machine/TileState.lean ====
section
/-! DEFINITION. The state of one tile: vector unit (04), arrays and tile queue (06, 07), tile store (08),
translation (03), energy grants (14), and what the tile has sent and not yet seen answered. -/

namespace Sys2Proof.Machine

/-- The vector instructions that go to a pipe (04 Table 04-5). -/
inductive VKind where
  | add | sub | rsub | mul | min | max | minu | maxu | and | or | xor | sll | srl | sra | mulh | mulhu
  | fma | fms | fnma | div | sqrt | abs | neg
  | cmpeq | cmpne | cmplt | cmple | cmpltu | cmpleu | cmpun | cvt | merge | mv
  | wadd | waddu | wmul | wmulu | wfma | dot2 | dot4 | dot8
  | sadd | saddu | ssub | ssubu | smul | ssra | ssrl | nclip | nclipu | aadd | mxq | mxdq
  | ld | lds | ldx | st | sts | stx | ldm | stm | amox
  | mand | mor | mxor | mandn | mnot | mpopc | mfirst
  | compress | expand | slideup | slidedown | perm | mvxs | mvsx
  | redsum | redmin | redmax | redminu | redmaxu | redand | redor | redxor | wredsum
  | scansum | scanmin | scanmax
deriving DecidableEq, Repr

/-- A vector instruction in a pipe, with what it captured at issue (04 R93, R96). `next` is the element a
memory instruction stands at (a byte of a mask or of 4-bit elements counts as one), `wait` the request it waits for
and `bad` how that request failed. -/
structure VOp where
  id : Nat
  h : StrandId
  kind : VKind
  f : VF
  pc : Word
  vlen : Nat
  vfmt : BitVec 11
  lg : Nat
  resume : Nat
  scalar : Word
  stride : Word
  precise : Bool
  aten : BitVec 5
  auth : Auth
  next : Nat
  wait : Option Nat
  bad : Option (Nat × Nat)
deriving DecidableEq, Repr

/-- The queued tile operations (07 Table 07-6). -/
inductive MKind where
  | twld | tmma | tmmr | tham | tl1 | tminp | tmaxp
deriving DecidableEq, Repr

inductive QKind where
  | tld | tst | tacld | tacst | taczero
deriving DecidableEq, Repr

inductive TInstr where
  | mat (k : MKind) (f : MF)
  | mem (k : QKind) (f : QF)
deriving DecidableEq, Repr

/-- A tile-queue entry or an operation in flight, with what it captured (07 R178, R190). `staged` holds the bytes
of a tile load by position; `out` the elements it will leave in its accumulator slot, by 16 × row + column;
`row`, `pos` the next memory row and byte of it; `seq` orders it with its strand's stores; `bad` says how the request
it waits for failed. -/
structure TOp where
  id : Nat
  h : StrandId
  instr : TInstr
  ia : Word
  gs : Word
  gt : Word
  cfg : Word
  gen : Nat
  auth : Auth
  held : Bool
  tag : Option Nat
  described : Bool
  reissued : Bool
  granted : Bool
  begun : Bool
  row : Nat
  pos : Nat
  seq : Nat
  wait : Option Nat
  bad : Option (Nat × Nat)
  staged : Sparse Byte
  out : List (Nat × BitVec 128)
  flags : BitVec 9
deriving DecidableEq, Repr

/-- The weight tile that the arrays hold (06 R146), with its metadata and scales. -/
structure WTile where
  fmt : Nat
  sparse : Nat
  mx : Bool
  uns : Bool
  rows : List (BitVec 1024)
  aux : List Byte
deriving DecidableEq, Repr

/-- What the last issued weight load says that matrix operations issued after it must match (06 R142, R147). -/
structure WKind where
  fmt : Nat
  sparse : Nat
  mx : Bool
deriving DecidableEq, Repr

/-- A tile-store line (08 R194). `untouched` marks one that a prefetch brought and no demand access has met (08 R207); `weak` and
`torn` mark its 64-bit words with an error that the code can, or cannot, correct (08 R197). -/
structure Line where
  tag : Nat
  valid : BitVec 4
  dirty : BitVec 4
  untouched : Bool
  isSeal : Bool
  data : BitVec 2048
  weak : BitVec 32
  torn : BitVec 32
deriving DecidableEq, Repr

/-- Whose store it is: a strand's, or that of a tile operation of a strand, by its number. -/
inductive StoreBy where
  | strand (h : StrandId)
  | op (h : StrandId) (id : Nat)
deriving DecidableEq, Repr

/-- A merging-buffer entry (08 R199): one sector's bytes with a byte mask, and whose bytes they are. -/
structure MergeEntry where
  addr : Nat
  mask : BitVec 64
  data : BitVec 512
  isSeal : Bool
  owners : List StoreBy
deriving DecidableEq, Repr

/-- 08 Table 08-6, `state`. -/
inductive StreamState where
  | idle | running | finished | stopped
deriving DecidableEq, Repr

/-- A stream prefetcher (08 R207). -/
structure Stream where
  base : Word
  stride : BitVec 32
  count : Nat
  dist : Nat
  done : Nat
  strand : StrandId
  depth : BitVec 5
  state : StreamState
  ahead : List Nat
deriving DecidableEq, Repr

/-- A TLB entry: page number in pages of 64 KiB, size in such pages, and what the leaf gives (03 R71). -/
structure TlbEntry where
  page : Nat
  pages : Nat
  phys : Nat
  policy : Policy
  isSeal : Bool
  ro : Bool
  nx : Bool
deriving DecidableEq, Repr

/-- A page-table walk: the page wanted, the level to read next, the table's address, and the accesses that need it; and, when it has failed, how, with
the leaf it met if it met one (03 R71). -/
structure Walk where
  page : Nat
  level : Nat
  table : Nat
  who : List WalkFor
  wait : Option Nat
  failed : Option (Nat × Nat)
  leaf : Option TlbEntry
deriving DecidableEq, Repr

/-- Why a tile has a request outstanding. -/
inductive AskKind where
  | fill (stream : Option Nat) (demand : Bool)
  | read
  | fetch
  | walk
  | store
  | vstore
  | tstore (id : Nat)
  | writeback (h : Option StrandId)
  | merged (owners : List StoreBy)
deriving DecidableEq, Repr

/-- A request the tile has sent and whose answer it has not seen. -/
structure Ask where
  tag : Nat
  kind : AskKind
  h : StrandId
  va : Word
  addr : Nat
  remote : Bool
deriving DecidableEq, Repr

/-- A fault as a requester sees it: cause code and check (09 Table 09-3, 10 Table 10-7). -/
structure Fail where
  code : Nat
  check : Nat
deriving DecidableEq, Repr

/-- Which bytes of a memory operation's requests, and what an answer carries. -/
inductive Body where
  | fill (line : Nat) (sectors : List Nat)
  | read (addr len : Nat)
  | write (addr : Nat) (mask : BitVec 64) (bytes : List Byte)
  | atomic (addr : Nat) (code : Nat) (operand compare : Word)
  | data (sectors : List (Nat × List Byte))
  | done
  | fail (f : Fail)
  | credit (m : StackId)
deriving DecidableEq, Repr

/-- A packet of the mesh (01 R25, R26). -/
structure MPacket where
  cls : MeshClass
  src : MeshPort
  dst : MeshPort
  tag : Nat
  quire : Nat
  isSeal : Bool
  copy : Bool
  body : Body
deriving DecidableEq, Repr

/-- MD_STAT (15 Table 15-4). -/
structure Delay where
  step : Nat
  margin : Nat
  longer : Nat
  shorter : Nat
  limit : Bool
deriving DecidableEq, Repr

/-- What a tile is doing as a whole (16 R389–R391, R412). -/
inductive TileUse where
  | normal | draining | drained | unavailable
deriving DecidableEq, Repr

/-- One tile. `refused` are the regions of write-backs that were refused. `recent` lists, for
each set of the tile store, its ways by their last use, latest first (08 R194). An entry of `latch` is the first portion of an activation row, the
number of its portions, and the row (07 R173). `wgen` is ARRAY_WGEN.last and `wcur` ARRAY_WCUR (06 Table 06-12); `wissued` the generation of the last weight
load since reset or clear, and `wlast` what that load carried. -/
structure Tile where
  strands : Sparse Strand
  beats : Nat
  delay : Delay
  notice : Word
  bsBase : Word
  bsPhys : Word
  floor : BitVec 16
  quire : BitVec 4
  assigned : Bool
  ptRoot : Word
  bw : Sparse Warrant
  backstop : Sparse Byte
  icache : List Nat
  tlb : List TlbEntry
  walks : List Walk
  vregs : Sparse (BitVec 16384)
  mregs : Sparse (BitVec 32768)
  aq : List VOp
  mq : List VOp
  vnext : Nat
  opfile : Sparse (BitVec 1024)
  opcache : Sparse (List Nat)
  latch : Sparse (List (Nat × Nat × BitVec 4096))
  acc : Sparse (BitVec 128)
  shadow : Sparse (BitVec 128)
  cfg : Word
  flags : BitVec 9
  tq : List TOp
  opNext : Nat
  weights : Option WTile
  wcur : Nat
  wgen : Nat
  wissued : Nat
  wlast : Option WKind
  hold : Bool
  smooth : Bool
  arrOff : BitVec 4
  gap : Sparse Nat
  lines : Sparse (Option Line)
  recent : Sparse (List Nat)
  mbuf : List MergeEntry
  tsCtl : Word
  tsCorr : Nat
  tsUncorr : Nat
  tsFail : Bool
  tsAddr : Nat
  refused : List Nat
  streams : Sparse (Option Stream)
  asks : List Ask
  credits : Sparse Nat
  unsent : List MPacket
  inbox : List MPacket
  egBal : Nat
  egRefill : Nat
  egCap : Nat
  egStarved : Bool
  egWaits : Nat
  egSpent : Word
  egDummy : Nat
  grantQ : List Nat
  starvedNow : Bool
  waited : Bool
  use : TileUse
  resetLately : Nat
deriving DecidableEq, Repr

/-- TS_CTL after reset (08 Table 08-4): nlp 1, spf 1, mbage 64. -/
def tsCtlReset : Word := 0x4003

/-- A tile after module reset (08 R216, 07 R193, 03 Table 03-16, 01 Tables 01-7 to 01-9, 14 R356). -/
def Tile.reset : Tile where
  strands := []
  beats := 0
  delay := { step := 0, margin := 0, longer := 0, shorter := 0, limit := false }
  notice := 0
  bsBase := 0
  bsPhys := 0
  floor := 0
  quire := 0
  assigned := false
  ptRoot := 0
  bw := []
  backstop := []
  icache := []
  tlb := []
  walks := []
  vregs := []
  mregs := []
  aq := []
  mq := []
  vnext := 0
  opfile := []
  opcache := []
  latch := []
  acc := []
  shadow := []
  cfg := 0
  flags := 0
  tq := []
  opNext := 0
  weights := none
  wcur := 0
  wgen := 0
  wissued := 0
  wlast := none
  hold := true
  smooth := false
  arrOff := BitVec.allOnes 4
  gap := []
  lines := []
  recent := []
  mbuf := []
  tsCtl := tsCtlReset
  tsCorr := 0
  tsUncorr := 0
  tsFail := false
  tsAddr := 0
  refused := []
  streams := []
  asks := []
  credits := []
  unsent := []
  inbox := []
  egBal := 0
  egRefill := 0
  egCap := 0
  egStarved := false
  egWaits := 0
  egSpent := 0
  egDummy := 0
  grantQ := []
  starvedNow := false
  waited := false
  use := .normal
  resetLately := 0

end Sys2Proof.Machine
end

