-- ==== Sys2Proof/Machine/MemState.lean ====
section
/-! DEFINITION. The state of the memory system (09): stacks, channels, regulators, and what is identical
in all Tailbands (address function, restripe, region table, memory bytes). -/

namespace Sys2Proof.Machine

/-- 09 Table 09-6. -/
inductive ChanState where
  | live | retraining | source | mappedOut | dead | untrained
deriving DecidableEq, Repr

/-- 09 Table 09-5. -/
inductive Retrain where
  | running | quiescing | training | resuming
deriving DecidableEq, Repr

/-- A channel controller (09 Table 09-9, CH_STATE and CH_ERR). `corrAt`, `tempAt` are the corrected count
and the stack temperature at its last training (09 R236); `slot` counts its command opportunities (R226, R234). After a retrain the queue holds
first `older` requests that had come before it, then `held` that the hold queue kept (Table 09-5). -/
structure Chan where
  state : ChanState
  retrain : Retrain
  retrains : Nat
  fails : Nat
  corr : Nat
  uncorr : Nat
  odecc : Nat
  corrAt : Nat
  tempAt : Nat
  due : Bool
  slot : Nat
  queue : List MPacket
  older : Nat
  held : Nat
  phases : Sparse Nat
deriving DecidableEq, Repr

/-- A bandwidth regulator (09 R225). -/
structure Regulator where
  rate : Nat
  cap : Bool
  depth : Nat
  tokens : Nat
  units : Word
deriving DecidableEq, Repr

/-- A stack and its Tailband (09 Table 09-9). `held` is the hold queue, oldest first. -/
structure Stack where
  ingress : List MPacket
  held : List (Nat × MPacket)
  temp : Nat
  level : Nat
  stopms : Nat
  stopped : Bool
  thr : Nat
  stopbound : Nat
  period : Nat
  dtemp : Nat
  errthr : Nat
  regs : Sparse Regulator
  nshare : Nat
  close : Bool
  patrolPeriod : Nat
  patrolEn : Bool
  passes : Nat
  patrolAt : Nat
  errAddr : Nat
  errChan : Nat
deriving DecidableEq, Repr

/-- 09 Table 09-10, `state`. -/
inductive RegionState where
  | free | assigned | lost | scrubbing | rotating | condemned | held
deriving DecidableEq, Repr

/-- A region-table entry (09 Table 09-10). -/
structure Region where
  state : RegionState
  quire : Nat
  isSeal : Bool
  gen : Bool
deriving DecidableEq, Repr

/-- 09 Table 09-9, RESTRIPE.state. -/
inductive RestripeState where
  | idle | running | waiting | paused
deriving DecidableEq, Repr

/-- What all Tailbands share. `removed` are the channels taken from CHMAP, in the order taken (09 R219);
`bytes` the memory by local address; `errs` the units of 32 bytes, by number, in which an error has arisen that a read will find (R228–R230); `isOpen` tells that bring-up has opened the memory range (01 R29). -/
structure Mem where
  bytes : Sparse Byte
  errs : Sparse Ecc
  n : Nat
  ctop : Nat
  removed : List Nat
  restripe : RestripeState
  target : Nat
  oldidx : Nat
  share : Nat
  wm : Nat
  waiting : List Nat
  regions : Sparse Region
  dirty : Sparse Bool
  isOpen : Bool
deriving DecidableEq, Repr

def Chan.reset : Chan where
  state := .untrained
  retrain := .running
  retrains := 0
  fails := 0
  corr := 0
  uncorr := 0
  odecc := 0
  corrAt := 0
  tempAt := 0
  due := false
  slot := 0
  queue := []
  older := 0
  held := 0
  phases := []

def Regulator.reset : Regulator where
  rate := 0
  cap := false
  depth := 64
  tokens := 0
  units := 0

def Stack.reset : Stack where
  ingress := []
  held := []
  temp := 0
  level := 8
  stopms := 0
  stopped := false
  thr := 95
  stopbound := 5
  period := 100
  dtemp := 10
  errthr := 64
  regs := []
  nshare := 4
  close := true
  patrolPeriod := 24
  patrolEn := true
  passes := 0
  patrolAt := 0
  errAddr := 0
  errChan := 0

def Region.reset : Region := { state := .free, quire := 0, isSeal := false, gen := false }

def Mem.reset : Mem where
  bytes := []
  errs := []
  n := 640
  ctop := 1248
  removed := []
  restripe := .idle
  target := 0
  oldidx := 0
  share := 32
  wm := 0
  waiting := []
  regions := []
  dirty := []
  isOpen := false

/-- What the Spine raises alarms about; its number among the 256 kinds of 16 R408 is its place here (log 11). -/
inductive AlarmKind where
  | tagForged | portFailed | portAbandoned | regionLost | stopBound | channelDead | retrainFailed | restripeWait
  | feedSwitch | feedLost | islandCeiling | islandStop | riskUrgent | strandStopped | tileReset | tileUnavailable
  | spineFailover | selfTestFailed | thermtrip | delayLimit | deviceLost | groupHeld | groupMismatch | checkpointAbandoned
  | firmwareRefused | recordRefused | logLost | ethPortFailed | collectiveAborted | discardUnanswered | slotZeroUsed | shelfSilent | namedLost
deriving DecidableEq, Repr

/-- An alarm record (16 R408): a saturating count and the sequence numbers of the first and last occurrence. -/
structure Alarm where
  count : Nat
  first : Nat
  last : Nat
deriving DecidableEq, Repr

/-- A log record (16 R409): its sequence number, what it is about and a number that goes with it. -/
structure LogRec where
  seq : Nat
  kind : AlarmKind
  arg : Nat
deriving DecidableEq, Repr

/-- An entry of a quire's rights table (10 Table 10-11, RIGHTS). -/
structure Right where
  first : Nat
  count : Nat
  peer : Nat
  valid : Bool
deriving DecidableEq, Repr

def Right.reset : Right := { first := 0, count := 0, peer := 0, valid := false }

/-- A voltage island (01 Tables 01-7 to 01-9; 14 R357–R362). Millivolts, MHz, femtoseconds; `ticks` counts its ring reference periods, `tj` is its
hottest junction as last read. -/
structure Island where
  ticks : Nat
  mv : Nat
  rate : Nat
  planseq : Nat
  period : Nat
  calseq : Nat
  calvalid : Bool
  ceiling : Nat
  heat : Nat
  stack : Nat
  cool : Nat
  coolStack : Nat
  stopped : Bool
  hot : Bool
  tj : Nat
  limitRise : Bool
deriving DecidableEq, Repr

def Island.reset : Island where
  ticks := 0
  mv := 0
  rate := 0
  planseq := 0
  period := 10000000
  calseq := 0
  calvalid := false
  ceiling := 900
  heat := 900
  stack := 900
  cool := 0
  coolStack := 0
  stopped := false
  hot := false
  tj := 40
  limitRise := false

end Sys2Proof.Machine
end

