-- ==== Sys2Proof/Machine/SpliceState.lean ====
section
/-! DEFINITION. The state of the Splice links (10) and of groups, collectives and transfers (11). -/

namespace Sys2Proof.Machine

/-- 10 Table 10-9. -/
inductive PortState where
  | off | training | up | half | draining | failed
deriving DecidableEq, Repr

/-- The step that a port in training has reached (10 R282). -/
inductive TrainStep where
  | adaptation | alignment | keys
deriving DecidableEq, Repr

/-- A packet queued for an output port with its buffer class and the port it came on, if it came on one (10 R272). -/
structure OutPacket where
  pkt : SPacket
  cls : Bool
  inp : Option Nat
deriving DecidableEq, Repr

/-- A frame in a replay buffer (10 R260): its sequence number, blocks, and how often it was resent. -/
structure Sent where
  fseq : BitVec 16
  blocks : List Block
  resent : Nat
deriving DecidableEq, Repr

/-- The frame a port last put on its lanes (10 Table 10-2). -/
structure FrameOut where
  fseq : BitVec 16
  aseq : BitVec 16
  nak : Bool
  idle : Bool
  close : Bool
  keyid : Bool
  counter : Nat
  credit : List Nat
  blocks : List Block
deriving DecidableEq, Repr

/-- A traffic key of one direction of a port: AES-256 key and 32-bit salt (10 R262, 13 R339). -/
structure LinkKey where
  key : BitVec 256
  salt : BitVec 32
deriving DecidableEq, Repr

/-- A Splice port (10 Table 10-11 and R256–R285). `sentBlocks`, `freedByPeer`, `freed` are the counts of R264 for
the eight pools, and `granted` tells that the peer has shown its counts; `resend` the frame to resend from; `part` how many blocks of the packet in hand of each lane have
gone; `inq` the packets received for this device, oldest first. -/
structure Port where
  en : Bool
  halfok : Bool
  rto : Nat
  drainto : Nat
  dim : Nat
  minus : Bool
  member : Bool
  state : PortState
  highHalf : Bool
  why : Nat
  peer : Nat
  pport : Nat
  incarnation : Nat
  fec : Nat
  uncorr : Nat
  retry : Nat
  crcfail : Nat
  tagfail : Nat
  retrains : Nat
  abandon : Nat
  step : TrainStep
  lowOk : Bool
  highOk : Bool
  live : Bool
  outq : List OutPacket
  part : Sparse Nat
  rr : Nat
  txSeq : BitVec 16
  rxSeq : BitVec 16
  replay : List Sent
  resend : Option (BitVec 16)
  nakAt : Option (BitVec 16)
  naking : Bool
  closing : Bool
  closeSent : Bool
  peerClose : Bool
  keyid : Bool
  peerKeyid : Bool
  secret : Nat
  txIndex : Nat
  rxIndex : Nat
  txKey : LinkKey
  rxKey : LinkKey
  counter : Nat
  sentBlocks : Sparse Nat
  freedByPeer : Sparse Nat
  freed : Sparse Nat
  granted : Bool
  inq : List OutPacket
  tx : Option FrameOut
deriving DecidableEq, Repr

def Port.reset : Port where
  en := false
  halfok := true
  rto := 2000
  drainto := 100
  dim := 0
  minus := false
  member := false
  state := .off
  highHalf := false
  why := 0
  peer := 0
  pport := 0
  incarnation := 0
  fec := 0
  uncorr := 0
  retry := 0
  crcfail := 0
  tagfail := 0
  retrains := 0
  abandon := 0
  step := .adaptation
  lowOk := false
  highOk := false
  live := false
  outq := []
  part := []
  rr := 0
  txSeq := 0
  rxSeq := 0
  replay := []
  resend := none
  nakAt := none
  naking := false
  closing := false
  closeSent := false
  peerClose := false
  keyid := false
  peerKeyid := false
  secret := 0
  txIndex := 0
  rxIndex := 0
  txKey := { key := 0, salt := 0 }
  rxKey := { key := 0, salt := 0 }
  counter := 0
  sentBlocks := []
  freedByPeer := []
  freed := []
  granted := false
  inq := []
  tx := none

/-- An override entry (10 Table 10-11, OVR). -/
structure Ovr where
  first : Nat
  count : Nat
  port : Nat
  valid : Bool
deriving DecidableEq, Repr

def Ovr.reset : Ovr := { first := 0, count := 0, port := 0, valid := false }

/-- A dimension of the geometry (10 Table 10-11, SPL_DIM). -/
structure Dim where
  size : Nat
  ring : Bool
deriving DecidableEq, Repr

def Dim.reset : Dim := { size := 1, ring := false }

/-- The device-wide Splice registers. `ready` is SPL_IDENT.ready (10 R266). -/
structure Splice where
  ports : Sparse Port
  ready : Bool
  hoplimit : Nat
  ecrcErr : Nat
  badErr : Nat
  noroute : Nat
  hoplimErr : Nat
  dims : Sparse Dim
  ovr : Sparse Ovr
deriving DecidableEq, Repr

def Splice.reset : Splice where
  ports := []
  ready := false
  hoplimit := 256
  ecrcErr := 0
  badErr := 0
  noroute := 0
  hoplimErr := 0
  dims := []
  ovr := []

/-- A group entry (11 Table 11-1). -/
structure Group where
  quire : Nat
  bound : Nat
  nextseq : Nat
  tiles : BitVec 192
  lo : List Nat
  n : List Nat
deriving DecidableEq, Repr

/-- One strand that joined a collective, with the addresses of its descriptor and the authority it issued under (11 Table 11-3). -/
structure Issuer where
  t : TileId
  h : StrandId
  auth : Auth
  src : Nat
  dst : Nat
  caddr : Nat
  table : Nat
  recvmax : Nat
  nt : Bool
deriving DecidableEq, Repr

/-- What all issuers of a collective must agree on (11 Table 11-3, Table 11-7 status 0x05). -/
structure CollOp where
  op : Nat
  fmt : Nat
  comb : Nat
  rm : Nat
  sat : Bool
  ftz : Bool
  lead : Bool
  root : Nat
  count : Nat
deriving DecidableEq, Repr

/-- This device's node of the tree for one chunk (11 R294): how many ranks its value covers, and the elements in transit form. -/
structure Partial where
  chunk : Nat
  span : Nat
  vals : List Nat
deriving DecidableEq, Repr

/-- What a collective packet brought (11 Table 11-10): its type, the rank of its source, its chunk and its payload. -/
structure Arrival where
  type : Nat
  rank : Nat
  chunk : Nat
  bytes : List Byte
deriving DecidableEq, Repr

/-- A collective in flight on this device (11 R291–R301). `own` are the chunks that this device still holds on their way up;
`placed` the pieces of the result written (rank, chunk); `started` tells that the device has made its contribution, `blocked` that the
blocks of an all-to-all have gone; `ending` is the status and the rank that raised it. -/
structure Coll where
  group : Nat
  seq : Nat
  quire : Nat
  desc : Option CollOp
  issuers : List Issuer
  arrived : List Arrival
  own : List Partial
  placed : List (Nat × Nat)
  started : Bool
  blocked : Bool
  ending : Option (Nat × Nat)
deriving DecidableEq, Repr

/-- A completion record that is on its way to another device (11 R293, R302): the transaction of its write, and the strand whose line 3 becomes
pending once it has been performed. -/
structure Record where
  txn : Nat
  t : TileId
  h : StrandId
  nt : Bool
deriving DecidableEq, Repr

/-- A transfer in flight (11 R302). -/
structure Transfer where
  id : Nat
  t : TileId
  h : StrandId
  quire : Nat
  auth : Auth
  fd : Nat
  fdc : Nat
  src : Nat
  dst : Nat
  len : Nat
  done : Nat
  caddr : Nat
  tag : Nat
  nt : Bool
  asked : List Nat
  ending : Option Nat
deriving DecidableEq, Repr

end Sys2Proof.Machine
end

