-- ==== Sys2Proof/Machine/QuireState.lean ====
section
/-! DEFINITION. The state of quires (13), of checkpoints, restores and losses (16), and of what waits for them. -/

namespace Sys2Proof.Machine

/-- 13 Table 13-1. -/
inductive QuireUse where
  | free | assigning | running | draining | drained | scrubbing
deriving DecidableEq, Repr

/-- An entry of a measurement log (13 Table 13-9), with the whole digest (R348). -/
structure MeasEntry where
  kind : Nat
  addr : Nat
  len : Nat
  digest : Nat
deriving DecidableEq, Repr

/-- A key rotation in progress (13 R342): the slot that is being filled and the regions still to rewrite. -/
structure Sweep where
  slot : Bool
  todo : List Nat
deriving DecidableEq, Repr

/-- What a partner has received of a checkpoint (16 R398): the fresh regions and the bytes performed. -/
structure Incoming where
  number : Nat
  fresh : List Nat
  got : Nat
deriving DecidableEq, Repr

/-- A quire (13 R326). `keys` are the contents of its two slots in every Tailband, 0 an empty one (R341); `copyOf` marks a copy
quire by the device and quire whose copies it holds (16 R395), and `copyNum` is the number of this quire's own copy quire at its
partner; `energy` counts rpJ of the window in progress and `windows` the last
64, newest first, by their sequence number (R346); `detail` is what a drain could
not finish (16 R413); `discarding` waits for a partner's discarded (R330); `awaiting` marks a restored quire that waits for the release
of its groups (16 R405). -/
structure Quire where
  use : QuireUse
  copyOf : Option (Nat × Nat)
  tiles : BitVec 192
  header : Nat
  rate : Nat
  cap : Bool
  share : Nat
  groups : Option (Nat × Nat)
  rsaKey : Nat
  slhKey : Nat
  keys : Sparse Nat
  sweep : Option Sweep
  fillKey : Nat
  filled : Nat
  log : List MeasEntry
  number : Nat
  position : Nat
  copied : Bool
  copyNum : Option Nat
  incoming : Option Incoming
  windows : List (Nat × Nat)
  energy : Nat
  timedOut : Bool
  detail : Nat
  releasing : Bool
  discarding : Bool
  late : Bool
  awaiting : Bool
deriving DecidableEq, Repr

def Quire.reset : Quire where
  use := .free
  copyOf := none
  tiles := 0
  header := 0
  rate := 0
  cap := false
  share := 0
  groups := none
  rsaKey := 0
  slhKey := 0
  keys := []
  sweep := none
  fillKey := 0
  filled := 0
  log := []
  number := 0
  position := 0
  copied := false
  copyNum := none
  incoming := none
  windows := []
  energy := 0
  timedOut := false
  detail := 0
  releasing := false
  discarding := false
  late := false
  awaiting := false

/-- How far a freeze has come (16 R398). -/
inductive FreezeStep where
  | halting | cleaning | waiting | streaming
deriving DecidableEq, Repr

/-- The one freeze of the device (16 R397, R398). `halted` are the strands that the freeze halted, `regions` those streamed, `lost` the
quire's lost regions when it began. -/
structure Freeze where
  quire : Nat
  bound : Nat
  step : FreezeStep
  halted : List At
  regions : List Nat
  lost : List Nat
  restore : Bool
deriving DecidableEq, Repr

/-- A restore in progress (16 R404): the partner, the number there of the copy quire asked for, whether the first of the copies that have still to
arrive has been asked for, and those copies. -/
structure Restoring where
  device : Nat
  copyNum : Nat
  asked : Bool
  copies : List CopyImage
deriving DecidableEq, Repr

/-- A group that is held (16 R402, R405): the lost members, the answers gathered by the coordinator, whether its alarm was raised, and
the rejoins with their next sequence number and signature. -/
structure GroupHold where
  lost : List Nat
  held : List Nat
  told : Bool
  rejoined : List (Nat × Nat × Nat)
deriving DecidableEq, Repr

/-- A tile that is being reset under 16 R390: its quire, and how far it is. -/
inductive ResetStep where
  | draining | cleaning
deriving DecidableEq, Repr

structure TileJob where
  tile : Nat
  quire : Nat
  step : ResetStep
deriving DecidableEq, Repr

/-- What survives failures device-wide (16): the partner and its tags, lost devices by incarnation, messages already
flooded, probes under way, group holds, a freeze and a restore. -/
structure Survive where
  partner : Option Nat
  partnerTags : FeedTags
  lostDevs : List (Nat × Nat)
  floods : List (Nat × Nat)
  probes : List (Nat × Nat)
  holds : Sparse (Option GroupHold)
  freeze : Option Freeze
  restoring : Option Restoring
  jobs : List TileJob
  posted0 : Bool
  posted1 : Bool
deriving DecidableEq, Repr

def Survive.reset : Survive where
  partner := none
  partnerTags := { main := 0, backup := 0 }
  lostDevs := []
  floods := []
  probes := []
  holds := []
  freeze := none
  restoring := none
  jobs := []
  posted0 := false
  posted1 := false

end Sys2Proof.Machine
end

