-- ==== Sys2Proof/Machine/NetState.lean ====
section
/-! DEFINITION. The state of the host networks (12): ports, sessions, requests that have not completed, bulk transfers,
subscriptions, and what the block has sent. -/

namespace Sys2Proof.Machine

/-- 12 Table 12-17, `state`. -/
inductive EthState where
  | off | training | up | draining | failed
deriving DecidableEq, Repr

/-- An Ethernet port (12 Table 12-17) with its MAC address (15 R373). -/
structure Eth where
  en : Bool
  cmdpcp : Nat
  bulkpcp : Nat
  vlan : Nat
  state : EthState
  pfc : Bool
  fcs : Nat
  tagfail : Nat
  drop : Nat
  undeliv : Nat
  mac : Nat
deriving DecidableEq, Repr

def Eth.reset : Eth where
  en := false
  cmdpcp := 6
  bulkpcp := 3
  vlan := 0
  state := .off
  pfc := false
  fcs := 0
  tagfail := 0
  drop := 0
  undeliv := 0
  mac := 0

/-- The network record of a port in flash (12 R305): addresses with their lengths, VLAN, priorities, UDP ports. -/
structure NetRecord where
  ipv6 : Option (Nat × Nat)
  ipv4 : Option (Nat × Nat)
  vlan : Nat
  cmdpcp : Nat
  bulkpcp : Nat
  cmdUdp : Nat
  bulkUdp : Nat
deriving DecidableEq, Repr

def NetRecord.reset : NetRecord :=
  { ipv6 := none, ipv4 := none, vlan := 0, cmdpcp := 6, bulkpcp := 3, cmdUdp := 27510, bulkUdp := 27511 }

/-- A TLV of a reply (12 R309): its type and its values. -/
structure Tlv where
  type : Nat
  vals : List Nat
deriving DecidableEq, Repr

/-- A reply (12 Table 12-2), to the address `dest` and in packets whose payload is at most `most` (R306, R310). -/
structure Reply where
  session : Nat
  seq : Nat
  opcode : Nat
  phase : Nat
  status : Nat
  tlvs : List Tlv
  clear : Bool
  port : Nat
  dest : Nat
  most : Nat
deriving DecidableEq, Repr

/-- What a session may do (12 R315). -/
inductive Role where
  | noRole | owner | quire (q : Nat)
deriving DecidableEq, Repr

/-- A session (12 R311–R315): the highest sequence number accepted and the numbers accepted near it, stored replies, where its last
request came from, and the last source on each network (R306). `graced` marks that the previous epoch is still accepted, under the keys
`old`; `keys` are the four of R314, each with its salt: requests, replies and notices, bulk to the device, bulk from it. -/
structure Session where
  role : Role
  epoch : Nat
  graced : Bool
  high : Nat
  seen : List Nat
  stored : List Reply
  port : Nat
  source : Nat
  sourceA : Option Nat
  sourceB : Option Nat
  maxPayload : Nat
  transcript : Nat
  secrets : List Nat
  keys : List Nat
  old : List Nat
deriving DecidableEq, Repr

/-- What an accepted request still waits for before its phase 1 reply (12 R313). -/
inductive Wait where
  | halted (who : List At)
  | reset (tiles : List Nat)
  | drain (q : Nat)
  | release (q : Nat)
  | rotate (q : Nat)
  | checkpoint (q : Nat)
  | restore
  | splice (ports : List Nat) (enable : Bool) (abandoned : List Nat)
  | eth (ports : List Nat) (enable : Bool)
  | bulk (xid : Nat)
  | mapout (c : Nat)
deriving DecidableEq, Repr

/-- A request accepted and not completed (12 R312). -/
structure Request where
  session : Nat
  seq : Nat
  opcode : Nat
  port : Nat
  source : Nat
  wait : Wait
deriving DecidableEq, Repr

/-- A message whose parts have not all come (12 R310): the parts held, each with its length, and the number of the last, once that has come. -/
structure HeldMessage where
  session : Nat
  seq : Nat
  opcode : Nat
  source : Nat
  got : List (Nat × Nat)
  last : Option Nat
deriving DecidableEq, Repr

/-- A notice that waits for the export share: its class (0 alarm, 1 log, 2 trace), the quire whose owner hears it beside the device owner,
what it is about (an alarm kind, a record's number), and its TLVs (12 R320, 16 R408–R410). -/
structure Notice where
  cls : Nat
  quire : Option Nat
  about : Nat
  tlvs : List Tlv
deriving DecidableEq, Repr

/-- What a bulk transfer reads or writes. -/
inductive BulkUse where
  | memory
  | load (kind : Nat) (digest : Option Nat)
  | groups (q : Option Nat)
  | firmware (image : FwImage)
deriving DecidableEq, Repr

/-- A bulk transfer (12 R322, R323). `got` are the chunks received or, from the device, acknowledged; `sent` the last attempt at each
chunk sent; `missed` how many acknowledgements lacked it since; `unacked` the chunks received since the last acknowledgement;
`data` the bytes of an image that does not go to memory. -/
structure Bulk where
  xid : Nat
  session : Nat
  quire : Nat
  use : BulkUse
  fromDevice : Bool
  addr : Nat
  len : Nat
  chunk : Nat
  window : Nat
  mask : BitVec 8
  hostA : Option Nat
  hostB : Option Nat
  got : List Nat
  sent : Sparse Nat
  missed : Sparse Nat
  unacked : Nat
  serial : Nat
  data : Sparse Byte
deriving DecidableEq, Repr

/-- A subscription (12 Table 12-14). -/
structure Sub where
  id : Nat
  session : Nat
  classes : BitVec 8
  dest : Nat
deriving DecidableEq, Repr

/-- What the block has put on an Ethernet port: replies, notices (opcode 0x0900; their class 0 alarm, 1 log, 2 trace), bulk packets, PFC frames,
and answers that no session carries. -/
inductive NetOut where
  | reply (r : Reply)
  | notice (session sub cls seq port dest : Nat) (tlvs : List Tlv)
  | data (xid chunk attempt port dest : Nat) (bytes : List Byte)
  | ack (xid serial word : Nat) (bitmap : BitVec 256) (port : Nat)
  | pfc (port : Nat) (pause : Bool)
  | done (xid : Nat)
  | abort (xid status detail : Nat)
  | echo (port source : Nat) (bytes : List Byte)
  | arp (port source target mac : Nat)
  | neighbour (port source target mac : Nat)
deriving DecidableEq, Repr

/-- The host networks. `waiting` are notices that the export share has not let out, `chunks` the bulk data received whose memory is held
(12 R322, 09 R234). -/
structure Net where
  eth : Sparse Eth
  sessions : Sparse (Option Session)
  nextSession : Nat
  requests : List Request
  bulks : List Bulk
  nextXid : Nat
  subs : List Sub
  nextSub : Nat
  noticeSeq : Nat
  held : List HeldMessage
  waiting : List Notice
  chunks : List BulkData
  share : Nat
  sent : List NetOut
deriving DecidableEq, Repr

def Net.reset : Net where
  eth := []
  sessions := []
  nextSession := 1
  requests := []
  bulks := []
  nextXid := 1
  subs := []
  nextSub := 1
  noticeSeq := 0
  held := []
  waiting := []
  chunks := []
  share := 16
  sent := []

end Sys2Proof.Machine
end

