-- ==== Sys2Proof/Machine/PowerState.lean ====
section
/-! DEFINITION. The state of energy and supply (14), bring-up, firmware and flash (13, 15), the two Spines (16) and
the pins (17). -/

namespace Sys2Proof.Machine

/-- 14 Table 14-5, with `off` for a module that no feed powers. -/
inductive FeedState where
  | main | switching | backup | single | lost | off
deriving DecidableEq, Repr

/-- What the module knows of one feed (14 R363, 17 R417): goodness, its tag as last read, polls missed in a row, and the last reading. -/
structure FeedInfo where
  good : Bool
  missed : Nat
  vin : Nat
  iout : Nat
deriving DecidableEq, Repr

def FeedInfo.reset : FeedInfo := { good := false, missed := 0, vin := 0, iout := 0 }

/-- Feeds and the plan. `inUse` is the feed drawn from, in switching the one switched to; powers in mW, the excursion credit in µJ; `excess` counts
the plan periods in a row with P_in above S, `ticks` all plan periods; `lendStopped` tells that lending has stopped until the
credit is full. -/
structure Power where
  state : FeedState
  inUse : Feed
  info : Sparse FeedInfo
  tags : FeedTags
  sustained : Nat
  excursion : Nat
  length : Nat
  credit : Nat
  lendStopped : Bool
  excess : Nat
  ticks : Nat
  window : Nat
  planseq : Nat
  pIn : Nat
  pSh : Nat
deriving DecidableEq, Repr

def Power.reset : Power where
  state := .off
  inUse := .main
  info := []
  tags := { main := 0x3F, backup := 0x3F }
  sustained := 3200000
  excursion := 3800000
  length := 20
  credit := 12000000
  lendStopped := false
  excess := 0
  ticks := 0
  window := 0
  planseq := 0
  pIn := 0
  pSh := 0

/-- The device keys of 13 Table 13-3 that the Spines hold until module reset; 0 stands for a key not yet made. -/
structure DeviceKeys where
  root : Nat
  aliasKey : Nat
  link : Nat
  log : Nat
deriving DecidableEq, Repr

def DeviceKeys.reset : DeviceKeys := { root := 0, aliasKey := 0, link := 0, log := 0 }

/-- Bring-up (15 Table 15-1): the stage reached, the reason it stopped with (0: it has not), whether MRST_N is low, and what the
stages have found. `alone` remembers that one Spine failed stages 0 to 2 until the alarm can be raised (15 R371). -/
structure Boot where
  stage : Nat
  reason : Nat
  low : Bool
  tripped : Bool
  alone : Bool
  slot : Bool
  record : Option ManufRecord
  keys : DeviceKeys
deriving DecidableEq, Repr

def Boot.reset : Boot :=
  { stage := 0, reason := 0, low := false, tripped := false, alone := false, slot := false, record := none
    keys := DeviceKeys.reset }

/-- The two Spines (16 R406): in service or not, and which is primary (false: the one on XD0). -/
structure Spine where
  up0 : Bool
  up1 : Bool
  primary : Bool
deriving DecidableEq, Repr

def Spine.reset : Spine := { up0 := true, up1 := true, primary := false }

/-- A firmware slot: security version and the digests of its four components (13 Table 13-8). -/
structure FwSlot where
  valid : Bool
  svn : Nat
  digests : List Nat
deriving DecidableEq, Repr

def FwSlot.reset : FwSlot := { valid := true, svn := 0, digests := [0, 0, 0, 0] }

/-- The configuration that GEOMETRY and PORTCFG leave in flash for one port (15 R375). -/
structure PortRecord where
  dim : Nat
  minus : Bool
  member : Bool
  halfok : Bool
  rto : Nat
  drainto : Nat
deriving DecidableEq, Repr

def PortRecord.reset : PortRecord :=
  { dim := 0, minus := false, member := false, halfok := true, rto := 2000, drainto := 100 }

/-- The flash (12 R305, 13 R340, 15 R370–R375, 16 R401, 17 R423): it survives module reset. `owners` is the chain of
owner records, oldest first; `pointer` names the slot to run; `staged` is what FWSTAGE left and `verified` that FWVERIFY has
passed since; `groups` a group-table image staged by a recovery. -/
structure Flash where
  net : Sparse NetRecord
  device : Nat
  hoplimit : Nat
  dims : Sparse Dim
  ports : Sparse PortRecord
  ovr : Sparse Ovr
  channels : List Nat
  owners : List OwnerRecord
  slot0 : FwSlot
  slot1 : FwSlot
  pointer : Bool
  staged : Option FwImage
  verified : Bool
  groups : List (Nat × Group)
deriving DecidableEq, Repr

/-- The owner record that a module is delivered with (13 R340); its keys are named 0 (log 4). -/
def deliveredOwner : OwnerRecord :=
  { seqno := 0, device := 0, bootsvn := 0, peersvn := 0, rsaKey := 0, slhKey := 0, sigsOk := true }

def Flash.reset : Flash where
  net := []
  device := 0
  hoplimit := 256
  dims := []
  ports := []
  ovr := []
  channels := []
  owners := [deliveredOwner]
  slot0 := FwSlot.reset
  slot1 := FwSlot.reset
  pointer := false
  staged := none
  verified := false
  groups := []

/-- The pins of JC that carry state (17 Table 17-3): the address straps, THERMTRIP_N, and the last answer on SMBus (none: a NACK). -/
structure Pins where
  addr : BitVec 2
  thermtrip : Bool
  smbus : Option (List Byte)
deriving DecidableEq, Repr

def Pins.reset : Pins := { addr := 0, thermtrip := false, smbus := none }

end Sys2Proof.Machine
end

