-- ==== Sys2Proof/Machine/Table.lean ====
section
/-! DEFINITION. Reading and writing a sparse table, keeping its canonical form. -/

namespace Sys2Proof

variable {α : Type}

/-- The value listed for `k`, or `d`. -/
def Sparse.get (d : α) : Sparse α → Nat → α
  | [], _ => d
  | (j, v) :: m, k => if j = k then v else Sparse.get d m k

/-- `m` without any entry for `k`. -/
def Sparse.erase (m : Sparse α) (k : Nat) : Sparse α := m.filter (fun e => e.1 ≠ k)

/-- `m` with the entry `(k, v)` put before the first entry of a greater number. -/
def Sparse.put (k : Nat) (v : α) : Sparse α → Sparse α
  | [] => [(k, v)]
  | e :: m => if k < e.1 then (k, v) :: e :: m else e :: Sparse.put k v m

/-- Set the value for `k`; a value equal to the unlisted one removes the entry. -/
def Sparse.set [DecidableEq α] (d : α) (m : Sparse α) (k : Nat) (v : α) : Sparse α :=
  if v = d then Sparse.erase m k else Sparse.put k v (Sparse.erase m k)

/-- The canonical form: numbers strictly rising and no entry equal to the unlisted value. -/
def Sparse.wf [DecidableEq α] (d : α) (m : Sparse α) : Bool :=
  decide (m.Pairwise (fun a b => a.1 < b.1)) && m.all (fun e => decide (e.2 ≠ d))

/-- Change the value for `k`. -/
def Sparse.upd [DecidableEq α] (d : α) (m : Sparse α) (k : Nat) (f : α → α) : Sparse α :=
  Sparse.set d m k (f (Sparse.get d m k))

/-- Set the values from `k` upward to those of the list. -/
def Sparse.setList [DecidableEq α] (d : α) (m : Sparse α) (k : Nat) : List α → Sparse α
  | [] => m
  | v :: vs => Sparse.setList d (Sparse.set d m k v) (k + 1) vs

/-- The values of `n` numbers from `k` upward. -/
def Sparse.getList (d : α) (m : Sparse α) (k : Nat) : Nat → List α
  | 0 => []
  | n + 1 => Sparse.get d m k :: Sparse.getList d m (k + 1) n

/-- `m` without the entries of the `n` numbers from `k` upward. -/
def Sparse.clear (m : Sparse α) (k n : Nat) : Sparse α := m.filter (fun e => ¬ (k ≤ e.1 ∧ e.1 < k + n))

end Sys2Proof
end

