-- ==== Sys2Proof/Machine/State.lean ====
section
/-! DEFINITION. The whole state of the block, what a step can stop with, and the state after module reset. -/

namespace Sys2Proof.Machine

/-- The block. `pending` is the queue of commands, `free` numbers the free values taken so far and `nextTag`
the requests, operations and messages made so far (log 2). -/
structure State where
  pending : List Instr
  free : Nat
  nextTag : Nat
  tiles : Sparse Tile
  islands : Sparse Island
  mesh : List MPacket
  hbm : Sparse Stack
  chans : Sparse Chan
  mem : Mem
  rights : Sparse Right
  alarms : Sparse (Option Alarm)
  alarmSeq : Nat
  logQ : List LogRec
  logSeq : Nat
  logLost : Nat
  logRing : List LogRec
  logRead : Nat
  traceLost : Nat
  score : Nat
  corrSum : Nat
  lost : List Nat
  noReplay : Sparse Bool
  counts : Sparse Nat
  quires : Sparse Quire
  survive : Survive
  net : Net
  power : Power
  boot : Boot
  spine : Spine
  flash : Flash
  pins : Pins
  splice : Splice
  groups : Sparse (Option Group)
  colls : List Coll
  transfers : List Transfer
  records : List Record
  grade768 : Bool
  device : DeviceId
  incarnation : Nat
deriving DecidableEq, Repr

/-- The machine never stops with a fault: every exception of the spec is an entry, a status or a report. -/
inductive Fault where
  /-- Raised by no command; kept so that the type has a name for a stop. Safe. -/
  | stuck
deriving DecidableEq, Repr

inductive Refusal where
  /-- Raised by an arm of `exec` whose command has no meaning yet. Safe. -/
  | notModelled (mnemonic : String)
deriving DecidableEq, Repr

def State.reset : State where
  pending := []
  free := 0
  nextTag := 0
  tiles := []
  islands := []
  mesh := []
  hbm := []
  chans := []
  mem := Mem.reset
  rights := []
  alarms := []
  alarmSeq := 0
  logQ := []
  logSeq := 0
  logLost := 0
  logRing := []
  logRead := 0
  traceLost := 0
  score := 0
  corrSum := 0
  lost := []
  noReplay := []
  counts := []
  quires := []
  survive := Survive.reset
  net := Net.reset
  power := Power.reset
  boot := Boot.reset
  spine := Spine.reset
  flash := Flash.reset
  pins := Pins.reset
  splice := Splice.reset
  groups := []
  colls := []
  transfers := []
  records := []
  grade768 := true
  device := 0
  incarnation := 0

end Sys2Proof.Machine
end

