-- ==== Sys2Proof/Machine/Access.lean ====
section
/-! DEFINITION. Reading and changing the parts of State, and taking free values. -/

namespace Sys2Proof.Machine

abbrev Out := Host.Outcome State Fault Refusal

def State.tile (s : State) (t : TileId) : Tile := Sparse.get Tile.reset s.tiles t.val
def State.setTile (s : State) (t : TileId) (x : Tile) : State :=
  { s with tiles := Sparse.set Tile.reset s.tiles t.val x }
def State.updTile (s : State) (t : TileId) (f : Tile → Tile) : State := s.setTile t (f (s.tile t))

def Tile.strand (x : Tile) (h : StrandId) : Strand := Sparse.get Strand.reset x.strands h.val
def Tile.setStrand (x : Tile) (h : StrandId) (r : Strand) : Tile :=
  { x with strands := Sparse.set Strand.reset x.strands h.val r }
def Tile.updStrand (x : Tile) (h : StrandId) (f : Strand → Strand) : Tile := x.setStrand h (f (x.strand h))

def State.strand (s : State) (a : At) : Strand := (s.tile a.t).strand a.h
def State.setStrand (s : State) (a : At) (r : Strand) : State := s.setTile a.t ((s.tile a.t).setStrand a.h r)
def State.updStrand (s : State) (a : At) (f : Strand → Strand) : State := s.setStrand a (f (s.strand a))

def State.island (s : State) (i : Nat) : Island := Sparse.get Island.reset s.islands i
def State.setIsland (s : State) (i : Nat) (x : Island) : State :=
  { s with islands := Sparse.set Island.reset s.islands i x }
def State.stackOf (s : State) (m : Nat) : Stack := Sparse.get Stack.reset s.hbm m
def State.setStack (s : State) (m : Nat) (x : Stack) : State :=
  { s with hbm := Sparse.set Stack.reset s.hbm m x }
def State.chan (s : State) (c : Nat) : Chan := Sparse.get Chan.reset s.chans c
def State.setChan (s : State) (c : Nat) (x : Chan) : State :=
  { s with chans := Sparse.set Chan.reset s.chans c x }
def State.region (s : State) (i : Nat) : Region := Sparse.get Region.reset s.mem.regions i
def State.setRegion (s : State) (i : Nat) (r : Region) : State :=
  { s with mem := { s.mem with regions := Sparse.set Region.reset s.mem.regions i r } }
def State.right (s : State) (q j : Nat) : Right := Sparse.get Right.reset s.rights (8 * q + j)

/-- General register `r`; g0 reads zero (02, "Registers and the scoreboard"). -/
def Strand.g (r : Strand) (i : BitVec 5) : Word := if i = 0 then 0 else Sparse.get 0 r.regs i.toNat
/-- Write general register `i`; a write of g0 is discarded. -/
def Strand.setG (r : Strand) (i : BitVec 5) (v : Word) : Strand :=
  if i = 0 then r else { r with regs := Sparse.set 0 r.regs i.toNat v }
/-- Set or clear the scoreboard bit of a register; g0 has none (02 R34). -/
def Strand.setBoard (r : Strand) (i : BitVec 5) (b : Bool) : Strand :=
  if i = 0 then r
  else { r with board := if b then r.board ||| (1#32 <<< i.toNat) else r.board &&& ~~~ (1#32 <<< i.toNat) }
def Strand.busy (r : Strand) (i : BitVec 5) : Bool := r.board.getLsbD i.toNat

/-- Lines of an enabled pending event (03 R78). -/
def Strand.event (r : Strand) : BitVec 32 := r.evtPend &&& r.evtEn
/-- A parked strand leaves that state as soon as an enabled line is pending (03 R80). -/
def Strand.wake (r : Strand) : Strand :=
  if r.run = .parked && r.event ≠ 0 then { r with run := .running } else r
/-- Make lines pending (03 R78, R80). -/
def Strand.pend (r : Strand) (lines : BitVec 32) : Strand := ({ r with evtPend := r.evtPend ||| lines }).wake

/-- The next number for a request, operation or message (log 2). -/
def State.takeTag (s : State) : Nat × State := (s.nextTag, { s with nextTag := s.nextTag + 1 })
/-- The number of a fresh free value (log 2). -/
def State.takeFree (s : State) : Nat × State := (s.free, { s with free := s.free + 1 })

/-- `n` bytes of memory from local address `a`; what nothing has written reads 0 (log 3). -/
def State.bytes (s : State) (a n : Nat) : List Byte := Sparse.getList 0 s.mem.bytes a n
/-- Unit `u` of 32 bytes lies wholly in [a, a + n). -/
def unitIn (a n u : Nat) : Bool := decide (a ≤ 32 * u) && decide (32 * u + 32 ≤ a + n)

/-- Write bytes to memory and mark their regions dirty (16 R396); a unit that is written whole gets a new code (09 R228). -/
def State.writeBytes (s : State) (a : Nat) (bs : List Byte) : State :=
  { s with mem := { s.mem with
      bytes := Sparse.setList 0 s.mem.bytes a bs
      errs := s.mem.errs.filter fun e => !unitIn a bs.length e.1
      dirty := if bs.isEmpty then s.mem.dirty else
        Sparse.set false (Sparse.set false s.mem.dirty (a / 2 ^ 21) true) ((a + bs.length - 1) / 2 ^ 21) true } }

def State.quire (s : State) (q : Nat) : Quire := Sparse.get Quire.reset s.quires q
def State.setQuire (s : State) (q : Nat) (x : Quire) : State :=
  { s with quires := Sparse.set Quire.reset s.quires q x }
def State.updQuire (s : State) (q : Nat) (f : Quire → Quire) : State := s.setQuire q (f (s.quire q))

/-- Count `n` events of a quire under a selector of 13 Table 13-7 (R345). -/
def State.count (s : State) (q sel n : Nat) : State := { s with counts := Sparse.upd 0 s.counts (16 * q + sel) (· + n) }
/-- Energy of a quire's work, in rpJ (13 R346). -/
def State.payEnergy (s : State) (q n : Nat) : State := s.updQuire q fun x => { x with energy := x.energy + n }
/-- The same for an event on a tile. -/
def State.countTile (s : State) (t : TileId) (sel n : Nat) : State :=
  if (s.tile t).assigned then s.count (s.tile t).quire.toNat sel n else s
def State.payTile (s : State) (t : TileId) (n : Nat) : State :=
  if (s.tile t).assigned then s.payEnergy (s.tile t).quire.toNat n else s

/-- The replayable flag falls, and an entry of kind 5 says where: cause 1 a float memory-side add, 2 a declaration (13 R349;
16 R392, R393). -/
def State.spoilReplay (s : State) (a : At) (cause : Nat) : State :=
  let q := (s.tile a.t).quire.toNat
  if Sparse.get false s.noReplay q then s
  else
    let s : State := { s with noReplay := Sparse.set false s.noReplay q true }
    s.updQuire q fun x =>
    { x with log := x.log ++ [{ kind := 5, addr := a.t.val + 256 * a.h.val + 2048 * cause, len := 0, digest := 0 }] }

/-- The island of a tile (01 R11). -/
def islandOf (t : TileId) : Nat :=
  let r := t.val / 16
  let c := t.val % 16
  4 * (2 * (r / 6) + c / 8) + 2 * ((r % 6) / 3) + (c % 8) / 4
/-- The governor has stopped the island: by a ceiling below 600 mV or by heat (14 R359, R361). -/
def Island.isStopped (x : Island) : Bool := decide (x.ceiling < 600) || x.hot
/-- The compute die of a tile (01 Table 01-1). -/
def dieOf (t : TileId) : Nat := 2 * (t.val / 16 / 6) + t.val % 16 / 8
def dieOfStack (m : Nat) : Nat := m / 5

def allTiles : List TileId := List.finRange 192
def allStrands : List StrandId := List.finRange 8

/-- The live arrays of a tile (00 R2, R3). -/
def State.arrays (s : State) : Nat := if s.grade768 then 4 else 3

/-- Whether any quire right covers a device (10 R277), and the peer quire it names. -/
def State.peerQuire (s : State) (q dev : Nat) : Option Nat :=
  ((List.range 8).map (s.right q)).findSome? fun r =>
    if r.valid && r.first ≤ dev && dev < r.first + r.count then some r.peer else none

/-- An entry of quire q's rights table covers a device and names a peer quire there (10 R278 step 2). -/
def State.hasRight (s : State) (q dev peer : Nat) : Bool :=
  ((List.range 8).map (s.right q)).any fun r => r.valid && decide (r.first ≤ dev ∧ dev < r.first + r.count) && r.peer == peer

/-- The memory range in force ends at this local address (09 R221, R244). -/
def State.memTop (s : State) : Nat := 2 ^ 30 * s.mem.ctop

end Sys2Proof.Machine
end

