-- ==== Sys2Proof/Machine/Warrant.lean ====
section
/-! DEFINITION. Warrants: their fields, validity, visibility and coverage (03 R61–R63, R75). -/

namespace Sys2Proof.Machine

def Warrant.field (w : Warrant) (lo n : Nat) : Nat := bitsOf w.toNat lo n
def Warrant.kind (w : Warrant) : Nat := w.field 0 4
def Warrant.quire (w : Warrant) : Nat := w.field 4 4
def Warrant.epoch (w : Warrant) : Nat := w.field 8 16
def Warrant.rights (w : Warrant) : Nat := w.field 24 7
/-- Rights bit `i` of 24 to 30 (03 Table 03-2), or the derive bit 31. -/
def Warrant.bit (w : Warrant) (i : Nat) : Bool := w.getLsbD i
def Warrant.derive (w : Warrant) : Bool := w.bit 31
def Warrant.e (w : Warrant) : Nat := w.field 32 6
def Warrant.len (w : Warrant) : Nat := w.field 38 26
/-- The base of a MEM, CTRL or GATE warrant (03 Table 03-2). -/
def Warrant.base (w : Warrant) : Nat :=
  if w.kind = 1 then w.field 64 64 else if w.kind = 3 then w.field 64 44 else w.field 64 48
def Warrant.top (w : Warrant) : Nat := w.base + w.len * 2 ^ w.e
def Warrant.entry (w : Warrant) : Nat := w.base + 4 * w.field 112 16
def Warrant.firstGroup (w : Warrant) : Nat := w.field 32 12
def Warrant.groupCount (w : Warrant) : Nat := w.field 44 13
def Warrant.firstDevice (w : Warrant) : Nat := w.field 64 20
def Warrant.deviceCount (w : Warrant) : Nat := w.field 84 21

/-- The conditions of R62 on a region [base, base + len × 2^e). -/
def Warrant.regionOk (w : Warrant) : Bool :=
  w.base % 2 ^ w.e == 0 && w.len ≠ 0 && decide (w.top ≤ 2 ^ 64)

/-- The reserved fields of the kind are zero, and the kind's own conditions hold (03 R62, R63, Table 03-2). -/
def Warrant.formOk (w : Warrant) : Bool :=
  if w.kind = 1 then w.regionOk && !w.bit 30
  else if w.kind = 2 then w.regionOk && decide (w.top ≤ 2 ^ 48) && decide (w.entry < 2 ^ 48)
  else if w.kind = 3 then w.regionOk && w.field 26 5 == 0 && w.field 108 20 == 0
  else if w.kind = 4 then w.field 27 4 == 0 && w.field 57 7 == 0 && w.field 105 23 == 0
  else if w.kind = 5 then
    w.field 25 6 == 0 && w.field 48 16 == 0 && w.field 84 44 == 0 &&
      decide (w.field 32 8 ≤ 191) && decide (16 ≤ w.field 43 5)
  else if w.kind = 6 then w.field 28 3 == 0 && w.field 32 96 == 0
  else false

/-- A warrant is valid for a quire under a floor (03 R63). -/
def Warrant.valid (w : Warrant) (quire floor : Nat) : Bool :=
  decide (1 ≤ w.kind) && decide (w.kind ≤ 6) && w.quire == quire && decide (floor ≤ w.epoch) && w.formOk

/-- The warrant is valid on a tile (03 R63): a tile in no quire accepts none. -/
def Tile.warrantOk (x : Tile) (w : Warrant) : Bool := x.assigned && w.valid x.quire.toNat x.floor.toNat
/-- The same under the floor that an access captured (03 R67). -/
def Tile.valid (x : Tile) (w : Warrant) (au : Auth) : Bool := x.assigned && w.valid x.quire.toNat au.floor.toNat

/-- Warrant register `i` where the strand can see it (03 R75, R86). -/
def Tile.seen (x : Tile) (r : Strand) (i : Nat) : Option Warrant :=
  if r.status.bs then if i < 4 then some (Sparse.get 0 x.bw i) else none
  else if i = 15 ∨ r.vis.getLsbD i then some (Sparse.get 0 r.wregs i) else none

/-- The visible warrants with the tile's floor: what an access that the strand issues now may use. -/
def Tile.auth (x : Tile) (h : StrandId) : Auth :=
  { who := .strand h, ws := (List.range 16).filterMap (fun i => (x.seen (x.strand h) i).map (fun w => (i, w))), floor := x.floor }
def State.auth (s : State) (a : At) : Auth := (s.tile a.t).auth a.h

/-- `w` covers [a, a + n) (03 R62). -/
def Warrant.covers (w : Warrant) (a n : Nat) : Bool := decide (w.base ≤ a) && decide (a + n ≤ w.top)

/-- A MEM warrant over [base, base + len·2^e) as gcall installs it (03 R74). -/
def Warrant.ofGate (w : Warrant) : Warrant :=
  BitVec.ofNat 128 (1 + w.quire * 2 ^ 4 + w.epoch * 2 ^ 8 + w.field 25 5 * 2 ^ 24 +
    w.field 30 1 * 2 ^ 31 + w.field 32 32 * 2 ^ 32 + w.base * 2 ^ 64)

end Sys2Proof.Machine
end

