-- ==== Sys2Proof/Machine/Translate.lean ====
section
/-! DEFINITION. The order of checks of an access (03 R69, R70), the page walk (03 R71, Tables 03-5, 03-6)
and the TLB. -/

namespace Sys2Proof.Machine

/-- What an access needs (03 R70 steps 4 and 6). -/
inductive Need where
  | load | store | atomic | sealLoad | sealStore | fetch
deriving DecidableEq, Repr

def Need.isWrite : Need → Bool
  | .store | .atomic | .sealStore => true
  | _ => false
def Need.isSeal : Need → Bool
  | .sealLoad | .sealStore => true
  | _ => false

/-- The rights bits of a MEM warrant that an access needs (03 R70 step 4, Table 03-2). -/
def Need.granted (n : Need) (w : Warrant) : Bool :=
  match n with
  | .load => w.bit 24
  | .store => w.bit 25
  | .fetch => w.bit 26
  | .atomic => w.bit 27
  | .sealLoad => w.bit 28 && w.bit 24
  | .sealStore => w.bit 28 && w.bit 25

/-- Where a checked access goes: an address of memory here or of another device (global), or of control space. -/
structure Xlate where
  target : Target
  addr : Nat
  policy : Policy
  isSeal : Bool
  backstop : Bool
deriving DecidableEq, Repr

/-- A page that is not in the TLB, and the access that needs it (03 R71). -/
structure Miss where
  page : Nat
  who : WalkFor
deriving DecidableEq, Repr

inductive Checked where
  | ok (x : Xlate)
  | walk (m : Miss)
  | fail (code check wreg : Nat)
deriving DecidableEq, Repr

/-- What looking a page up gives: an entry, a walk still to make, or a failed walk with the leaf it met. -/
inductive Look where
  | hit (e : TlbEntry)
  | miss
  | fail (code check : Nat) (leaf : Option TlbEntry)
deriving DecidableEq, Repr

/-- Cause codes of 03 Table 03-10. -/
abbrev cIllegal : Nat := 0x01
abbrev cFetch : Nat := 0x02
abbrev cAccess : Nat := 0x03
abbrev cAlign : Nat := 0x04
abbrev cTrans : Nat := 0x05
abbrev cRegion : Nat := 0x06
abbrev cSeal : Nat := 0x07
abbrev cWarrant : Nat := 0x08
abbrev cGate : Nat := 0x09
abbrev cRemote : Nat := 0x0A
abbrev cMemory : Nat := 0x0B
abbrev cTrap : Nat := 0x0C
abbrev cTile : Nat := 0x0D

/-- The control window of the virtual address space (03 R69). -/
def inControl (a : Nat) : Bool := decide (0xF0000000000 ≤ a) && decide (a ≤ 0xFFFFFFFFFFF)

/-- The assigned parts of the control window (01 Table 01-11); of a tile's block offsets below 0x4_0000 (01 Table 01-5). -/
def controlMapped (a : Nat) : Bool :=
  decide (0xF0000000000 ≤ a ∧ a ≤ 0xF00BFFFFFFF ∧ a % 2 ^ 24 < 0x40000) || decide (0xF4000000000 ≤ a ∧ a ≤ 0xF4013FFFFFF) ||
  decide (0xF6000000000 ≤ a ∧ a ≤ 0xF6000FFFFFF) || decide (0xF7000000000 ≤ a ∧ a ≤ 0xF7000FFFFFF) ||
  decide (0xF8000000000 ≤ a ∧ a ≤ 0xF800000FFFF)

/-- CHMAP at delivery without the removed channels, in order (09 R219). -/
def chmapWithout (removed : List Nat) : List Nat :=
  ((List.range 640).map (fun l => 32 * (l % 20) + l / 20)).filter (fun c => !removed.contains c)

/-- The device channel that holds a local address (09 R218; during a restripe R240, R241). -/
def State.channelOf (s : State) (a : Nat) : Nat :=
  let g := a / 256
  let new := chmapWithout s.mem.removed
  let moving := s.mem.restripe == .running || s.mem.restripe == .paused
  if moving && g < s.mem.wm then new.getD (g % (s.mem.n - 1)) 0
  else if moving then (chmapWithout (s.mem.removed.filter (· ≠ s.mem.target))).getD (g % s.mem.n) 0
  else new.getD (g % s.mem.n) 0

/-- A page-table entry read at a level: another table, a leaf, or not valid (03 Table 03-6). -/
inductive Pte where
  | table (a : Nat)
  | leaf (phys : Nat) (policy : Policy) (isSeal ro nx : Bool)
  | bad
deriving DecidableEq, Repr

def policyOf (n : Nat) : Option Policy :=
  if n = 0 then some .writeBack else if n = 1 then some .writeThrough else if n = 2 then some .uncached else none

/-- Size in bytes of the table that a pointer read at `level` names (03 Table 03-5). -/
def tableSize (level : Nat) : Nat := if level = 1 then 2 ^ 15 else if level = 2 then 2 ^ 14 else 2 ^ 8

/-- Decode an entry read at `level`, 1 to 4 (03 Table 03-6; 08 R198 for policy 0b11). -/
def pteOf (s : State) (level : Nat) (v : Nat) : Pte :=
  if !bitOf v 0 || bitOf v 7 then .bad
  else if bitOf v 1 then
    let a := bitsOf v 16 28 * 2 ^ 16 + bitsOf v 8 8 * 2 ^ 8
    if level = 4 || bitsOf v 2 5 ≠ 0 || bitsOf v 44 20 ≠ s.device.toNat || a % tableSize level ≠ 0 ||
        a + tableSize level > s.memTop then .bad
    else .table a
  else if level ≤ 2 || bitsOf v 8 8 ≠ 0 || (level = 3 && bitsOf v 16 5 ≠ 0) then .bad
  else match policyOf (bitsOf v 2 2) with
    | none => .bad
    | some p => .leaf (bitsOf v 16 48 * 2 ^ 16) p (bitOf v 4) (bitOf v 5) (bitOf v 6)

/-- The byte offset in the table of `level` that a page of 64 KiB uses (03 Table 03-5). -/
def pteOffset (level page : Nat) : Nat :=
  8 * (if level = 1 then bitsOf page 28 12 else if level = 2 then bitsOf page 16 12
       else if level = 3 then bitsOf page 5 11 else bitsOf page 0 5)

/-- The region of a local address belongs to the quire (03 R70 step 7). -/
def State.holdsRegion (s : State) (q a : Nat) : Bool :=
  let r := s.region (a / 2 ^ 21)
  r.quire == q && (r.state == .assigned || r.state == .lost || r.state == .rotating)

/-- The checks made when a TLB entry is filled: the seal match of step 6 and step 7 (03 R71). -/
def fillCheck (s : State) (q phys : Nat) (isSeal : Bool) : Option (Nat × Nat) :=
  if bitsOf phys 44 20 = s.device.toNat then
    let a := bitsOf phys 0 44
    if a ≥ s.memTop then some (cRegion, 6)
    else if s.holdsRegion q a && (s.region (a / 2 ^ 21)).isSeal ≠ isSeal then some (cSeal, 5)
    else if !s.holdsRegion q a then some (cRegion, 6)
    else none
  else if (s.peerQuire q (bitsOf phys 44 20)).isNone then some (cRegion, 6)
  else none

/-- What one level of a walk gives after its entry is read: the next table, an entry, or a failure. -/
inductive WalkStep where
  | next (table : Nat)
  | done (e : TlbEntry)
  | fail (code check : Nat) (leaf : Option TlbEntry)
deriving DecidableEq, Repr

/-- Act on the entry `v` read at one level of the walk for `page` (03 R71). -/
def walkOn (s : State) (q page level v : Nat) : WalkStep :=
  match pteOf s level v with
  | .bad => .fail cTrans 4 none
  | .table b => .next b
  | .leaf phys p se ro nx =>
    let pages := if level = 3 then 32 else 1
    let e : TlbEntry :=
      { page := page / pages * pages, pages := pages, phys := phys, policy := p, isSeal := se, ro := ro, nx := nx }
    match fillCheck s q phys se with
    | some (c, k) => .fail c k (some e)
    | none => .done e

/-- The Tailband refuses a request (09 R248, R231, R245), with what a read of it raises. -/
def State.refuses (s : State) (q : Nat) (isSeal copy : Bool) (a : Nat) : Option Fail :=
  let r := s.region (a / 2 ^ 21)
  if a ≥ s.memTop || r.state = .held || !s.holdsRegion q a then some { code := cRegion, check := 6 }
  else if r.isSeal ≠ isSeal && !copy then some { code := cSeal, check := 5 }
  else if r.state = .lost || (s.chan (s.channelOf a)).state = .dead then some { code := cMemory, check := 0 }
  else none

/-- One level of a walk at once: the entry is read as a request of the quire that is not a seal request (09 R248, 03 R66). What the access
meets that needed a refused read is log 30. -/
def walkStep (s : State) (q page level table : Nat) : WalkStep :=
  let a := table + pteOffset level page
  match s.refuses q false false a with
  | some f => .fail f.code f.check none
  | none => walkOn s q page level (leNat (s.bytes a 8))

/-- A whole walk at once, from `level`: what exception entry and return and spills use, which wait for
their walks inside one step (03 Table 03-13, R77). -/
def walkFrom (s : State) (q page : Nat) : Nat → Nat → Nat → Look
  | 0, _, _ => .fail cTrans 4 none
  | n + 1, level, table =>
    match walkStep s q page level table with
    | .next b => walkFrom s q page n (level + 1) b
    | .done e => .hit e
    | .fail c k e => .fail c k e

def TlbEntry.has (e : TlbEntry) (page : Nat) : Bool := decide (e.page ≤ page) && decide (page < e.page + e.pages)

def rootOf (x : Tile) : Nat := bitsOf x.ptRoot.toNat 15 29 * 2 ^ 15

/-- The TLB, or a failed walk that this access needed and has still to meet. -/
def lookTlb (x : Tile) (who : WalkFor) (page : Nat) : Look :=
  match x.tlb.find? (·.has page) with
  | some e => .hit e
  | none =>
    match x.walks.find? (fun w => w.page == page && w.failed.isSome && w.who.contains who) with
    | some w => match w.failed with
      | some (c, k) => .fail c k w.leaf
      | none => .miss
    | none => .miss

/-- The TLB, or else a whole walk made at once. -/
def lookNow (s : State) (x : Tile) (page : Nat) : Look :=
  match x.tlb.find? (·.has page) with
  | some e => .hit e
  | none => walkFrom s x.quire.toNat page 4 1 (rootOf x)

/-- `a` lies in the backstop region of the tile (03, "Escalation to the backstop handler"). -/
def inBackstop (x : Tile) (a n : Nat) : Bool :=
  let b := x.bsBase.toNat
  b ≠ 0 && decide (b ≤ a) && decide (a + n ≤ b + 2 ^ 14)

/-- Step 2 of R70: an access in the control window. -/
def checkControl (x : Tile) (au : Auth) (need : Need) (a n : Nat) (word : Bool) : Checked :=
  let bit := if need.isWrite then 25 else 24
  if !(need == .load || need == .store) ||
      !(au.ws.any fun w => w.2.kind == 3 && x.valid w.2 au && w.2.bit bit && w.2.covers a n)
  then .fail cAccess 1 0
  else if !word || n ≠ 8 || a % 8 ≠ 0 || !controlMapped a then .fail cAccess 1 0
  else .ok { target := .control, addr := a, policy := .uncached, isSeal := false, backstop := false }

/-- Step 4 of R70: the warrants that authorise a MEM access. -/
def authorising (x : Tile) (au : Auth) (need : Need) (a n : Nat) : List Warrant :=
  (au.ws.filter fun w =>
    w.2.kind == 1 && x.valid w.2 au && need.granted w.2 && w.2.covers a n).map (·.2)

/-- Steps 3 and 4 of R70. Where several invalid visible MEM warrants cover the access, the fault names the lowest-numbered (log 96). -/
def checkWarrants (x : Tile) (au : Auth) (need : Need) (a n : Nat) : Option Checked :=
  if a ≥ 2 ^ 56 then some (.fail cAccess 2 0)
  else if (authorising x au need a n).isEmpty then
    match au.ws.find? (fun w => w.2.kind == 1 && !x.valid w.2 au && w.2.covers a n) with
    | some w => some (.fail cWarrant 1 w.1)
    | none => some (.fail cAccess 3 0)
  else none

/-- Step 6 of R70 on a leaf: the fault, if it fails. -/
def leafFault (s : State) (need : Need) (e : TlbEntry) : Option Nat :=
  if need = .fetch then (if e.isSeal || e.nx then some cFetch else none)
  else if e.isSeal ≠ need.isSeal || (need.isSeal && bitsOf e.phys 44 20 ≠ s.device.toNat) then some cSeal
  else if e.ro && need.isWrite then some cAccess
  else none

/-- The physical address of a virtual one in the page of an entry. -/
def TlbEntry.physOf (e : TlbEntry) (a : Nat) : Nat := e.phys + (a - e.page * 2 ^ 16)

/-- Steps 6 and 7 of R70 on a translation; the rest of steps 6 (designation) and 7 was made when it was filled (R71). -/
def checkLeaf (s : State) (x : Tile) (au : Auth) (need : Need) (a n : Nat) (e : TlbEntry) : Checked :=
  let pa := e.physOf a
  let here := bitsOf pa 44 20 == s.device.toNat
  if let some c := leafFault s need e then .fail c 5 0
  else if need = .fetch then
    if !here then .fail cFetch 6 0
    else .ok { target := .memory, addr := bitsOf pa 0 44, policy := e.policy, isSeal := false, backstop := false }
  else if !here && !(authorising x au need a n).any (·.bit 29) then .fail cRegion 6 0
  else .ok { target := if here then .memory else .remote,
             addr := if here then bitsOf pa 0 44 else pa,
             policy := if here then e.policy else .uncached, isSeal := e.isSeal, backstop := false }

/-- The checks of R70, steps 2 to 7, on `n` bytes at `a` within one page; `word` marks a scalar access
that R10 may let through to control space. -/
def checkWith (s : State) (x : Tile) (look : Nat → Look) (au : Auth) (need : Need) (a n : Nat) (word : Bool) : Checked :=
  if inControl a then
    if need = .fetch then .fail cFetch 3 0 else checkControl x au need a n word
  else match checkWarrants x au need a n with
    | some (.fail c k w) => if need = .fetch then .fail cFetch (if a ≥ 2 ^ 56 then 2 else 3) 0 else .fail c k w
    | some r => r
    | none =>
      if inBackstop x a n then
        if need.isSeal then .fail cSeal 5 0
        else if need = .atomic then .fail cAccess 5 0
        else .ok { target := .memory, addr := a - x.bsBase.toNat, policy := .writeBack, isSeal := false, backstop := true }
      else match look (a / 2 ^ 16) with
        | .miss => .walk { page := a / 2 ^ 16, who := au.who }
        | .fail c k leaf => match leaf.bind (leafFault s need) with
          | some d => .fail d 5 0
          | none => if need = .fetch && c ≠ cMemory then .fail cFetch k 0 else .fail c k 0
        | .hit e => checkLeaf s x au need a n e

def State.check (s : State) (t : TileId) (au : Auth) (need : Need) (a n : Nat) (word : Bool) : Checked :=
  checkWith s (s.tile t) (lookTlb (s.tile t) au.who) au need a n word

/-- The same checks with any walk made at once. -/
def State.checkNow (s : State) (t : TileId) (au : Auth) (need : Need) (a n : Nat) : Checked :=
  checkWith s (s.tile t) (lookNow s (s.tile t)) au need a n false

/-- Start the walk for a page, or join the one that is on its way (03 R71). -/
def State.startWalk (s : State) (t : TileId) (m : Miss) : State :=
  s.updTile t fun x =>
    if x.walks.any fun w => w.page == m.page && w.failed.isNone then
      { x with walks := x.walks.map fun w =>
          if w.page == m.page && w.failed.isNone && !w.who.contains m.who then { w with who := w.who ++ [m.who] } else w }
    else { x with walks := x.walks ++
      [{ page := m.page, level := 1, table := rootOf x, who := [m.who], wait := none, failed := none, leaf := none }] }

/-- An access has met its fault, or is given up: the walks that it needed do not need it any more, and a failed one that nothing
else needs is forgotten (03 R71). -/
def Tile.forget (x : Tile) (who : WalkFor) : Tile :=
  let left := x.walks.map fun w => { w with who := w.who.filter (· ≠ who) }
  { x with walks := left.filter fun w => w.failed.isNone || !w.who.isEmpty }

/-- tlbinv of pages: their entries go, a failed walk of them is forgotten, and one on its way starts again from the root, so that
nothing read before the instruction is used after it (03 R72; log 97). -/
def Tile.invalidate (x : Tile) (p : Nat → Nat → Bool) : Tile :=
  let gone (tag : Nat) : Bool := x.walks.any fun w => p w.page 1 && w.wait == some tag
  { x with
    asks := x.asks.filter fun k => !gone k.tag
    inbox := x.inbox.filter fun m => !gone m.tag
    tlb := x.tlb.filter fun e => !p e.page e.pages
    walks := x.walks.filterMap fun w =>
      if !p w.page 1 then some w
      else if w.failed.isSome then none
      else some { w with level := 1, table := rootOf x, wait := none } }

/-- Put an entry into the TLB; a full TLB loses an entry that replacement picks (03 R71, log 6). -/
def Tile.fillTlb (x : Tile) (e : TlbEntry) (victim : Nat) : Tile :=
  let kept := x.tlb.filter (fun o => !(o.has e.page || e.has o.page))
  { x with tlb := e :: (if kept.length < 256 then kept else kept.eraseIdx (victim % 256)) }

/-- The walk of an access that waits for its walks inside one step, where its page is in no entry and its checks reach
translation: it fills the TLB as any walk does (03 R71, Table 03-13). -/
def State.walkNow (s : State) (t : TileId) (au : Auth) (need : Need) (a n : Nat) : State :=
  let x := s.tile t
  match checkWith s x (fun p => match x.tlb.find? (·.has p) with | some e => .hit e | none => .miss) au need a n false with
  | .walk m => match walkFrom s x.quire.toNat m.page 4 1 (rootOf x) with
    | .hit e =>
      let (f, s) := s.takeFree
      s.updTile t fun x => x.fillTlb e (Config.victimEntry 256 f)
    | _ => s
  | _ => s

end Sys2Proof.Machine
end

