-- ==== Sys2Proof/Machine/Route.lean ====
section
/-! DEFINITION. Splice routing (10 R269–R274) and queueing packets for output ports. -/

namespace Sys2Proof.Machine

def State.port (s : State) (p : Nat) : Port := Sparse.get Port.reset s.splice.ports p
def State.setPort (s : State) (p : Nat) (x : Port) : State :=
  { s with splice := { s.splice with ports := Sparse.set Port.reset s.splice.ports p x } }
def State.dim (s : State) (d : Nat) : Dim := Sparse.get Dim.reset s.splice.dims d

/-- k_0 × … × k_(d−1) (10 R269). -/
def State.dimStride (s : State) (d : Nat) : Nat := ((List.range d).map (fun i => (s.dim i).size)).foldl (· * ·) 1
def State.coord (s : State) (dev d : Nat) : Nat := dev / s.dimStride d % (s.dim d).size

/-- A port carries frames (10 R271): up, or up at half width. -/
def Port.isUp (x : Port) : Bool := x.state == .up || x.state == .half

/-- 10 R271: the bundle's member for a destination, or the next one after it that is up. -/
def State.bundlePort (s : State) (d : Nat) (minus : Bool) (dst : Nat) : Option Nat :=
  let ms := (List.range 16).filter fun p => (s.port p).member && (s.port p).dim == d && (s.port p).minus == minus
  let k := if ms.isEmpty then 0 else dst % ms.length
  (ms.drop k ++ ms.take k).find? fun p => (s.port p).isUp

/-- The direction a packet takes in dimension `d` (10 R270): minus or not; ties on a ring go plus. -/
def ringMinus (ring : Bool) (a b k : Nat) : Bool :=
  if ring then decide ((b + k - a) % k > k - (b + k - a) % k) else decide (b < a)

/-- 10 R270: the output port for a destination that is not this device. -/
def State.routeOf (s : State) (dst : Nat) : Option Nat :=
  match ((List.range 1024).map (fun j => Sparse.get Ovr.reset s.splice.ovr j)).find?
      (fun o => o.valid && decide (o.first ≤ dst) && decide (dst < o.first + o.count)) with
  | some o => some o.port
  | none =>
    if dst ≥ s.dimStride 8 then none
    else match (List.range 8).find? (fun d => s.coord s.device.toNat d ≠ s.coord dst d) with
      | none => none
      | some d =>
        s.bundlePort d (ringMinus (s.dim d).ring (s.coord s.device.toNat d) (s.coord dst d) (s.dim d).size) dst

/-- 10 R272: the class of a packet that leaves on port `out`, having come on `inp` (none: originated) with class `c`. -/
def State.classOf (s : State) (out : Nat) (inp : Option Nat) (c : Bool) : Bool :=
  let x := s.port out
  let d := s.dim x.dim
  let a := s.coord s.device.toNat x.dim
  let wrap := d.ring && d.size > 1 && (if x.minus then a == 0 else a == d.size - 1)
  if !d.ring then false
  else if wrap then true
  else match inp with
    | none => false
    | some i => if (s.port i).dim ≠ x.dim then false else c

/-- Virtual lane of a packet type (10 Table 10-6): 0 request, 1 response, 2 collective, 3 control. -/
def laneOf (type : Nat) : Nat :=
  if type < 0x20 then 0 else if type < 0x30 then 1 else if type < 0x38 then 2 else 3

def State.enqueue (s : State) (out : Nat) (inp : Option Nat) (c : Bool) (p : SPacket) : State :=
  let x := s.port out
  s.setPort out { x with outq := x.outq ++ [{ pkt := p, cls := s.classOf out inp c, inp := inp }] }

def isRequest (p : SPacket) : Bool := decide (1 ≤ p.type.toNat ∧ p.type.toNat ≤ 5)

/-- The answer to a request (10 Table 10-6): the same transaction, type + 0x20, with a status and data. -/
def replyTo (self : DeviceId) (p : SPacket) (status : Nat) (data : List Byte) : SPacket :=
  { p with dst := p.src, src := self, type := p.type + 0x20, dquire := p.squire, squire := p.dquire, hops := 0, word3 := 0,
           status := BitVec.ofNat 3 status, len := data.length, payload := data, ecrcOk := true }

/-- The fault or outcome that a response status stands for (10 Table 10-7, R58). -/
def statusFail (st : Nat) : Fail :=
  if st = 1 then { code := cRegion, check := 6 } else if st = 2 then { code := cSeal, check := 5 }
  else { code := cRemote, check := st }

/-- A response reaches the tile that asked: data or a failure goes to its inbox; an answered write ends its
ask, and a failed one raises line 4 of its strand (10 R280, 03 Table 03-11, 08 R215). -/
def raiseLine4 (r : Strand) (va : Word) : Strand :=
  { r.pend 0x10 with line4 := match r.line4 with | none => some va | some v => some v }

def AskKind.isStore : AskKind → Bool
  | .store | .vstore | .tstore _ => true
  | _ => false

def Tile.answer (x : Tile) (tag : Nat) (p : MPacket) : Tile :=
  match x.asks.find? (·.tag == tag) with
  | none => x
  | some k =>
    let done := { x with asks := x.asks.filter (·.tag ≠ tag) }
    match k.kind, p.body with
    | .store, .fail _ => done.updStrand k.h fun r => raiseLine4 r k.va
    | .vstore, .fail _ => done.updStrand k.h fun r => raiseLine4 r k.va
    | .tstore _, .fail _ => done.updStrand k.h fun r => raiseLine4 r k.va
    | .store, _ => done
    | .vstore, _ => done
    | .tstore _, _ => done
    | .writeback _, .done => done
    | .merged _, .done => done
    | _, _ => { x with inbox := x.inbox ++ [{ p with tag := tag }] }

/-- A Splice response at its destination tile; what is for no tile's request is left alone. -/
def State.answerRemote (s : State) (p : SPacket) : State :=
  if h : p.tile.toNat < 192 then
    let t : TileId := ⟨p.tile.toNat, h⟩
    match (s.tile t).asks.find? (fun k => k.remote && k.tag % 65536 == p.txn.toNat) with
    | none => s
    | some k =>
      let body := if p.status.toNat ≠ 0 then Body.fail (statusFail p.status.toNat)
        else if p.payload.isEmpty then Body.done else Body.data [(0, p.payload)]
      s.updTile t fun x => x.answer k.tag
        { cls := .response, src := .xd 0, dst := .tile t, tag := k.tag, quire := p.dquire.toNat, isSeal := false,
          copy := false, body := body }
  else s

/-- Send a packet of this device on its way (10 R270). What is for this device itself, an answer to a request that found no way out, is delivered
here. Without a route a request is answered with status 5;
what is not a request is dropped and counted. -/
def State.originate (s : State) (p : SPacket) : State :=
  let n := if 0x3C ≤ p.type.toNat || bitOf p.word3.toNat 0 then 0 else p.payload.length
  let s := (s.count p.squire.toNat 5 n).payEnergy p.squire.toNat (36 * n)
  if p.dst = s.device then s.answerRemote p else
  match s.routeOf p.dst.toNat with
  | some out => s.enqueue out none false p
  | none =>
    let s' := { s with splice := { s.splice with noroute := satAdd 16 s.splice.noroute 1 } }
    if isRequest p then s'.answerRemote (replyTo s.device p 5 []) else s'

/-- A remote request of a tile (10 R277): type 0x01, 0x02 or 0x03 by its body. -/
def remotePacket (s : State) (t : TileId) (h : StrandId) (dquire : Nat) (tag : Nat) (addr : Nat) (b : Body) : SPacket :=
  { dst := BitVec.ofNat 20 (bitsOf addr 44 20), src := s.device
    type := match b with | .write .. => 2 | .atomic .. => 3 | _ => 1
    dquire := BitVec.ofNat 4 dquire, squire := (s.tile t).quire, hops := 0, addr := BitVec.ofNat 64 addr
    len := match b with | .read _ n => n | .write _ _ bs => bs.length | .atomic .. => 16 | _ => 0
    status := 0, txn := BitVec.ofNat 16 tag, tile := BitVec.ofNat 8 t.val, strand := BitVec.ofNat 3 h.val
    op := match b with | .atomic _ c _ _ => BitVec.ofNat 8 c | _ => 0
    word3 := 0, ecrcOk := true
    payload := match b with
      | .write _ _ bs => bs
      | .atomic _ _ o c => leBytes 8 o.toNat ++ leBytes 8 c.toNat
      | _ => [] }

/-- The tile may send another remote request (10 R281). -/
def Tile.remoteRoom (x : Tile) : Bool := decide ((x.asks.filter (·.remote)).length < 256)

/-- Ask another device; the new ask's number comes back. -/
def State.askRemote (s : State) (t : TileId) (h : StrandId) (kind : AskKind) (va : Word) (addr : Nat) (b : Body) :
    Nat × State :=
  let (tag, s) := s.takeTag
  let s := s.updTile t fun x =>
    { x with asks := x.asks ++ [{ tag := tag, kind := kind, h := h, va := va, addr := addr, remote := true }] }
  let dq := (s.peerQuire (s.tile t).quire.toNat (bitsOf addr 44 20)).getD 0
  (tag, s.originate (remotePacket s t h dq tag addr b))

end Sys2Proof.Machine
end

