-- ==== Sys2Proof/Machine/Report.lean ====
section
/-! DEFINITION. What any part reports to the Spine: alarms, log records, risk points, lost regions, notices (16). -/

namespace Sys2Proof.Machine

/-- A Spine is in service (16 R406, R407). -/
def State.spineUp (s : State) : Bool := s.spine.up0 || s.spine.up1

def AlarmKind.number (k : AlarmKind) : Nat := k.ctorIdx

def State.eth (s : State) (e : Nat) : Eth := Sparse.get Eth.reset s.net.eth e
def State.setEth (s : State) (e : Nat) (x : Eth) : State :=
  { s with net := { s.net with eth := Sparse.set Eth.reset s.net.eth e x } }
def State.session (s : State) (id : Nat) : Option Session := Sparse.get none s.net.sessions id

/-- An Ethernet port carries packets out: up, or draining what it holds (12 R324). -/
def Eth.isUp (x : Eth) : Bool := x.state == .up

/-- The last source of a session on the network of a port (12 R306). -/
def Session.sourceOn (x : Session) (e : Nat) : Option Nat := if e / 4 = 0 then x.sourceA else x.sourceB

/-- The port that notices of a session leave by: that of its last request, else the lowest that is up on the same network, else one on the other
network when the session has a source there (12 R306). -/
def State.noticePort (s : State) (x : Session) : Option Nat :=
  let find (net : Nat) : Option Nat := ((List.range 4).map (4 * net + ·)).find? fun e => (s.eth e).isUp && (x.sourceOn e).isSome
  if (s.eth x.port).isUp then some x.port
  else match find (x.port / 4) with
    | some e => some e
    | none => find (1 - x.port / 4)

/-- Where what leaves by a port for a session goes: its last source on that network (12 R306). -/
def Session.dest (x : Session) (e : Nat) : Nat := if e / 4 = x.port / 4 then x.source else (x.sourceOn e).getD x.source

def State.send (s : State) (o : NetOut) : State := { s with net := { s.net with sent := s.net.sent ++ [o] } }

/-- The device owner hears every notice; the owner of a quire those about it. -/
def Role.hears (q : Option Nat) : Role → Bool
  | .owner => true
  | .quire p => q == some p
  | .noRole => false

/-- The subscription takes the notice. -/
def State.takes (s : State) (b : Sub) (n : Notice) : Bool :=
  b.classes.getLsbD n.cls && match s.session b.session with | some x => x.role.hears n.quire | none => false

/-- A notice goes to one subscription; with nowhere to go it is counted (12 R306, log 102). -/
def State.sendNotice (s : State) (n : Notice) (b : Sub) : State :=
  match s.session b.session with
  | none => s
  | some x =>
    match s.noticePort x with
    | none => s.setEth x.port { s.eth x.port with undeliv := satAdd 16 (s.eth x.port).undeliv 1 }
    | some e =>
      { s with net := { s.net with noticeSeq := s.net.noticeSeq + 1 } }.send
        (.notice b.session b.id n.cls s.net.noticeSeq e (if e / 4 = x.port / 4 then b.dest else x.dest e) n.tlvs)

/-- A notice leaves, to every subscription that takes it; a log record so delivered is no loss when it is overwritten (16 R409), and a trace notice carries the
drop count (R410). -/
def State.deliver (s : State) (n : Notice) : State :=
  let n := if n.cls = 2 then { n with tlvs := n.tlvs ++ [{ type := 0x82, vals := [s.traceLost] }] } else n
  let s := (s.net.subs.filter fun b => s.takes b n).foldl (fun s b => s.sendNotice n b) s
  if n.cls = 1 then { s with logRead := max s.logRead (n.about + 1) } else s

/-- As many waiting notices leave as the share lets out: alarms first, then logs, then traces (12 R320, 16 R410; log 103). -/
def State.exportNow (s : State) : State :=
  if s.net.waiting.isEmpty || s.net.share = 0 then s
  else
    let (f, s) := s.takeFree
    let of (k : Nat) : List Notice := s.net.waiting.filter fun n => n.cls == k
    let ns := of 0 ++ of 1 ++ of 2
    let s : State := { s with net := { s.net with waiting := ns.drop (Config.shareRoom f) } }
    (ns.take (Config.shareRoom f)).foldl State.deliver s

/-- A notice joins those that wait when a subscription takes it; an alarm takes the place of an earlier form of its record (16 R408). -/
def State.notify (s : State) (n : Notice) : State :=
  if s.net.subs.any fun b => s.takes b n then
    let rest := s.net.waiting.filter fun w => !(n.cls == 0 && w.cls == 0 && w.quire.isNone && n.quire.isNone && w.about == n.about)
    { s with net := { s.net with waiting := rest ++ [n] } }.exportNow
  else s

/-- 16 R409: a record joins the log queue of 4,096; when it is full the record is lost and counted. -/
def State.log (s : State) (k : AlarmKind) (arg : Nat) : State :=
  if s.logQ.length < 4096 then
    { s with logQ := s.logQ ++ [{ seq := s.logSeq, kind := k, arg := arg }], logSeq := s.logSeq + 1 }
  else { s with logLost := s.logLost + 1 }

/-- 16 R408: an alarm raises the count of its record, or makes one, and is noticed. Without a Spine nothing raises one. -/
def State.alarm (s : State) (k : AlarmKind) (arg : Nat) : State :=
  if !s.spineUp then s else
  let n := s.alarmSeq + 1
  let r := match Sparse.get none s.alarms k.number with
    | none => ({ count := 1, first := n, last := n } : Alarm)
    | some r => { r with count := satAdd 32 r.count 1, last := n }
  let s := { s with alarmSeq := n, alarms := Sparse.set none s.alarms k.number (some r) }.log k arg
  s.notify { cls := 0, quire := none, about := k.number, tlvs := [{ type := 0x81, vals := [k.number, r.count, r.first, r.last] }] }

/-- SMB_ALERT_N is asserted: an alarm record is unacknowledged (17 Table 17-3). The pin has no state of its own. -/
def State.smbAlert (s : State) : Bool := s.alarms.any fun e => e.2.isSome

/-- The points of the conditions of 16 Table 16-2 that hold now. -/
def State.conditions (s : State) : Nat :=
  let pts (b : Bool) (n : Nat) : Nat := if b then n else 0
  pts (s.power.state == .switching || s.power.state == .single) 64 +
  pts (s.spine.up0 != s.spine.up1) 64 +
  (if s.hbm.any (fun e => e.2.level == 0) then 64 else pts (s.hbm.any fun e => decide (e.2.level ≤ 4)) 16) +
  pts (s.islands.any fun e => decide (e.2.heat < e.2.ceiling) || decide (e.2.stack < e.2.ceiling) || e.2.hot) 16 +
  pts (s.mem.restripe ≠ .idle) 16 +
  pts (decide (s.mem.n < 624)) 32 +
  pts (s.chans.any fun e => decide (2 ≤ e.2.fails) && e.2.state ≠ .mappedOut) 32 +
  min 32 (8 * (s.splice.ports.filter fun e => e.2.member && e.2.state == .failed).length) +
  min 32 (8 * (s.tiles.filter fun e => e.2.use == .unavailable).length)

/-- The risk estimate (16 R383). -/
def State.riskNow (s : State) : Nat := min 255 (s.conditions + s.score)

/-- Post a NOTICE kind on a tile (16 R384): its bit, the risk at the posting, and line 1 on every strand. -/
def Tile.post (x : Tile) (kind : Nat) (risk : Nat) (group : Option Nat) : Tile :=
  let n := setBits (x.notice.toNat ||| 2 ^ kind) 16 8 risk
  let n := match group with | some g => setBits n 24 12 g | none => n
  let y := { x with notice := BitVec.ofNat 64 n }
  allStrands.foldl (fun y h => y.updStrand h fun r => r.pend 2) y

def State.tilesOf (s : State) (q : Nat) : List TileId :=
  allTiles.filter fun t => (s.tile t).assigned && (s.tile t).quire.toNat == q

/-- Post a NOTICE kind to a quire: on every tile of it, and as a notice to its owner and the device owner (16 R384). -/
def State.post (s : State) (q kind : Nat) (group : Option Nat) : State :=
  if !s.spineUp then s else
  let s := (s.tilesOf q).foldl (fun s t => s.updTile t fun x => x.post kind s.riskNow group) s
  s.notify { cls := 0, quire := some q, about := kind, tlvs := [{ type := 0x82, vals := [q, kind] ++ group.toList }] }

def State.runningQuires (s : State) : List Nat := (s.quires.filter fun e => e.2.use == .running).map (·.1)

/-- The notices of 16 R384: kind 0 from 96, kind 1 and an alarm from 192, each again only after a fall below 80 or 160. -/
def State.watchRisk (s : State) : State :=
  let r := s.riskNow
  let v := s.survive
  let up0 := decide (96 ≤ r) && !v.posted0
  let up1 := decide (192 ≤ r) && !v.posted1
  let s := { s with survive := { v with
    posted0 := up0 || (v.posted0 && decide (80 ≤ r)), posted1 := up1 || (v.posted1 && decide (160 ≤ r)) } }
  let s := if up0 then s.runningQuires.foldl (fun s q => s.post q 0 none) s else s
  if up1 then (s.runningQuires.foldl (fun s q => s.post q 1 none) s).alarm .riskUrgent r else s

/-- 16 R383: an event adds its points to the event score, up to 255. -/
def State.risk (s : State) (points : Nat) : State := { s with score := min 255 (s.score + points) }.watchRisk

/-- A region becomes lost (09 R230, 16 R386): listed, its quire noticed, the risk raised. -/
def State.loseRegion (s : State) (i : Nat) : State :=
  let r := s.region i
  if r.state = .lost then s
  else
    let s := s.setRegion i { r with state := .lost }
    (({ s with lost := s.lost ++ [i] }.risk 48).alarm .regionLost i).post r.quire 6 none

/-- Visible capacity in GiB with N live channels (09 R221). -/
def capacity (n : Nat) : Nat := min 1248 (2 * n)

/-- The regions from one capacity in GiB to another. -/
def regionsBetween (lo hi : Nat) : List Nat := (List.range ((hi - lo) * 512)).map (lo * 512 + ·)

/-- A restripe that takes channel `c` out begins (09 R240); the channel never returns to the map for the life of the module (R219). -/
def State.beginRestripe (s : State) (c : Nat) : State :=
  let old := chmapWithout s.mem.removed
  let ch := s.chan c
  let s := if ch.state = .dead then s else s.setChan c { ch with state := .source }
  { s with mem := { s.mem with removed := s.mem.removed ++ [c], restripe := .running, target := c,
                               oldidx := old.findIdx (· == c), wm := 0 }
           flash := { s.flash with channels := if s.flash.channels.contains c then s.flash.channels else s.flash.channels ++ [c] } }

/-- The restripe of channel `c` begins, or waits until the regions that will vanish are free, which are
condemned meanwhile (09 R244). -/
def State.tryRestripe (s : State) (c : Nat) : State :=
  let rs := regionsBetween (capacity (s.mem.n - 1)) (capacity s.mem.n)
  let s := rs.foldl (fun s i => if (s.region i).state = .free then s.setRegion i { s.region i with state := .condemned } else s) s
  if rs.all fun i => (s.region i).state == .condemned then s.beginRestripe c
  else { s with mem := { s.mem with restripe := .waiting, target := c } }.alarm .restripeWait c

/-- One restripe at a time: the oldest candidate is taken when none runs (09 R240, 16 R385). -/
def State.nextRestripe (s : State) : State :=
  match s.mem.restripe, s.mem.waiting with
  | .idle, c :: rest => { s with mem := { s.mem with waiting := rest } }.tryRestripe c
  | _, _ => s

/-- A channel becomes a candidate for map-out (09 R239, 16 R385). -/
def State.candidate (s : State) (c : Nat) (first : Bool) : State :=
  let st := (s.chan c).state
  if st = .mappedOut || st = .source || st = .untrained || s.mem.waiting.contains c ||
      (s.mem.restripe ≠ .idle && s.mem.target == c) then s
  else { s with mem := { s.mem with waiting := if first then c :: s.mem.waiting else s.mem.waiting ++ [c] } }.nextRestripe

/-- What the system code finds, or the core die reports, when the unit at a local address is read (09 Table 09-1, R229, R230, R236;
16 R383, R385). -/
def State.noteEcc (s : State) (a : Nat) (e : Ecc) : State :=
  let c := s.channelOf a
  let ch := s.chan c
  match e with
  | .ok => s
  | .onDie => s.setChan c { ch with odecc := satAdd 16 ch.odecc 1 }
  | .corrected =>
    let ch := { ch with corr := satAdd 32 ch.corr 1 }
    let thr := (s.stackOf (c / 32)).errthr
    let ch := { ch with due := ch.due || decide (thr ≤ ch.corr - ch.corrAt) }
    let s : State := { s.setChan c ch with corrSum := s.corrSum + 1 }
    let s := if s.corrSum % 4096 = 0 then s.risk 1 else s
    if 16 * thr ≤ ch.corr - ch.corrAt then s.candidate c false else s
  | .bad =>
    let s := s.setChan c { ch with uncorr := satAdd 16 ch.uncorr 1 }
    let s := s.setStack (c / 32) { s.stackOf (c / 32) with errAddr := a / 32 * 32, errChan := c }
    s.loseRegion (a / 2 ^ 21)

end Sys2Proof.Machine
end

