-- ==== Sys2Proof/Machine/Store.lean ====
section
/-! DEFINITION. The tile store (08) and what a tile sends to stacks. -/

namespace Sys2Proof.Machine

/-- Credits of a tile for a stack port (01 R27): 8 at reset. -/
def Tile.credit (x : Tile) (m : Nat) : Nat := Sparse.get 8 x.credits m

/-- A tile's request-class packet enters the mesh with a credit of its stack port, or waits in the tile (01 R27). -/
def State.inject (s : State) (t : TileId) (m : StackId) (p : MPacket) : State :=
  let x := s.tile t
  if x.credit m.val = 0 || x.unsent.any (fun q => q.dst == .stack m) then
    s.setTile t { x with unsent := x.unsent ++ [p] }
  else
    { s.setTile t { x with credits := Sparse.set 8 x.credits m.val (x.credit m.val - 1) } with mesh := s.mesh ++ [p] }

/-- A returned credit lets the oldest waiting packet for that port go (01 R27). -/
def State.creditBack (s : State) (t : TileId) (m : StackId) : State :=
  let x := s.tile t
  match x.unsent.find? (fun q => q.dst == .stack m) with
  | none => s.setTile t { x with credits := Sparse.set 8 x.credits m.val (x.credit m.val + 1) }
  | some p => { s.setTile t { x with unsent := x.unsent.erase p } with mesh := s.mesh ++ [p] }

def stackOfChan (c : Nat) : StackId := Fin.ofNat 20 (c / 32)

/-- Send a memory request of a tile to the stack that owns its address; the new ask's number comes back. -/
def State.ask (s : State) (t : TileId) (h : StrandId) (kind : AskKind) (va : Word) (addr : Nat) (isSeal : Bool) (b : Body) :
    Nat × State :=
  let (tag, s) := s.takeTag
  let s := s.updTile t fun x =>
    { x with asks := x.asks ++ [{ tag := tag, kind := kind, h := h, va := va, addr := addr, remote := false }] }
  let m := stackOfChan (s.channelOf addr)
  (tag, s.inject t m { cls := .request, src := .tile t, dst := .stack m, tag := tag, quire := (s.tile t).quire.toNat,
                       isSeal := isSeal, copy := false, body := b })

def setOf (a : Nat) : Nat := a / 256 % 1536
def sectorOf (a : Nat) : Nat := a / 64 % 4

/-- Set `k` holds a locked backstop line in way 15 (08 R196). -/
def Tile.locked (x : Tile) (k : Nat) : Bool :=
  x.bsBase ≠ 0 && decide ((k + 1536 - x.bsPhys.toNat / 256 % 1536) % 1536 < 64)
def Tile.ways (x : Tile) (k : Nat) : Nat := if x.locked k then 15 else 16

def Tile.lineAt (x : Tile) (k w : Nat) : Option Line := Sparse.get none x.lines (16 * k + w)
def Tile.setLine (x : Tile) (k w : Nat) (l : Option Line) : Tile :=
  { x with lines := Sparse.set none x.lines (16 * k + w) l }

/-- The way that holds the line of an address. -/
def Tile.wayOf (x : Tile) (a : Nat) : Option Nat :=
  (List.range (x.ways (setOf a))).find? fun w =>
    match x.lineAt (setOf a) w with | some l => l.tag == a / 256 | none => false

def Line.bytesAt (l : Line) (off n : Nat) : List Byte :=
  (List.range n).map fun i => BitVec.ofNat 8 (l.data.toNat / 256 ^ (off + i))

/-- The words of a line that [off, off + n) meets, and those that it covers (08 R197). -/
def wordsMet (off n : Nat) : BitVec 32 := if n = 0 then 0 else BitVec.ofNat 32 (2 ^ ((off + n - 1) / 8 + 1) - 2 ^ (off / 8))
def wordsCovered (off n : Nat) : BitVec 32 := BitVec.ofNat 32 (2 ^ ((off + n) / 8) - 2 ^ ((off + 7) / 8))
/-- The words of the sectors of a mask. -/
def wordsOf (m : BitVec 4) : BitVec 32 :=
  BitVec.ofNat 32 ((List.range 4).map fun i => if m.getLsbD i then 255 * 256 ^ i else 0).sum

/-- Write bytes; a word that is written whole gets a new code (08 R197). -/
def Line.put (l : Line) (off : Nat) (bs : List Byte) : Line :=
  { l with data := BitVec.ofNat 2048 (setBits l.data.toNat (8 * off) (8 * bs.length) (leNat bs))
           weak := l.weak &&& ~~~ wordsCovered off bs.length, torn := l.torn &&& ~~~ wordsCovered off bs.length }
def Line.empty (a : Nat) (untouched isSeal : Bool) : Line :=
  { tag := a / 256, valid := 0, dirty := 0, untouched := untouched, isSeal := isSeal, data := 0, weak := 0, torn := 0 }

def bit4 (i : Nat) : BitVec 4 := 1#4 <<< i

/-- Every sector that [a, a + n) meets is present (within one line). -/
def Tile.present (x : Tile) (a n : Nat) : Bool :=
  match x.wayOf a with
  | none => false
  | some w => match x.lineAt (setOf a) w with
    | none => false
    | some l => (List.range 4).all fun k => !(decide (64 * k < a % 256 + n) && decide (a % 256 < 64 * k + 64)) || l.valid.getLsbD k

/-- Bytes of a line that is present; a demand access touches it (08 R207). -/
def Tile.readLine (x : Tile) (a n : Nat) : List Byte :=
  match x.wayOf a with
  | none => []
  | some w => match x.lineAt (setOf a) w with
    | none => []
    | some l => l.bytesAt (a % 256) n

/-- Way `w` of set `k` is the most recently used (08 R194). -/
def Tile.useWay (x : Tile) (k w : Nat) : Tile :=
  { x with recent := Sparse.set [] x.recent k (w :: (Sparse.get [] x.recent k).filter (· ≠ w)) }

/-- A demand access hits the line of an address (08 R194, R207). -/
def Tile.touch (x : Tile) (a : Nat) : Tile :=
  match x.wayOf a with
  | none => x
  | some w => match x.lineAt (setOf a) w with
    | some l => (if l.untouched then x.setLine (setOf a) w (some { l with untouched := false }) else x).useWay (setOf a) w
    | none => x

/-- Write bytes into present sectors and mark them dirty or leave them clean (08 Table 08-1). -/
def Tile.writeLine (x : Tile) (a : Nat) (bs : List Byte) (dirty : Bool) : Tile :=
  match x.wayOf a with
  | none => x
  | some w => match x.lineAt (setOf a) w with
    | none => x
    | some l =>
      let l := { l.put (a % 256) bs with untouched := false }
      (x.setLine (setOf a) w (some (if dirty then { l with dirty := l.dirty ||| bit4 (sectorOf a) } else l))).useWay (setOf a) w

/-- Make one whole sector present with the given bytes (08 R200). -/
def Tile.fillSector (x : Tile) (w : Nat) (a : Nat) (bs : List Byte) (dirty untouched : Bool) : Tile :=
  match x.lineAt (setOf a) w with
  | none => x
  | some l =>
    let l := l.put (64 * sectorOf a) bs
    x.setLine (setOf a) w (some { l with
      valid := l.valid ||| bit4 (sectorOf a)
      dirty := if dirty then l.dirty ||| bit4 (sectorOf a) else l.dirty &&& ~~~ bit4 (sectorOf a)
      untouched := untouched })

/-- An access that reads words `ws` of the line of an address meets an error (08 R197). -/
def Tile.hurt (x : Tile) (a : Nat) (ws : BitVec 32) : Bool :=
  match x.wayOf a with
  | none => false
  | some w => match x.lineAt (setOf a) w with
    | none => false
    | some l => (l.weak ||| l.torn) &&& wordsOf l.valid &&& ws != 0

def fillingLine (x : Tile) (line : Nat) : Bool :=
  x.asks.any fun k => match k.kind with | .fill .. => k.addr / 256 == line | _ => false

/-- The errors in words `ws` of a line are met (08 R197): what the code can correct is counted; the sector of a word that it cannot
correct is invalidated, and where that sector is dirty it is recorded and its region is lost. The access then goes on: it hits, or
misses and fetches the sector again, which a lost region refuses with the memory error (09 R231). -/
def State.mendLine (s : State) (t : TileId) (k w : Nat) (ws : BitVec 32) : State :=
  match (s.tile t).lineAt k w with
  | none => s
  | some l =>
    let weak := l.weak &&& wordsOf l.valid &&& ws
    let torn := l.torn &&& wordsOf l.valid &&& ws
    let secs := (List.range 4).filter fun i => wordsOf (bit4 i) &&& torn != 0
    let off : BitVec 4 := secs.foldl (fun m i => m ||| bit4 i) 0
    let v := l.valid &&& ~~~ off
    let s := s.updTile t fun x => { x.setLine k w (if v = 0 && !fillingLine x l.tag then none else
        some { l with valid := v, dirty := l.dirty &&& ~~~ off, weak := l.weak &&& ~~~ weak }) with
      tsCorr := satAdd 16 x.tsCorr (onesOf weak).length, tsUncorr := satAdd 16 x.tsUncorr secs.length }
    (secs.filter fun i => l.dirty.getLsbD i).foldl (fun s i =>
      (s.updTile t fun x => { x with tsAddr := l.tag * 256 + 64 * i }).loseRegion (l.tag * 256 / 2 ^ 21)) s
def State.mend (s : State) (t : TileId) (a : Nat) (ws : BitVec 32) : State :=
  match (s.tile t).wayOf a with
  | none => s
  | some w => s.mendLine t (setOf a) w ws

/-- Hand the dirty sectors of a line to the mesh as write-backs and leave them clean (08 R202, Table 08-2).
`who` is the strand whose maintenance instruction started it. -/
def State.cleanLine (s : State) (t : TileId) (k w : Nat) (who : Option StrandId) (mask : BitVec 4) : State :=
  let s := match (s.tile t).lineAt k w with
    | none => s
    | some l => s.mendLine t k w (wordsOf (l.dirty &&& mask))
  match (s.tile t).lineAt k w with
  | none => s
  | some l =>
    let s := (List.range 4).foldl (fun s i =>
      if l.dirty.getLsbD i && mask.getLsbD i then
        (s.ask t (who.getD 0) (.writeback who) 0 (l.tag * 256 + 64 * i) l.isSeal
          (.write (l.tag * 256 + 64 * i) (BitVec.allOnes 64) (l.bytesAt (64 * i) 64))).2
      else s) s
    s.updTile t fun x => x.setLine k w (some { l with dirty := l.dirty &&& ~~~ mask })

/-- The usable ways of a set that replacement may pick from: a way whose line has a fill in flight is kept for it (08 R202), and of the others the
most recently used one is spared (R194). -/
def Tile.victims (x : Tile) (k : Nat) : List Nat :=
  let ws := (List.range (x.ways k)).filter fun w => match x.lineAt k w with | some l => !fillingLine x l.tag | none => true
  match ws.filter fun w => (Sparse.get [] x.recent k).head? ≠ some w with
  | [] => ws
  | old => old

/-- Find a way for the line of `a`: its own, a free one, or one that replacement picks, whose dirty sectors are written back first; it is then
the set's most recently used, also for a prefetch (08 R194, R202). Which of the candidates pseudo-LRU picks is open (log 6). None: every way
waits for a fill. -/
def State.allocLine (s : State) (t : TileId) (a : Nat) (untouched isSeal : Bool) : Option (Nat × State) :=
  let x := s.tile t
  let k := setOf a
  match x.wayOf a with
  | some w => some (w, s.updTile t fun x => x.useWay k w)
  | none =>
    match (List.range (x.ways k)).find? (fun w => (x.lineAt k w).isNone) with
    | some w => some (w, s.setTile t ((x.setLine k w (some (Line.empty a untouched isSeal))).useWay k w))
    | none =>
      let (f, s) := s.takeFree
      match (x.victims k)[Config.victimWay (x.victims k).length f % (x.victims k).length]? with
      | none => none
      | some w =>
        let s := s.cleanLine t k w none (BitVec.allOnes 4)
        some (w, s.updTile t fun x => (x.setLine k w (some (Line.empty a untouched isSeal))).useWay k w)

/-- Send a merging-buffer entry to memory with its masked bytes (08 R199). -/
def State.sendMerge (s : State) (t : TileId) (e : MergeEntry) : State :=
  let bs := (List.range 64).map fun i => BitVec.ofNat 8 (e.data.toNat / 256 ^ i)
  let s := s.updTile t fun x => { x with mbuf := x.mbuf.erase e }
  (s.ask t 0 (.merged e.owners) 0 e.addr e.isSeal (.write e.addr e.mask bs)).2

/-- Send the merging-buffer entries of a sector (08 R199). -/
def State.flushMerge (s : State) (t : TileId) (a : Nat) : State :=
  ((s.tile t).mbuf.filter (fun e => e.addr == a / 64 * 64)).foldl (fun s e => s.sendMerge t e) s

/-- Clean and invalidate the sector of an address before an atomic goes to memory (08 R204). -/
def State.giveUpSector (s : State) (t : TileId) (a : Nat) : State :=
  match (s.tile t).wayOf a with
  | none => s
  | some w =>
    let s := s.cleanLine t (setOf a) w none (bit4 (sectorOf a))
    s.updTile t fun x => match x.lineAt (setOf a) w with
      | none => x
      | some l => x.setLine (setOf a) w (some { l with valid := l.valid &&& ~~~ bit4 (sectorOf a) })

/-- Request the absent sectors of a line, the demanded one first; merging-buffer entries for it go before (08 R199, R200). A line on its way
is only touched by a demand. -/
def State.requestLine (s : State) (t : TileId) (h : StrandId) (va : Word) (a : Nat) (isSeal : Bool)
    (stream : Option Nat) (demand : Bool) :
    Option Nat × State :=
  let x := s.tile t
  if fillingLine x (a / 256) then
    (x.asks.findSome? fun k => match k.kind with
      | .fill .. => if k.addr / 256 == a / 256 then some k.tag else none | _ => none,
      if demand then s.updTile t fun x => x.touch a else s)
  else
    let s := (x.mbuf.filter (fun e => e.addr / 256 == a / 256)).foldl (fun s e => s.sendMerge t e) s
    match s.allocLine t a (!demand) isSeal with
    | none => (none, s)
    | some (w, s) =>
      let have4 := match (s.tile t).lineAt (setOf a) w with | some l => l.valid | none => 0
      let order := (List.range 4).map (fun i => (sectorOf a + i) % 4)
      let want := order.filter (fun i => !have4.getLsbD i)
      if want.isEmpty then (none, s)
      else
        let (tag, s) := s.ask t h (.fill stream demand) va a isSeal (.fill (a / 256) want)
        (some tag, s)

/-- A demand miss: request the line, and the next one under TS_CTL.nlp (08 R206). -/
def State.missLine (s : State) (t : TileId) (h : StrandId) (va : Word) (a : Nat) (isSeal : Bool) : Option Nat × State :=
  let s := if fillingLine (s.tile t) (a / 256) then s else s.countTile t 3 1
  let (tag, s) := s.requestLine t h va a isSeal none true
  let b := (a / 256 + 1) * 256
  if (s.tile t).tsCtl.getLsbD 0 && b / 65536 == a / 65536 && ((s.tile t).wayOf b).isNone && !fillingLine (s.tile t) (b / 256)
  then (tag, (s.requestLine t h va b isSeal none false).2)
  else (tag, s)

def StoreBy.h : StoreBy → StrandId
  | .strand h => h
  | .op h _ => h

/-- Put the bytes of a write-through store into the merging buffer; none when it must wait (08 R199). -/
def State.mergeIn (s : State) (t : TileId) (who : StoreBy) (a : Nat) (isSeal : Bool) (bs : List Byte) : Option State :=
  let x := s.tile t
  let sec := a / 64 * 64
  let m : BitVec 64 := BitVec.ofNat 64 ((2 ^ bs.length - 1) * 2 ^ (a % 64))
  let add (e : MergeEntry) : MergeEntry :=
    { e with mask := e.mask ||| m, data := BitVec.ofNat 512 (setBits e.data.toNat (8 * (a % 64)) (8 * bs.length) (leNat bs)),
             owners := if e.owners.contains who then e.owners else e.owners ++ [who] }
  let finish (s : State) (e : MergeEntry) : State :=
    if e.mask = BitVec.allOnes 64 || bitsOf x.tsCtl.toNat 8 8 = 0 then s.sendMerge t e else s
  match x.mbuf.find? (·.addr == sec) with
  | some e => some (finish (s.setTile t { x with mbuf := x.mbuf.map fun o => if o.addr == sec then add e else o }) (add e))
  | none =>
    let e := add { addr := sec, mask := 0, data := 0, isSeal := isSeal, owners := [] }
    if x.mbuf.length < 8 then some (finish (s.setTile t { x with mbuf := x.mbuf ++ [e] }) e)
    else match x.mbuf with
      | [] => none
      | o :: _ =>
        let s := s.sendMerge t o
        some (finish (s.updTile t fun x => { x with mbuf := x.mbuf ++ [e] }) e)

/-- The sectors that [a, a + n) meets, as base addresses. -/
def sectorsOf (a n : Nat) : List Nat :=
  if n = 0 then [] else (List.range ((a + n - 1) / 64 - a / 64 + 1)).map fun i => (a / 64 + i) * 64

/-- The part of [a, a + bs.length) that lies in one sector. -/
def sliceOf (a : Nat) (bs : List Byte) (sec : Nat) : Nat × List Byte :=
  let lo := max a sec
  (lo, (bs.drop (lo - a)).take (sec + 64 - lo))

/-- Write one slice, within one sector, through the tile store under its page's policy. False: it must first wait, for a fill or
for room, or has met an error in a word that it writes in part (08 R197). A whole sector needs no fill (R200); a store that meets a fill in
flight waits for it (R205). -/
def State.putSlice (s : State) (t : TileId) (who : StoreBy) (va : Word) (p : Policy) (a : Nat) (isSeal : Bool)
    (bs : List Byte) : Bool × State :=
  let part := wordsMet (a % 256) bs.length &&& ~~~ wordsCovered (a % 256) bs.length
  if p ≠ .uncached ∧ (s.tile t).hurt a part then (false, s.mend t a part)
  else match p with
  | .uncached => (true, s)
  | .writeBack =>
    if (s.tile t).present a bs.length then (true, s.updTile t fun x => x.writeLine a bs true)
    else if fillingLine (s.tile t) (a / 256) then (false, s)
    else if bs.length = 64 then
      match s.allocLine t a false isSeal with
      | none => (false, s)
      | some (w, s) => (true, s.updTile t fun x => x.fillSector w a bs true false)
    else (false, (s.missLine t who.h va a isSeal).2)
  | .writeThrough =>
    if !(s.tile t).present a bs.length && fillingLine (s.tile t) (a / 256) then (false, s)
    else match s.mergeIn t who a isSeal bs with
      | none => (false, s)
      | some s => (true, s.updTile t fun x => if x.present a bs.length then x.writeLine a bs false else x)

/-- Backstop bytes (08 R196). -/
def Tile.backstopRead (x : Tile) (off n : Nat) : List Byte := Sparse.getList 0 x.backstop off n
def Tile.backstopWrite (x : Tile) (off : Nat) (bs : List Byte) : Tile :=
  { x with backstop := Sparse.setList 0 x.backstop off bs }

/-- The 32 B units that [a, a + n) meets: the narrow requests of an uncached access (09 R223). -/
def unitSplit (a : Nat) (bs : List Byte) : List (Nat × List Byte) :=
  (List.range ((a % 32 + bs.length + 31) / 32)).map fun i =>
    let lo := if i = 0 then a else (a / 32 + i) * 32
    (lo, (bs.drop (lo - a)).take ((a / 32 + i + 1) * 32 - lo))

/-- Send the bytes of an uncached or remote store as requests. -/
def State.sendStore (s : State) (t : TileId) (h : StrandId) (kind : AskKind) (va : Word) (x : Xlate) (bs : List Byte) : State :=
  if x.target = .remote then (s.askRemote t h kind va x.addr (.write x.addr (BitVec.allOnes 64) bs)).2
  else (unitSplit x.addr bs).foldl (fun s u =>
    (s.ask t h kind va u.1 x.isSeal (.write u.1 (BitVec.allOnes 64) u.2)).2) s

end Sys2Proof.Machine
end

