-- ==== Sys2Proof/Machine/TileFault.lean ====
section
/-! DEFINITION. What a tile operation needs of its slots, and how a fault of one is recorded and cancels others
(06 R141–R143; 07 R180, R188–R190, Table 07-9). -/

namespace Sys2Proof

/-- rl (07 Table 07-4). -/
def QF.rowLen (f : QF) : Nat := 128 * 2 ^ f.rl.toNat
def QF.rows (f : QF) : Nat := f.nrow.toNat + 1

end Sys2Proof

namespace Sys2Proof.Machine

/-- The rows of 06 Table 06-1, each with and without MX, and INT32 for the semiring operations. -/
inductive MRow where
  | f64 | f32 | f16 | f8 | i8 | f4 | i4 | b1 | i32
deriving DecidableEq, Repr

def rowOf (fmt : Nat) : Option MRow :=
  match fmt with
  | 9 => some .f64 | 8 => some .f32 | 6 | 7 => some .f16 | 10 | 11 | 12 | 13 => some .f8 | 1 => some .i8
  | 14 => some .f4 | 5 => some .i4 | 15 => some .b1 | 3 => some .i32 | _ => none

/-- Products per cell per beat (06 Table 06-1, Table 06-8 for INT32). -/
def MRow.g : MRow → Nat
  | .f64 => 1 | .f32 | .i32 => 2 | .f16 => 4 | .f8 | .i8 => 8 | .f4 | .i4 => 16 | .b1 => 64
/-- Width of an operand. -/
def MRow.w (r : MRow) : Nat := 64 / r.g
/-- Floating, integer or binary: operands of different sorts never meet (06 R142). -/
def MRow.sort : MRow → Nat
  | .f64 | .f32 | .f16 | .f8 | .f4 => 0 | .i8 | .i4 | .i32 => 1 | .b1 => 2
def MRow.isNarrow (r : MRow) : Bool := r == .f8 || r == .f4

/-- The slot kind an operation requires (06 Table 06-1, Table 06-8): 0 FP32, 1 FP64, 2 INT32, 3 long. -/
def MRow.kind (r : MRow) (mx : Bool) : Nat :=
  match r with
  | .f64 => 1 | .f32 | .f16 => 0 | .f8 | .f4 => if mx then 0 else 3 | .i8 | .i4 | .b1 | .i32 => 2

/-- The accumulator slot that an operation names (07 R174). -/
def TInstr.slot : TInstr → Option Nat
  | .mat .twld _ => none
  | .mat _ f => some (4 * f.arr.toNat + f.acc.toNat)
  | .mem .tld _ => none
  | .mem .tst _ => none
  | .mem _ f => some (4 * f.arr.toNat + f.acc.toNat)

/-- Bits [2s + 1 : 2s] of TILE_CFG (07 Table 07-2). -/
def kindOf (cfg : Word) (slot : Nat) : Nat := bitsOf cfg.toNat (2 * slot) 2

/-- The slot kind that a matrix operation requires. -/
def TInstr.needs : TInstr → Option Nat
  | .mat .twld _ => none
  | .mat _ f => (rowOf f.fmt.toNat).map (·.kind f.mx)
  | _ => none

/-- nrow, rl, mode or drow that the operation does not take (07 Table 07-4, R185). -/
def badRows (k : QKind) (f : QF) : Bool :=
  match k with
  | .tacld | .tacst => f.nrow ≠ 15
  | .tld => f.mode ≠ 0 && (f.nrow ≠ 15 || f.rl ≠ 0 || f.drow.toNat % 16 ≠ 0 ||
      (match rowOf f.fo.toNat with | none => true | some r => r == .i32) ||
      (f.mode = 2 && (f.pk || f.fm = 0 || f.fm = 15 || f.fm = 5 || f.fm = 14)))
  | _ => false

/-- Bits of a slot's container (07 Table 07-1). -/
def containerBits (kind : Nat) : Nat := match kind with | 1 => 64 | 3 => 128 | _ => 32

/-- Bits of an element that a tacst writes into an operand slot: of format fo, or the container as it is (07 R187). -/
def outBits (f : QF) (kind : Nat) : Nat := if f.raw then containerBits kind else widthOf f.fo.toNat

/-- The operation would write or read past its operand slot (07 R185, R187, Table 07-9 reason 0x04). -/
def badExtent (k : QKind) (f : QF) (kind : Nat) : Bool :=
  match k with
  | .tld => f.mode = 0 && decide (16384 < 128 * f.drow.toNat + f.rows * f.rowLen)
  | .tst => decide (16384 < 128 * f.drow.toNat + f.rows * f.rowLen)
  | .tacst => f.tosl && decide (16384 < 128 * f.drow.toNat + 32 * outBits f kind)
  | _ => false

/-- Reasons 0x02 and 0x09, checked again at re-issue (07 R190); and reason 0x04, which only an entry of a forged replay area can show there: it
can only fault (R192). -/
def TOp.recheck (o : TOp) (cfg : Word) : Option Nat :=
  let kindBad := match o.instr.slot with
    | none => false
    | some s => kindOf o.cfg s ≠ kindOf cfg s || (match o.instr.needs with | none => false | some k => k ≠ kindOf cfg s)
  if kindBad then some 2
  else match o.instr with
    | .mem k f => if badRows k f then some 9 else if badExtent k f (match o.instr.slot with | some s => kindOf o.cfg s | none => 0) then some 4 else none
    | _ => none

/-- The operation becomes a held entry (07 R188, R190). -/
def TOp.hold (o : TOp) (described : Bool) : TOp :=
  { o with held := true, tag := none, described := described, reissued := false, granted := false, begun := false,
           row := 0, pos := 0, wait := none, bad := none, staged := [], out := [], flags := 0 }

def TInstr.isLoad : TInstr → Bool
  | .mat .twld _ => true
  | _ => false

/-- Forget the request that an operation waits for, so that its answer is discarded. -/
def Tile.dropWait (x : Tile) (o : TOp) : Tile :=
  match o.wait with
  | none => x
  | some tag =>
    if x.asks.any (fun k => k.tag == tag && k.kind == .read) then
      { x with asks := x.asks.filter (·.tag ≠ tag), inbox := x.inbox.filter (·.tag ≠ tag) }
    else x

/-- The working copy of a slot takes what the shadow holds (07 R175). -/
def Tile.restoreSlot (x : Tile) (slot : Nat) : Tile :=
  { x with acc := (List.range 256).foldl (fun m i => Sparse.set 0 m (256 * slot + i) (Sparse.get 0 x.shadow (256 * slot + i))) x.acc }

/-- Record a fault of an issued operation: TFAULT describes the one issued earliest; the operation is cancelled, and
so is what its strand issued after it and has not begun (07 R188, R189). A slot that it had begun to load is restored (R175); a weight load is
removed (06 R165, R166). -/
def Tile.recordFault (x : Tile) (o : TOp) (reason mcode check : Nat) (addr : Word) : Tile :=
  let r := x.strand o.h
  let first := !(r.tfault.getLsbD 24 && decide (r.tfaultOp < o.id))
  let x := if first then x.setStrand o.h
      { r with tfault := word (reason + 2 ^ 8 * mcode + 2 ^ 16 * check + 2 ^ 24), tfaultIa := o.ia.setWidth 48,
               tfaultOp := o.id, tfaultAddr := addr } else x
  let x := (x.dropWait o).forget (.op o.id)
  let x := match o.instr, o.instr.slot, o.begun with | .mem .tacld _, some slot, true => x.restoreSlot slot | _, _, _ => x
  let step (p : TOp) : Option TOp :=
    if p.id = o.id then (if p.instr.isLoad then none else some (p.hold first))
    else if p.h = o.h && decide (o.id < p.id) && !p.begun && !p.held && !p.instr.isLoad then some (p.hold false)
    else some (if first && p.h == o.h then { p with described := false } else p)
  let x := { x with tq := x.tq.filterMap step }
  { x with grantQ := x.grantQ.filter fun n => decide (n < 8) || x.tq.any fun p => n == 8 + p.id && !p.held }

end Sys2Proof.Machine
end

