-- ==== Sys2Proof/Machine/Exception.lean ====
section
/-! DEFINITION. Taking an exception, escalation, and the return from both (03 R77, R83–R87). -/

namespace Sys2Proof.Machine

/-- The status word (03 Table 03-8). -/
def Status.word (s : Status) : Word :=
  Sys2Proof.word (natOf s.hush + 2 * natOf s.precise + 4 * s.loop.toNat + 16 * s.gdepth.toNat + 512 * natOf s.bs + 2048 * s.aten.toNat)

def Cause.word (c : Cause) : Word :=
  Sys2Proof.word (c.code + 2 ^ 8 * natOf c.ds + 2 ^ 9 * natOf c.async + 2 ^ 10 * natOf c.imp + 2 ^ 11 * natOf c.multi +
    2 ^ 12 * c.wreg + 2 ^ 16 * c.check + 2 ^ 19 * c.flags)

def Cause.sync (code check wreg : Nat) : Cause :=
  { code := code, check := check, wreg := wreg, flags := 0, ds := false, async := false, imp := false, multi := false }

/-- The general registers that a frame holds, in its order (03 Table 03-14). -/
def frameRegs : List (BitVec 5) := [1, 3, 4, 5, 6, 7, 8, 9]

def LoadPart.bytes? (p : LoadPart) : Option (List Byte) := match p.state with | .got bs => some bs | _ => none
def LoadPart.failed? (p : LoadPart) : Option (Nat × Nat) := match p.state with | .failed c k => some (c, k) | _ => none
/-- The part awaits data. -/
def LoadPart.isOpen (p : LoadPart) : Bool := match p.state with | .waiting => true | .asked _ => true | _ => false

/-- Every part has its bytes. -/
def PendingLoad.ready (l : PendingLoad) : Option (List Byte) :=
  if l.parts.all (·.bytes?.isSome) then some (l.parts.flatMap fun p => p.bytes?.getD []) else none
/-- A part has failed, and every other has settled. -/
def PendingLoad.failed (l : PendingLoad) : Bool :=
  l.parts.any (·.failed?.isSome) && l.parts.all fun p => p.bytes?.isSome || p.failed?.isSome

/-- Entry waits for the frame that is being read back (03 R77) and for the scoreboard bits of the registers that the exception frame holds (R81);
a load that has failed writes no register (02 R427), so that nothing is waited for there. -/
def Strand.entryClear (r : Strand) : Bool :=
  !r.readback && frameRegs.all fun g => !r.busy g || r.loads.any fun l => l.rd == g && l.failed

/-- An exception of the strand is taken now: it stops a strand in the backstop handler (03 R87), and else waits for nothing. -/
def Strand.mayEnter (r : Strand) : Bool := r.status.bs || r.entryClear

/-- The 128 bytes of an exception frame (03 Table 03-14). -/
def frameBytes (r : Strand) (pc cause addr : Word) : List Byte :=
  ([pc, r.status.word, cause, addr, r.lstart, r.lend, r.lcount, r.vresume.setWidth 64] ++ frameRegs.map r.g).flatMap
    fun w => leBytes 8 w.toNat

/-- The 64-byte slot of a spilled entry frame (03 Table 03-7, R77). -/
def EntryFrame.bytes (f : EntryFrame) : List Byte :=
  leBytes 16 f.savedw15.toNat ++
    leBytes 8 (f.retpc.toNat + 2 ^ 48 * f.savedvis.toNat + 2 ^ 63 * natOf f.exc) ++ List.replicate 40 0

def EntryFrame.ofBytes (b : List Byte) : EntryFrame :=
  let n := leNat ((b.drop 16).take 8)
  { savedw15 := BitVec.ofNat 128 (leNat (b.take 16)), retpc := BitVec.ofNat 48 n,
    savedvis := BitVec.ofNat 15 (n / 2 ^ 48), exc := bitOf n 63 }

/-- GSPILL lies in a seal region of the quire, aligned (03 R77). -/
def State.spillOk (s : State) (a : At) (addr : Nat) : Bool :=
  let g := s.region (addr / 2 ^ 21)
  addr % 64 == 0 && decide (addr < s.memTop) && g.isSeal && g.quire == (s.tile a.t).quire.toNat &&
    (g.state == .assigned || g.state == .rotating)

/-- The address where the frame of level `j` is spilled (03 R77). -/
def spillAddr (r : Strand) (j : Nat) : Nat := r.gspill.toNat % 2 ^ 44 + 64 * (j - 1)

/-- A push fits: either no frame must be spilled, or GSPILL is usable (03 R77). -/
def State.pushOk (s : State) (a : At) : Bool :=
  let r := s.strand a
  decide (r.frames.length < 2) || s.spillOk a (spillAddr r (r.status.gdepth.toNat - 1))

/-- Push an entry frame, spilling the oldest of three (03 R73, R77), and count the level. -/
def State.pushFrame (s : State) (a : At) (f : EntryFrame) : State :=
  let r := s.strand a
  let s := match r.frames[1]? with
    | some old => s.writeBytes (spillAddr r (r.status.gdepth.toNat - 1)) old.bytes
    | none => s
  s.updStrand a fun r =>
    { r with frames := f :: r.frames.take 1, status := { r.status with gdepth := r.status.gdepth + 1 } }

/-- Pop the newest frame: w15 and the visibility come back, the depth falls, and a frame left outside the entry
registers is to be read back (03 R76, R77). -/
def Strand.pop (r : Strand) : Strand :=
  match r.frames with
  | [] => r
  | f :: fs =>
    let d := r.status.gdepth - 1
    { r with frames := fs, wregs := Sparse.set 0 r.wregs 15 f.savedw15, vis := f.savedvis,
             status := { r.status with gdepth := d }, readback := decide (fs.length < 2 ∧ fs.length < d.toNat) }

/-- Tile operations of a strand when it takes an entry from depth `d`: those not begun become held, and untagged
held ones are tagged (07 R188, R190). Weight loads are never cancelled (06 R166). -/
def TOp.enter (h : StrandId) (d : Nat) (o : TOp) : TOp :=
  match o.instr with
  | .mat .twld _ => o
  | _ =>
    if o.h ≠ h then o
    else if o.held then { o with tag := match o.tag with | none => some d | some k => some k }
    else if o.begun then o
    else { o.hold o.described with tag := some d }

/-- Tile operations re-issued by a return to depth `d` (07 R190): they take the place of new issues, and are checked
again for reasons 0x02 and 0x09. -/
def Tile.reissue (x : Tile) (h : StrandId) (d : Nat) (au : Auth) : Tile :=
  let back (o : TOp) : Bool := o.held && o.h == h && o.tag == some d
  let again := (x.tq.filter back).zipIdx.map fun (o, i) =>
    { o.hold false with held := false, reissued := true, seq := (x.strand h).seq, auth := au, id := x.opNext + i }
  let x := { x with tq := x.tq.filter (fun o => !back o) ++ again, opNext := x.opNext + again.length }
  again.foldl (fun x o =>
    if x.tq.any (fun p => p.id == o.id && p.held) then x
    else match o.recheck x.cfg with
      | some reason => x.recordFault o reason 0 0 o.ia
      | none => x) x

/-- The address that a cause records: warrant and gate faults record 0 (03 Table 03-10). -/
def causeAddr (code : Nat) (addr : Word) : Word := if code = cWarrant ∨ code = cGate then 0 else addr

/-- What an entry may use: WX alone (03 R83). -/
def State.entryAuth (s : State) (a : At) : Auth :=
  { who := .strand a.h, ws := [(15, (s.strand a).wx)], floor := (s.tile a.t).floor }

/-- The frame's address: XSP − 128 (03 Table 03-13). -/
def Strand.frameAt (r : Strand) : Nat := (r.xsp - 128).toNat

/-- Where the handler of a code starts (03 Table 03-13). -/
def Strand.handler (r : Strand) (code : Nat) : Word := r.xvec + word (16 * code)

/-- The walks of an entry (03 Table 03-13). -/
def State.walkEntry (s : State) (a : At) (code : Nat) : State :=
  let r := s.strand a
  let au := s.entryAuth a
  ((s.walkNow a.t au .store r.frameAt 64).walkNow a.t au .store (r.frameAt + 64) 64).walkNow a.t au .fetch (r.handler code).toNat 16

/-- Why an entry would fail: the failure that BS_CAUSE and BS_ADDR take (03 R83, R86). The spec names no code for an XSP that is not a multiple
of 128: the model records the alignment fault at XSP (log 96). A handler at or above 2^48 is a fetch fault (02 R46), with check 0 as in
`State.fetch`. -/
def State.entryFailure (s : State) (a : At) (code : Nat) : Option (Nat × Nat × Nat) :=
  let x := s.tile a.t
  let r := s.strand a
  let au := s.entryAuth a
  let lo := r.frameAt
  let ha := (r.handler code).toNat
  let bad : Checked → Option (Nat × Nat) := fun c => match c with | .fail k n _ => some (k, n) | _ => none
  if r.wx.kind ≠ 1 then some (cWarrant, 0, 0)
  else if !x.warrantOk r.wx then some (cWarrant, 1, 0)
  else if !(r.wx.bit 24 && r.wx.bit 25 && r.wx.bit 26) then some (cWarrant, 3, 0)
  else if r.xsp.toNat % 128 ≠ 0 then some (cAlign, 0, r.xsp.toNat)
  else match bad (s.checkNow a.t au .store lo 64) with
    | some (k, n) => some (k, n, lo)
    | none => match bad (s.checkNow a.t au .store (lo + 64) 64) with
      | some (k, n) => some (k, n, lo + 64)
      | none => if decide (2 ^ 48 ≤ ha) && !inBackstop x ha 16 then some (cFetch, 0, ha)
        else match bad (s.checkNow a.t au .fetch ha 16) with
        | some (k, n) => some (k, n, ha)
        | none => if r.status.gdepth = 31 || !s.pushOk a then some (cGate, 0, 0) else none

/-- Write one 64-byte sector of a frame where its check put it: whole, without fill (03 Table 03-13, 08 R200). None: it must wait, for room
among the tile's remote requests (10 R281) or in the tile store (08 R199, R205). -/
def State.putSector (s : State) (a : At) (va : Nat) (x : Xlate) (bs : List Byte) : Option State :=
  if x.backstop then some (s.updTile a.t fun t => t.backstopWrite x.addr bs)
  else if x.target = .remote then
    if (s.tile a.t).remoteRoom then some (s.sendStore a.t a.h .store (word va) x bs) else none
  else if x.policy = .uncached then some (s.sendStore a.t a.h .store (word va) x bs)
  else match s.putSlice a.t (.strand a.h) (word va) x.policy x.addr x.isSeal bs with
    | (true, s) => some s
    | (false, _) => none

/-- Write the sectors of a frame from offset `k` on. -/
def State.putFrame (s : State) (a : At) (au : Auth) (lo : Nat) (bs : List Byte) : List Nat → Option State
  | [] => some s
  | k :: ks => match s.checkNow a.t au .store (lo + k) 64 with
    | .ok x => (s.putSector a (lo + k) x ((bs.drop k).take 64)).bind fun s => s.putFrame a au lo bs ks
    | _ => s.putFrame a au lo bs ks

/-- Cancel what the entering strand has not begun on the arrays, and what it waits for (03 Table 03-13, 07 R190). -/
def State.enterTile (s : State) (a : At) : State :=
  let d := (s.strand a).status.gdepth.toNat
  s.updTile a.t fun x =>
    let q := x.tq.map (TOp.enter a.h d)
    let x := (q.filter (·.held)).foldl (fun x o => x.forget (.op o.id)) (x.forget (.strand a.h))
    { x with tq := q, grantQ := x.grantQ.filter fun n =>
        if n < 8 then n ≠ a.h.val else q.any fun p => n == 8 + p.id && !p.held }

/-- A strand whose backstop handler itself faults stops, and the Spine is told (03 R87). -/
def State.stopStrand (s : State) (a : At) : State :=
  ((s.updStrand a fun r => { r with run := .stopped, slot := none, hold := none }).updTile a.t fun x => x.forget (.strand a.h)).alarm .strandStopped (8 * a.t.val + a.h.val)

/-- The backstop frame of a strand: offset in the backstop region (03 R86). -/
def backstopFrame (h : StrandId) : Nat := 0x2000 + 0x400 * h.val + 0x380

/-- Escalation (03 R86). -/
def State.escalate (s : State) (a : At) (fail : Nat × Nat × Nat) (cause addr pc : Word) : State :=
  let bs := frameBytes (s.strand a) pc cause addr
  let s := (s.countTile a.t 8 1).enterTile a
  (s.updTile a.t fun x => x.backstopWrite (backstopFrame a.h) bs).updStrand a fun r =>
    { r with
      bsCause := BitVec.ofNat 11 (fail.1 + 256 * fail.2.1), bsAddr := causeAddr fail.1 (word fail.2.2), bsCount := r.bsCount + 1,
      status := { r.status with bs := true, hush := true, loop := 0 }, vresume := 0,
      slot := none, hold := none, lineBuf := none, lineNext := none, fetchFail := none, pc := (s.tile a.t).bsBase, run := .running }

/-- A successful entry (03 Table 03-13); the state unchanged where a sector of the frame has to wait. -/
def State.enterHandler (s : State) (a : At) (code : Nat) (cause addr pc : Word) : State :=
  let r := s.strand a
  let bs := frameBytes r pc cause addr
  match ((s.countTile a.t 7 1).enterTile a).putFrame a (s.entryAuth a) r.frameAt bs [0, 64] with
  | none => s
  | some t =>
    (t.pushFrame a { savedw15 := Sparse.get 0 r.wregs 15, retpc := 0, savedvis := r.vis, exc := true }).updStrand a fun r =>
      { r with
        wregs := Sparse.set 0 r.wregs 15 r.wx, vis := 0, status := { r.status with hush := true, loop := 0 }, vresume := 0,
        cause := cause, faultaddr := addr, xsp := r.xsp - 128, pc := r.handler code,
        slot := none, hold := none, lineBuf := none, lineNext := none, fetchFail := none, run := .running }

/-- Take an exception with the given cause (03 R83, R86, R87), once the entry may proceed (R77, R81). What is not raised by an instruction
that runs again is kept where its entry escalates, to recur after the backstop handler returns (R87). -/
def State.enter (s : State) (a : At) (c : Cause) (addr pc : Word) : State :=
  let r := s.strand a
  if r.status.bs then s.stopStrand a
  else if !r.entryClear then s
  else
    let s := s.walkEntry a c.code
    match s.entryFailure a c.code with
    | some f =>
      let t := s.escalate a f c.word addr pc
      if c.imp then t.updStrand a fun r => { r with recur := some (c, addr) } else t
    | none => s.enterHandler a c.code c.word addr pc

/-- A synchronous fault of the instruction at the strand's pc, with the address it records: in a delay slot the branch is saved and cause.ds
set (02 R39). -/
def State.raiseAt (s : State) (a : At) (code check wreg : Nat) (addr : Word) : State :=
  let r := s.strand a
  match r.slot with
  | none => s.enter a (Cause.sync code check wreg) addr r.pc
  | some b => s.enter a { Cause.sync code check wreg with ds := true } addr b.branch

/-- The same for an access: a warrant or gate fault records no address (03 Table 03-10). -/
def State.raise (s : State) (a : At) (code check wreg : Nat) (addr : Word) : State :=
  s.raiseAt a code check wreg (causeAddr code addr)

/-- Restore what xret restores from the 128 bytes of a frame (03 R84, R87). -/
def Strand.restore (r : Strand) (bs : List Byte) : Strand :=
  let w := fun i => word (leNat ((bs.drop (8 * i)).take 8))
  let st := w 1
  let r := frameRegs.zipIdx.foldl (fun r (g, i) => r.setG g (w (8 + i))) r
  { r with
    pc := w 0, slot := none, lineBuf := none, lineNext := none, lstart := w 4, lend := w 5, lcount := w 6, vresume := (w 7).setWidth 16,
    status := { r.status with hush := st.getLsbD 0, precise := st.getLsbD 1, loop := st.extractLsb' 2 2, aten := st.extractLsb' 11 5 } }

/-- xret from a handler, once its frame is read (03 R84): XSP, the entry frame, and the tile operations of the depth. -/
def State.leaveHandler (s : State) (a : At) (bs : List Byte) : State :=
  let s := s.updStrand a fun r => { (r.restore bs).pop with xsp := r.xsp + 128 }
  let r := s.strand a
  s.updTile a.t fun x => x.reissue a.h r.status.gdepth.toNat (x.auth a.h)

/-- xret with bs = 1 (03 R87). -/
def State.leaveBackstop (s : State) (a : At) : State :=
  let bs := (s.tile a.t).backstopRead (backstopFrame a.h) 128
  let s := s.updStrand a fun r => let q := r.restore bs; { q with status := { q.status with bs := false } }
  let r := s.strand a
  s.updTile a.t fun x => x.reissue a.h r.status.gdepth.toNat (x.auth a.h)

end Sys2Proof.Machine
end

