-- ==== Sys2Proof/Machine/Issue.lean ====
section
/-! DEFINITION. Readiness, fetch, issue and completion of an instruction (02 R31–R46, R55; 03 R79). -/

namespace Sys2Proof.Machine

/-- A split load that has a half still to come (02 R53). -/
def PendingLoad.isSplit (l : PendingLoad) : Bool :=
  (match l.kind with | .reg _ => true | _ => false) && l.parts.any (fun p => some p.va ≠ l.parts.head?.map (·.va)) &&
    l.parts.any (·.isOpen)

/-- An asynchronous event or a halt may be taken here: not between a branch and its slot (02 R40), nor between the halves of a
split load (R53). -/
def Strand.atBoundary (r : Strand) : Bool := r.slot.isNone && !r.loads.any (·.isSplit)

/-- What comes before the next instruction at a boundary (03 R79, actions 1 to 3). -/
def Strand.boundaryWork (r : Strand) : Bool :=
  r.atBoundary && (r.haltReq || !r.late.isEmpty || (r.recur.isSome && !r.status.bs) || (!r.status.hush && !r.status.bs && r.event ≠ 0))

/-- The strand may issue: running, not held, nothing to act on first (02 R32, 03 R79). -/
def Strand.mayIssue (r : Strand) : Bool := r.run == .running && r.hold.isNone && !r.boundaryWork

/-- The 128 B line of an address, as the line buffer names it. -/
def lineOf (a : Word) : Nat := a.toNat / 128

inductive Fetch where
  | ready (s : State)
  | wait (s : State)
  | fault (check : Nat) (code : Nat) (addr : Word)

/-- The line buffer holds a line: for the second line of an instruction, in its other half. -/
def Strand.holdsLine (r : Strand) (first : Bool) (line : Nat) : Bool :=
  r.lineBuf == some line || (!first && r.lineNext == some line)

/-- A line has come into the line buffer. -/
def Strand.takeLine (r : Strand) (first : Bool) (line : Nat) : Strand :=
  if first then { r with lineBuf := some line, lineNext := none } else { r with lineNext := some line }

/-- The `len` bytes of an instruction at `pc` that lie in one line are in the line buffer, or get there without waiting (02 R46, R55;
03 R70, R86). R46 is no numbered step of R70: its fault has check 0 (log 30). An address that is not a multiple of 4 is fetched and run as
any other: the spec gives it no outcome (log 38). -/
def State.fetchLine (s : State) (a : At) (first : Bool) (pc : Word) (len : Nat) : Fetch :=
  let r := s.strand a
  let x := s.tile a.t
  if pc.toNat ≥ 2 ^ 48 && !inBackstop x pc.toNat len then .fault 0 cFetch pc
  else if r.holdsLine first (lineOf pc) then .ready s
  else if first && r.lineNext == some (lineOf pc) then .ready (s.updStrand a fun r => r.takeLine true (lineOf pc))
  else match r.fetchFail.filter (·.1 == lineOf pc) with
    | some (_, c, k) => .fault k c pc
    | none =>
      if r.fetchWait.isSome then .wait s
      else match s.check a.t (s.auth a) .fetch pc.toNat len false with
        | .fail c k _ => .fault k c pc
        | .walk p => .wait (s.startWalk a.t p)
        | .ok l =>
          if l.backstop || x.icache.contains (l.addr / 128) then .ready (s.updStrand a fun r => r.takeLine first (lineOf pc))
          else
            let (tag, s) := s.ask a.t a.h .fetch pc (l.addr / 128 * 128) false (.read (l.addr / 128 * 128) 128)
            .wait (s.updStrand a fun r => { r with fetchWait := some tag })

/-- Bytes of an instruction of `len` bytes at `pc` before the end of the pc's line. -/
def lenHere (pc : Word) (len : Nat) : Nat := min len (128 - pc.toNat % 128)

/-- The next instruction is in the line buffer, or gets there without waiting: both lines of one that crosses a line (02 R32, R36, R55). -/
def State.fetch (s : State) (a : At) (len : Nat) : Fetch :=
  let pc := (s.strand a).pc
  let k := lenHere pc len
  match s.fetchLine a true pc k with
  | .ready s => if k = len then .ready s else s.fetchLine a false (pc + word k) (len - k)
  | f => f

/-- The inner loop's last instruction (02 R43). -/
def Strand.atLend (r : Strand) : Bool := r.status.loop ≠ 0 && r.pc == (r.lend.setWidth 48).setWidth 64

/-- The end of one level whose count may be exhausted (02 R43): true when it is. -/
def Strand.countDown (r : Strand) : Bool × Strand :=
  let c := r.lcount.setWidth 32 - 1
  let r := { r with lcount := (r.lcount >>> 32 <<< 32) ||| c.setWidth 64 }
  if c ≠ 0 then (false, { r with pc := (r.lstart.setWidth 48).setWidth 64 }) else (true, r)

/-- Unpack the outer level into the registers (02 R43, Table 02-7). -/
def Strand.unpackLoop (r : Strand) : Strand :=
  { r with
    lstart := (r.lstart.setWidth 48).setWidth 64 - (r.lstart >>> 48) * 4
    lend := (r.lend.setWidth 48).setWidth 64 + (r.lend >>> 48) * 4
    lcount := r.lcount >>> 32
    status := { r.status with loop := 1 } }

/-- 02 R43: what the completion of the instruction at lend does. -/
def Strand.loopEnd (r : Strand) : Strand :=
  match r.countDown with
  | (false, q) => q
  | (true, q) =>
    if q.status.loop = 2 then
      let q := q.unpackLoop
      if q.atLend then
        match q.countDown with
        | (false, p) => p
        | (true, p) => { p with status := { p.status with loop := 0 }, pc := p.pc + 4 }
      else { q with pc := q.pc + 4 }
    else { q with status := { q.status with loop := 0 }, pc := q.pc + 4 }

/-- Completion of an instruction of `len` bytes: a delay slot transfers and writes the link (02 R38); the
instruction at lend counts down (R43); else the pc moves on. Where the instruction in the slot itself writes the link register, the spec orders
the two writes in no way: the link overwrites a result that is there, and the data of a load that is pending overwrites the link (log 96). -/
def Strand.advance (r : Strand) (len : Nat) : Strand :=
  match r.slot with
  | some b =>
    let r := match b.link with | some (g, v) => r.setG g v | none => r
    { r with slot := none, pc := b.next }
  | none => if r.atLend then r.loopEnd else { r with pc := r.pc + word len }

/-- What an instruction does when it issues: it waits (`wait`, or `later` with something started), faults, completes
(`done`: control goes on; `go`: it has set the pc itself). -/
inductive Act where
  | wait
  | later (s : State)
  | fault (code check wreg : Nat) (addr : Word)
  | done (s : State)
  | go (s : State)

/-- Where the instruction may not stand (02 R41, R45): `plain` says that it may stand in a delay slot and at lend. -/
def Strand.misplaced (r : Strand) (plain : Bool) : Bool :=
  (r.slot.isSome && !plain) || (r.atLend && (!plain || r.slot.isSome))

/-- A beat of the tile passes (01 R15, Table 01-7). -/
def State.beat (s : State) (t : TileId) : State := s.updTile t fun x => { x with beats := min (x.beats + 1) (2 ^ 64 - 1) }

/-- What a fetched instruction does (02 R32, R34, R41, R45); an instruction that issues takes a beat of its tile (01 R15) and is counted
(13 Table 13-7). -/
def State.attempt (s : State) (a : At) (len : Nat) (plain : Bool) (uses : List (BitVec 5)) (eff : State → Act) : State :=
  let r := s.strand a
  if r.misplaced plain then s.raise a cIllegal 0 0 r.pc
  else if uses.any r.busy then s
  else match eff s with
    | .wait => s
    | .later s => s
    | .fault c k w v => s.raise a c k w v
    | .done s => ((s.beat a.t).countTile a.t 0 1).updStrand a fun r => r.advance len
    | .go s => (s.beat a.t).countTile a.t 0 1

/-- Reach the instruction at the strand's pc: when the strand may issue and the instruction is fetched, `k` says what happens. Which ready
strand of a tile issues comes with the command, which names it (log 99). -/
def State.issueWith (s : State) (a : At) (len : Nat) (k : State → State) : State :=
  if !(s.strand a).mayIssue then s
  else match s.fetch a len with
    | .wait s => s
    | .fault k c v => s.raise a c k 0 v
    | .ready s => k s

/-- Issue an instruction at the strand's pc: it takes effect, faults, or waits with the state unchanged but for
what its fetch started. -/
def State.issue (s : State) (a : At) (len : Nat) (plain : Bool) (uses : List (BitVec 5)) (eff : State → Act) : State :=
  s.issueWith a len fun s => s.attempt a len plain uses eff

/-- A 32-bit instruction that may stand anywhere. -/
def State.issue32 (s : State) (a : At) (uses : List (BitVec 5)) (eff : State → Act) : Out :=
  .next (s.issue a 4 true uses eff)

/-- A 32-bit instruction that R41 bars from delay slots. -/
def State.issueCtl (s : State) (a : At) (uses : List (BitVec 5)) (eff : State → Act) : Out :=
  .next (s.issue a 4 false uses eff)

/-- A 64-bit instruction. -/
def State.issue64 (s : State) (a : At) (uses : List (BitVec 5)) (eff : State → Act) : Out :=
  .next (s.issue a 8 false uses eff)

/-- The illegal-instruction fault of the instruction at the strand's pc. -/
def illegal (s : State) (a : At) : Act := .fault cIllegal 0 0 (s.strand a).pc

/-- Write a result and go on. -/
def result (s : State) (a : At) (rd : BitVec 5) (v : Word) : Act := .done (s.updStrand a fun r => r.setG rd v)

end Sys2Proof.Machine
end

