-- ==== Sys2Proof/Machine/Integer.lean ====
section
/-! DEFINITION. The integer instructions of majors 0x00 to 0x08 (02 Tables 02-2 to 02-5, R34, R35, R37).
A result is written in the step that issues the instruction: latencies are not modelled (log 5). -/

namespace Sys2Proof.Machine

/-- A register form: rd := op rs1 rs2. -/
def intR (op : Word → Word → Word) (a : At) (f : RF) (s : State) : Out :=
  s.issue32 a [f.rd, f.rs1, f.rs2] fun s =>
    result s a f.rd (op ((s.strand a).g f.rs1) ((s.strand a).g f.rs2))

/-- A unary register form; rs2 must be zero (02 R37, Table 02-5). -/
def intU (op : Word → Word) (a : At) (f : RF) (s : State) : Out :=
  s.issue32 a [f.rd, f.rs1] fun s =>
    if f.rs2 ≠ 0 then illegal s a else result s a f.rd (op ((s.strand a).g f.rs1))

/-- An immediate form: rd := op rs1 (sign-extended imm16). -/
def intI (op : Word → Word → Word) (a : At) (f : IF) (s : State) : Out :=
  s.issue32 a [f.rd, f.rs1] fun s =>
    result s a f.rd (op ((s.strand a).g f.rs1) (f.imm.signExtend 64))

def flag (b : Bool) : Word := if b then 1 else 0

def shiftLeft (x y : Word) : Word := x <<< (y.toNat % 64)
def shiftRight (x y : Word) : Word := x >>> (y.toNat % 64)
def shiftArith (x y : Word) : Word := x.sshiftRight (y.toNat % 64)
def setLess (x y : Word) : Word := flag (x.slt y)
def setLessU (x y : Word) : Word := flag (x.ult y)
def minS (x y : Word) : Word := if x.slt y then x else y
def maxS (x y : Word) : Word := if x.slt y then y else x
def minU (x y : Word) : Word := if x.ult y then x else y
def maxU (x y : Word) : Word := if x.ult y then y else x
def mulHigh (x y : Word) : Word := ((x.signExtend 128 * y.signExtend 128) >>> 64).setWidth 64
def mulHighU (x y : Word) : Word := ((x.setWidth 128 * y.setWidth 128) >>> 64).setWidth 64
/-- 02 R35: toward zero; by zero all ones; the most negative by −1 is itself. -/
def divS (x y : Word) : Word := if y = 0 then BitVec.allOnes 64 else x.sdiv y
def divU (x y : Word) : Word := if y = 0 then BitVec.allOnes 64 else x / y
def remS (x y : Word) : Word := if y = 0 then x else x.srem y
def remU (x y : Word) : Word := if y = 0 then x else x % y
def leadingZeros (x : Word) : Word := if x = 0 then 64 else word (63 - Nat.log2 x.toNat)
def trailingZeros (x : Word) : Word := word (((List.range 64).find? (fun i => x.getLsbD i)).getD 64)
def onesCount (x : Word) : Word := word (popCount 64 x.toNat)

/-- add, 02 Table 02-5. -/
def execAdd (a : At) (f : RF) (s : State) : Out := intR (fun x y => x + y) a f s
/-- sub, 02 Table 02-5. -/
def execSub (a : At) (f : RF) (s : State) : Out := intR (fun x y => x - y) a f s
/-- and, 02 Table 02-5. -/
def execAnd (a : At) (f : RF) (s : State) : Out := intR (fun x y => x &&& y) a f s
/-- or, 02 Table 02-5. -/
def execOr (a : At) (f : RF) (s : State) : Out := intR (fun x y => x ||| y) a f s
/-- xor, 02 Table 02-5. -/
def execXor (a : At) (f : RF) (s : State) : Out := intR (fun x y => x ^^^ y) a f s
/-- sll, 02 Table 02-5. -/
def execSll (a : At) (f : RF) (s : State) : Out := intR shiftLeft a f s
/-- srl, 02 Table 02-5. -/
def execSrl (a : At) (f : RF) (s : State) : Out := intR shiftRight a f s
/-- sra, 02 Table 02-5. -/
def execSra (a : At) (f : RF) (s : State) : Out := intR shiftArith a f s
/-- slt, 02 Table 02-5. -/
def execSlt (a : At) (f : RF) (s : State) : Out := intR setLess a f s
/-- sltu, 02 Table 02-5. -/
def execSltu (a : At) (f : RF) (s : State) : Out := intR setLessU a f s
/-- min, 02 Table 02-5. -/
def execMin (a : At) (f : RF) (s : State) : Out := intR minS a f s
/-- max, 02 Table 02-5. -/
def execMax (a : At) (f : RF) (s : State) : Out := intR maxS a f s
/-- minu, 02 Table 02-5. -/
def execMinu (a : At) (f : RF) (s : State) : Out := intR minU a f s
/-- maxu, 02 Table 02-5. -/
def execMaxu (a : At) (f : RF) (s : State) : Out := intR maxU a f s
/-- mul (low 64 bits), 02 Table 02-5. -/
def execMul (a : At) (f : RF) (s : State) : Out := intR (fun x y => x * y) a f s
/-- mulh, 02 Table 02-5. -/
def execMulh (a : At) (f : RF) (s : State) : Out := intR mulHigh a f s
/-- mulhu, 02 Table 02-5. -/
def execMulhu (a : At) (f : RF) (s : State) : Out := intR mulHighU a f s
/-- div (R35), 02 Table 02-5. -/
def execDiv (a : At) (f : RF) (s : State) : Out := intR divS a f s
/-- divu (R35), 02 Table 02-5. -/
def execDivu (a : At) (f : RF) (s : State) : Out := intR divU a f s
/-- rem (R35), 02 Table 02-5. -/
def execRem (a : At) (f : RF) (s : State) : Out := intR remS a f s
/-- remu (R35), 02 Table 02-5. -/
def execRemu (a : At) (f : RF) (s : State) : Out := intR remU a f s
/-- clz, 02 Table 02-5. -/
def execClz (a : At) (f : RF) (s : State) : Out := intU leadingZeros a f s
/-- ctz, 02 Table 02-5. -/
def execCtz (a : At) (f : RF) (s : State) : Out := intU trailingZeros a f s
/-- popc, 02 Table 02-5. -/
def execPopc (a : At) (f : RF) (s : State) : Out := intU onesCount a f s
/-- addi, 02 Table 02-4. -/
def execAddi (a : At) (f : IF) (s : State) : Out := intI (fun x y => x + y) a f s
/-- andi, 02 Table 02-4. -/
def execAndi (a : At) (f : IF) (s : State) : Out := intI (fun x y => x &&& y) a f s
/-- ori, 02 Table 02-4. -/
def execOri (a : At) (f : IF) (s : State) : Out := intI (fun x y => x ||| y) a f s
/-- xori, 02 Table 02-4. -/
def execXori (a : At) (f : IF) (s : State) : Out := intI (fun x y => x ^^^ y) a f s
/-- slti, 02 Table 02-4. -/
def execSlti (a : At) (f : IF) (s : State) : Out := intI setLess a f s
/-- sltiu, 02 Table 02-4. -/
def execSltiu (a : At) (f : IF) (s : State) : Out := intI setLessU a f s

/-- shi: the kind in imm16[7:6], imm16[15:8] zero (02 Table 02-4, R37). -/
def execShi (a : At) (f : IF) (s : State) : Out :=
  s.issue32 a [f.rd, f.rs1] fun s =>
    let x := (s.strand a).g f.rs1
    let n := f.imm.toNat % 64
    let k := f.imm.toNat / 64
    if k = 0 then result s a f.rd (x <<< n)
    else if k = 1 then result s a f.rd (x >>> n)
    else if k = 2 then result s a f.rd (x.sshiftRight n)
    else illegal s a

/-- lui: sign-extended imm21 shifted left by 16 (02 Table 02-4). -/
def execLui (a : At) (rd : BitVec 5) (imm : BitVec 21) (s : State) : Out :=
  s.issue32 a [rd] fun s => result s a rd (imm.signExtend 64 <<< 16)

end Sys2Proof.Machine
end

