-- ==== Sys2Proof/Machine/Branch.lean ====
section
/-! DEFINITION. Branches, jumps, the hardware loop, and the system operations of 02 Table 02-6. -/

namespace Sys2Proof.Machine

/-- A word offset from the branch (02 Table 02-3). -/
def offsetTarget {w : Nat} (pc : Word) (off : BitVec w) : Word := pc + off.signExtend 64 * 4

/-- Go to the delay slot, with what follows it (02 R38). -/
def toSlot (s : State) (a : At) (next : Word) (link : Option (BitVec 5 × Word)) : Act :=
  .go (s.updStrand a fun r => { r with slot := some { branch := r.pc, next := next, link := link }, pc := r.pc + 4 })

/-- A conditional branch (02 R39, R40): after the slot comes the target if taken, else the slot's address + 4. -/
def branch (cond : Word → Word → Bool) (a : At) (f : BF) (s : State) : Out :=
  s.issueCtl a [f.rs1, f.rs2] fun s =>
    let r := s.strand a
    toSlot s a (if cond (r.g f.rs1) (r.g f.rs2) then offsetTarget r.pc f.off else r.pc + 8) none

/-- beq, 02 Table 02-4. -/
def execBeq (a : At) (f : BF) (s : State) : Out := branch (fun x y => x == y) a f s
/-- bne, 02 Table 02-4. -/
def execBne (a : At) (f : BF) (s : State) : Out := branch (fun x y => x != y) a f s
/-- blt, 02 Table 02-4. -/
def execBlt (a : At) (f : BF) (s : State) : Out := branch (fun x y => x.slt y) a f s
/-- bge, 02 Table 02-4. -/
def execBge (a : At) (f : BF) (s : State) : Out := branch (fun x y => !x.slt y) a f s
/-- bltu, 02 Table 02-4. -/
def execBltu (a : At) (f : BF) (s : State) : Out := branch (fun x y => x.ult y) a f s
/-- bgeu, 02 Table 02-4. -/
def execBgeu (a : At) (f : BF) (s : State) : Out := branch (fun x y => !x.ult y) a f s

/-- j, 02 Table 02-4. -/
def execJ (a : At) (off : BitVec 26) (s : State) : Out :=
  s.issueCtl a [] fun s => toSlot s a (offsetTarget (s.strand a).pc off) none

/-- jal: g1 := branch address + 8 when the slot completes (02 R38). -/
def execJal (a : At) (off : BitVec 26) (s : State) : Out :=
  s.issueCtl a [1] fun s =>
    let pc := (s.strand a).pc
    toSlot s a (offsetTarget pc off) (some (1, pc + 8))

/-- jr: rd, rs2 and fn must be zero (02 Table 02-4). -/
def execJr (a : At) (f : RF) (fn : BitVec 11) (s : State) : Out :=
  s.issueCtl a [f.rs1] fun s =>
    if f.rd ≠ 0 ∨ f.rs2 ≠ 0 ∨ fn ≠ 0 then illegal s a else toSlot s a ((s.strand a).g f.rs1) none

/-- jalr: rs2 and fn must be zero (02 Table 02-4). -/
def execJalr (a : At) (f : RF) (fn : BitVec 11) (s : State) : Out :=
  s.issueCtl a [f.rd, f.rs1] fun s =>
    if f.rs2 ≠ 0 ∨ fn ≠ 0 then illegal s a
    else toSlot s a ((s.strand a).g f.rs1) (some (f.rd, (s.strand a).pc + 8))

/-- The first level, or the nested level packed over it (02 R42, Table 02-7). -/
def Strand.startLoop (r : Strand) (n c : Nat) : Option Strand :=
  let start := r.pc + 4
  let stop := r.pc + word (4 * n)
  if r.status.loop = 0 then
    some { r with lstart := start, lend := stop, lcount := word c, status := { r.status with loop := 1 }, pc := r.pc + 4 }
  else if r.status.loop = 1 then
    let ds := (start.toNat : Int) - (r.lstart.toNat % 2 ^ 48 : Nat)
    let de := ((r.lend.toNat % 2 ^ 48 : Nat) : Int) - stop.toNat
    if ds < 0 ∨ de < 0 ∨ ds / 4 > 65535 ∨ de / 4 > 65535 then none
    else some { r with
      lstart := word (start.toNat % 2 ^ 48 + (ds / 4).toNat * 2 ^ 48)
      lend := word (stop.toNat % 2 ^ 48 + (de / 4).toNat * 2 ^ 48)
      lcount := word (c + r.lcount.toNat % 2 ^ 32 * 2 ^ 32)
      status := { r.status with loop := 2 }, pc := r.pc + 4 }
  else none

/-- loop (02 R42); the field in the place of rd must be zero (Table 02-3). -/
def execLoop (a : At) (z : BitVec 5) (rs1 : BitVec 5) (n : BitVec 16) (s : State) : Out :=
  s.issueCtl a [rs1] fun s =>
    let r := s.strand a
    let c := (r.g rs1).toNat % 2 ^ 32
    if z ≠ 0 ∨ n = 0 then illegal s a
    else if c = 0 then .go (s.setStrand a { r with pc := r.pc + word (4 * n.toNat + 4) })
    else match r.startLoop n.toNat c with
      | none => illegal s a
      | some q => .go (s.setStrand a q)

/-- A system operation whose unused fields must be zero (02 R37). -/
def sysOp (a : At) (zero : List (BitVec 5)) (uses : List (BitVec 5)) (eff : State → Act) (s : State) : Out :=
  s.issue32 a uses fun s => if zero.all (· = 0) then eff s else illegal s a

/-- The same for one that R41 bars from delay slots. -/
def sysCtl (a : At) (zero : List (BitVec 5)) (uses : List (BitVec 5)) (eff : State → Act) (s : State) : Out :=
  s.issueCtl a uses fun s => if zero.all (· = 0) then eff s else illegal s a

/-- fsync: the line buffer is discarded and the next pc fetched again (02 Table 02-6, R57). -/
def execFsync (a : At) (f : RF) (s : State) : Out :=
  sysCtl a [f.rd, f.rs1, f.rs2] [] (fun s => .done (s.updStrand a fun r => { r with lineBuf := none, lineNext := none })) s

/-- The line of the local address that a leaf gives leaves the instruction cache (02 R57). -/
def Tile.dropCode (x : Tile) (dev va : Nat) (e : TlbEntry) : Tile :=
  if bitsOf (e.physOf va) 44 20 = dev then { x with icache := x.icache.filter (· ≠ bitsOf (e.physOf va) 0 44 / 128) } else x

/-- icinv: the line that holds the address's translation leaves the instruction cache. It translates by steps 3 and 5 of R70 alone, so that a
leaf which an access could not use serves too; it never faults (02 R57). -/
def execIcinv (a : At) (f : RF) (s : State) : Out :=
  sysOp a [f.rd, f.rs2] [f.rs1] (fun s =>
    let va := ((s.strand a).g f.rs1).toNat
    let x := s.tile a.t
    if inControl va ∨ va ≥ 2 ^ 56 then .done s
    else if inBackstop x va 1 then .done s
    else match lookTlb x (.strand a.h) (va / 2 ^ 16) with
      | .miss => .later (s.startWalk a.t { page := va / 2 ^ 16, who := .strand a.h })
      | .fail _ _ none => .done (s.updTile a.t fun x => x.forget (.strand a.h))
      | .fail _ _ (some e) => .done (s.updTile a.t fun x => (x.dropCode s.device.toNat va e).forget (.strand a.h))
      | .hit e => .done (s.updTile a.t fun x => x.dropCode s.device.toNat va e)) s

/-- icinv.all (02 Table 02-6). -/
def execIcinvAll (a : At) (f : RF) (s : State) : Out :=
  sysOp a [f.rd, f.rs1, f.rs2] [] (fun s => .done (s.updTile a.t fun x => { x with icache := [] })) s

/-- The beats of a tile, read after a free number of them has passed (01 R15, R19, R22; log 5). -/
def State.readBeats (s : State) (t : TileId) : Word × State :=
  let (n, s) := s.takeFree
  let b := min ((s.tile t).beats + 1 + Config.elapsedBeats n) (2 ^ 64 - 1)
  (word b, s.updTile t fun x => { x with beats := b })

/-- The ring periods of a tile's island, read after a free number of them has passed (01 R22; log 5). -/
def State.readTicks (s : State) (t : TileId) : Word × State :=
  let (n, s) := s.takeFree
  let b := min ((s.island (islandOf t)).ticks + Config.elapsedTicks n) (2 ^ 64 - 1)
  (word b, s.setIsland (islandOf t) { s.island (islandOf t) with ticks := b })

/-- RING_CAL (01 Table 01-8). -/
def Island.ringCal (i : Island) : Word := word (i.period % 2 ^ 32 + 2 ^ 32 * (i.calseq % 2 ^ 16) + 2 ^ 48 * natOf i.calvalid)

/-- rdbeat (02 Table 02-6). -/
def execRdbeat (a : At) (f : RF) (s : State) : Out :=
  sysOp a [f.rs1, f.rs2] [f.rd] (fun s => let (v, s) := s.readBeats a.t; result s a f.rd v) s
/-- rdint (02 Table 02-6). -/
def execRdint (a : At) (f : RF) (s : State) : Out :=
  sysOp a [f.rs1, f.rs2] [f.rd] (fun s => let (v, s) := s.readTicks a.t; result s a f.rd v) s
/-- rdcal (02 Table 02-6). -/
def execRdcal (a : At) (f : RF) (s : State) : Out :=
  sysOp a [f.rs1, f.rs2] [f.rd] (fun s => result s a f.rd (s.island (islandOf a.t)).ringCal) s
/-- rdself (02 Table 02-6). -/
def execRdself (a : At) (f : RF) (s : State) : Out :=
  sysOp a [f.rs1, f.rs2] [f.rd] (fun s => result s a f.rd (word (a.t.val + 256 * a.h.val))) s

/-- park: the parked state, unless an enabled line is pending (03 R80). -/
def execPark (a : At) (f : RF) (s : State) : Out :=
  sysCtl a [f.rd, f.rs1, f.rs2] []
    (fun s => .done (s.updStrand a fun r => if r.event ≠ 0 then r else { r with run := .parked })) s

end Sys2Proof.Machine
end

