-- ==== Sys2Proof/Machine/LoadStore.lean ====
section
/-! DEFINITION. Scalar loads, stores and atomics (02 R47–R54, R427): the checks, the store buffer, and how far a
pending load has come. -/

namespace Sys2Proof.Machine

/-- The halves of an access at a 64 B line boundary (02 R51). -/
def halves (va : Word) (n : Nat) : List (Word × Nat) :=
  let k := 64 - va.toNat % 64
  if n ≤ k then [(va, n)] else [(va, k), (va + word k, n - k)]

/-- A checked access: where its parts go, a walk to make, or the fault of the first failing half (02 R51). -/
inductive Paths where
  | ok (ps : List (Word × Nat × Xlate))
  | walk (m : Miss)
  | fail (code check wreg : Nat) (addr : Word)

/-- One half translates to a physical address that is reserved (01 R29). -/
def State.reservedHalf (s : State) (x : Tile) (au : Auth) (a : Nat) : Bool :=
  match lookTlb x au.who (a / 2 ^ 16) with
  | .fail _ _ (some e) =>
    bitsOf (e.physOf a) 44 20 == s.device.toNat && decide (s.memTop ≤ bitsOf (e.physOf a) 0 44)
  | _ => false

/-- One half in control space authorised by a CTRL warrant: R54 makes a split access of it an alignment fault. -/
def controlHalf (x : Tile) (au : Auth) (need : Need) (a n : Nat) : Bool :=
  inControl a && au.ws.any fun w =>
    w.2.kind == 3 && x.valid w.2 au && w.2.bit (if need.isWrite then 25 else 24) && w.2.covers a n

/-- Check every half, the first failing one deciding (02 R51, R54; 03 R70). An access that lies wholly in control space and crosses a 64 B
line breaks R10 and fails step 2 (00 R10); where one half only lies there, or translates to a reserved address, the fault is the alignment
fault of R54 (log 30). -/
def State.checkHalves (s : State) (a : At) (need : Need) (va : Word) (n : Nat) : Paths :=
  let x := s.tile a.t
  let au := x.auth a.h
  let hs := halves va n
  let split := decide (hs.length = 2)
  let mixed := split && !hs.all fun h => inControl h.1.toNat
  let rec go : List (Word × Nat) → List (Word × Nat × Xlate) → Paths
    | [], acc => .ok acc.reverse
    | (v, m) :: rest, acc =>
      if mixed && (controlHalf x au need v.toNat m || (!(authorising x au need v.toNat m).isEmpty && s.reservedHalf x au v.toNat)) then
        .fail cAlign 7 0 va
      else match s.check a.t au need v.toNat m true with
        | .fail c k w => .fail c k w v
        | .walk p => .walk p
        | .ok l => go rest ((v, m, l) :: acc)
  match go hs [] with
  | .ok [(v, m, l), (v', m', l')] =>
    if l.target ≠ l'.target || (l.target == .remote && l.addr / 2 ^ 44 ≠ l'.addr / 2 ^ 44) then .fail cAlign 7 0 va
    else .ok [(v, m, l), (v', m', l')]
  | p => p

/-- The parts of a load: each half, cut at 32 B units where it is uncached (02 R51, 09 R223). -/
def partsOf (ps : List (Word × Nat × Xlate)) : List LoadPart :=
  ps.flatMap fun (v, n, l) =>
    let one (a n : Nat) : LoadPart :=
      { va := v, addr := a, len := n, target := l.target, policy := l.policy, backstop := l.backstop, state := .waiting }
    let k := 32 - l.addr % 32
    if l.target = .memory ∧ l.policy = .uncached ∧ k < n then [one l.addr k, one (l.addr + k) (n - k)]
    else [one l.addr n]

def overlaps (a n b m : Nat) : Bool := decide (a < b + m) && decide (b < a + n)

def SbEntry.meets (e : SbEntry) (p : LoadPart) : Bool :=
  e.target == p.target && e.backstop == p.backstop && overlaps e.addr e.bytes.length p.addr p.len

/-- The entries of a strand before a load in program order that overlap a part. -/
def Strand.older (r : Strand) (seq : Nat) (p : LoadPart) : List SbEntry :=
  r.sb.filter fun e => decide (e.seq < seq) && e.meets p

/-- Earlier stores of the strand to uncached pages, another device or control space (02 R49). -/
def Strand.olderUncached (r : Strand) (seq : Nat) : Bool :=
  r.sb.any fun e => decide (e.seq < seq) && (e.policy == .uncached || e.target == .control)

/-- The answer to a request, taken from the tile's inbox. -/
def Tile.takeAnswer (x : Tile) (tag : Nat) : Option (MPacket × Tile) :=
  match x.inbox.find? (fun p => p.tag == tag) with
  | none => none
  | some p => some (p, { x with inbox := x.inbox.erase p, asks := x.asks.filter (·.tag ≠ tag) })

def bodyBytes : Body → List Byte
  | .data ss => ss.flatMap (·.2)
  | _ => []

/-- The state of a part whose answer has come (02 R58, R427; 09 Table 09-3). -/
def answered (b : Body) (n : Nat) : PartState :=
  match b with
  | .fail f => .failed f.code f.check
  | _ => .got ((bodyBytes b).take n)

/-- An amo of the tile is still to be sent to a sector of [a, a + n): later loads must miss and see its result (08 R204). -/
def Tile.amoWaiting (x : Tile) (own : Option (StrandId × Nat)) (a n : Nat) : Bool :=
  allStrands.any fun h => (x.strand h).loads.any fun l =>
    (match l.kind with | .amo .. => true | _ => false) && (match own with | some (k, q) => h ≠ k || decide (l.seq < q) | none => true) &&
      l.parts.any fun p => p.state == .waiting && p.target == .memory && overlaps (p.addr / 64 * 64) 64 a n

/-- An older load or atomic of the strand still awaits bytes that a part meets (08 R211). -/
def Strand.olderLoad (r : Strand) (seq : Nat) (p : LoadPart) : Bool :=
  r.loads.any fun l => decide (l.seq < seq) && l.parts.any fun q =>
    q.isOpen && q.target == p.target && q.backstop == p.backstop && overlaps q.addr q.len p.addr p.len

/-- Take one step on a part of a load (02 R48, R49, R50, R53). `ctl` reads control space, once it may. A load that its own strand's youngest
overlapping entry covers takes its bytes from there at once, also where an entry of another strand overlaps it: the spec orders these two
cases in no way (log 96). -/
def State.tryPart (s : State) (a : At) (ld : PendingLoad) (p : LoadPart) (ctl : Option (Nat → Word)) : PartState × State :=
  let x := s.tile a.t
  let r := s.strand a
  match p.state with
  | .got bs => (.got bs, s)
  | .failed c k => (.failed c k, s)
  | .asked tag =>
    match x.asks.find? (·.tag == tag) with
    | none => (.waiting, s)
    | some k =>
      if k.kind ≠ .read then (.asked tag, s)
      else match x.takeAnswer tag with
        | none => (.asked tag, s)
        | some (m, x) => (answered m.body p.len, s.setTile a.t x)
  | .waiting =>
    match ld.kind with
    | .amo code operand compare =>
      if !(r.older ld.seq p).isEmpty || r.olderLoad ld.seq p then (.waiting, s)
      else if p.target = .remote then
        if !x.remoteRoom then (.waiting, s)
        else
          let (tag, s) := s.askRemote a.t a.h .read p.va p.addr (.atomic p.addr code operand compare)
          (.asked tag, s)
      else
        if fillingLine x (p.addr / 256) then (.waiting, s)
        else
          let s := (s.giveUpSector a.t p.addr).flushMerge a.t p.addr
          let (tag, s) := s.ask a.t a.h .read p.va p.addr false (.atomic p.addr code operand compare)
          (.asked tag, s)
    | _ =>
      match p.target with
      | .control =>
        if r.olderUncached ld.seq then (.waiting, s)
        else match ctl with
          | none => (.waiting, s)
          | some f => (.got ((leBytes 8 (f p.addr).toNat).take p.len), s)
      | .remote =>
        if r.olderUncached ld.seq || !x.remoteRoom then (.waiting, s)
        else
          let (tag, s) := s.askRemote a.t a.h .read p.va p.addr (.read p.addr p.len)
          (.asked tag, s)
      | .memory =>
        if p.policy = .uncached then
          if r.olderUncached ld.seq then (.waiting, s)
          else
            let (tag, s) := s.ask a.t a.h .read p.va p.addr ld.isSeal (.read p.addr p.len)
            (.asked tag, s)
        else
          match (r.older ld.seq p).reverse with
          | e :: _ =>
            if e.addr ≤ p.addr ∧ p.addr + p.len ≤ e.addr + e.bytes.length then
              (.got ((e.bytes.drop (p.addr - e.addr)).take p.len), s)
            else (.waiting, s)
          | [] =>
            if allStrands.any (fun h => h ≠ a.h && (x.strand h).sb.any (·.meets p)) || x.amoWaiting (some (a.h, ld.seq)) p.addr p.len then
              (.waiting, s)
            else if p.backstop then (.got (x.backstopRead p.addr p.len), s)
            else if x.hurt p.addr (wordsMet (p.addr % 256) p.len) then (.waiting, s.mend a.t p.addr (wordsMet (p.addr % 256) p.len))
            else if x.present p.addr p.len then
              (.got (x.readLine p.addr p.len), s.updTile a.t fun x => x.touch p.addr)
            else match s.missLine a.t a.h p.va p.addr ld.isSeal with
              | (some tag, s) => (.asked tag, s)
              | (none, s) => (.waiting, s)

/-- Take one step on every part, in order. -/
def State.tryParts (s : State) (a : At) (ld : PendingLoad) (ctl : Option (Nat → Word)) : List LoadPart → List LoadPart × State
  | [] => ([], s)
  | p :: ps =>
    let (st, s) := s.tryPart a ld p ctl
    let (ps, s) := s.tryParts a ld ctl ps
    ({ p with state := st } :: ps, s)

/-- The value that a load's bytes write (02 Table 02-4; 09 R250 for an atomic's old value). -/
def loadValue (k : LoadKind) (n : Nat) (bs : List Byte) : Word :=
  match k with
  | .reg true => sext (8 * n) (leNat bs)
  | .amo code _ _ => if code % 16 = 3 then sext 32 (leNat bs) else word (leNat bs)
  | _ => word (leNat bs)

/-- A load whose bytes are all there writes its destination once and clears its scoreboard bit (02 R53). -/
def State.finishLoad (s : State) (a : At) (l : PendingLoad) (bs : List Byte) : State :=
  match l.kind with
  | .warrant wd =>
    s.updStrand a fun r =>
      ({ r with wregs := Sparse.set 0 r.wregs wd.toNat (BitVec.ofNat 128 (leNat bs)), hold := none }).advance 4
  | .frame => (s.updStrand a fun r => { r with hold := none }).leaveHandler a bs
  | .replay => s
  | k => s.updStrand a fun r => (r.setG l.rd (loadValue k l.len bs)).setBoard l.rd false

/-- Issue a load whose halves have passed their checks: what can be served at once is; the rest waits with the
destination's scoreboard bit set (02 R34, R53). -/
def State.startLoad (s : State) (a : At) (kind : LoadKind) (rd : BitVec 5) (n : Nat) (isSeal : Bool) (parts : List LoadPart) :
    State :=
  let l : PendingLoad := { kind := kind, rd := rd, len := n, seq := (s.strand a).seq, isSeal := isSeal, parts := parts }
  let s := s.updStrand a fun r => { r with seq := r.seq + 1 }
  let (ps, s) := s.tryParts a l none parts
  let l := { l with parts := ps }
  match l.ready with
  | some bs => s.finishLoad a l bs
  | none => s.updStrand a fun r => { r.setBoard rd true with loads := r.loads ++ [l] }

/-- The tile holds a credit of the stack port of an address, and no request of its own waits for that port (01 R27). -/
def State.portFree (s : State) (t : TileId) (addr : Nat) : Bool :=
  let m := stackOfChan (s.channelOf addr)
  decide (0 < (s.tile t).credit m.val) && !(s.tile t).unsent.any (fun q => q.dst == .stack m)

/-- The parts of a load that go to a stack as requests of their own have credits (01 R27): those of an atomic, and uncached ones. -/
def State.hasCredit (s : State) (t : TileId) (amo : Bool) (ps : List LoadPart) : Bool :=
  ps.all fun p => p.target ≠ .memory || p.backstop || (!amo && p.policy ≠ .uncached) || s.portFree t p.addr

/-- A scalar load of `n` bytes (02 Table 02-4). Without a credit that it needs it is not ready (01 R27). -/
def scalarLoad (n : Nat) (signed : Bool) (a : At) (f : IF) (s : State) : Out :=
  s.issue32 a [f.rd, f.rs1] fun s =>
    match s.checkHalves a .load ((s.strand a).g f.rs1 + f.imm.signExtend 64) n with
    | .walk p => .later (s.startWalk a.t p)
    | .fail c k w v => .fault c k w v
    | .ok ps => if s.hasCredit a.t false (partsOf ps) then .done (s.startLoad a (.reg signed) f.rd n false (partsOf ps)) else .wait

/-- lb, 02 Table 02-4. -/
def execLb (a : At) (f : IF) (s : State) : Out := scalarLoad 1 true a f s
/-- lbu, 02 Table 02-4. -/
def execLbu (a : At) (f : IF) (s : State) : Out := scalarLoad 1 false a f s
/-- lh, 02 Table 02-4. -/
def execLh (a : At) (f : IF) (s : State) : Out := scalarLoad 2 true a f s
/-- lhu, 02 Table 02-4. -/
def execLhu (a : At) (f : IF) (s : State) : Out := scalarLoad 2 false a f s
/-- lw, 02 Table 02-4. -/
def execLw (a : At) (f : IF) (s : State) : Out := scalarLoad 4 true a f s
/-- lwu, 02 Table 02-4. -/
def execLwu (a : At) (f : IF) (s : State) : Out := scalarLoad 4 false a f s
/-- ld, 02 Table 02-4. -/
def execLd (a : At) (f : IF) (s : State) : Out := scalarLoad 8 true a f s

/-- The store-buffer entries of a store, one for each half (02 R52). -/
def entriesOf (seq : Nat) (ps : List (Word × Nat × Xlate)) (bs : List Byte) : List SbEntry :=
  match ps with
  | [] => []
  | (v, n, l) :: rest =>
    { seq := seq, va := v, addr := l.addr, bytes := bs.take n, target := l.target, policy := l.policy,
      isSeal := l.isSeal, backstop := l.backstop } :: entriesOf seq rest (bs.drop n)

def Tile.sbCount (x : Tile) : Nat := (allStrands.map fun h => (x.strand h).sb.length).sum

/-- The strand may take `n` more entries of the tile's 16 (02 R47). -/
def State.sbRoom (s : State) (a : At) (n : Nat) : Bool :=
  decide ((s.strand a).sb.length + n ≤ 8) && decide ((s.tile a.t).sbCount + n ≤ 16)

/-- Enter a store's entries, or wait for room (02 R47, R52). -/
def State.enterStore (s : State) (a : At) (ps : List (Word × Nat × Xlate)) (bs : List Byte) : Act :=
  if !s.sbRoom a ps.length then .wait
  else .done (s.updStrand a fun r =>
    { r with sb := r.sb ++ entriesOf r.seq ps bs, seq := r.seq + 1 })

/-- A scalar store of `n` bytes (02 Table 02-4). -/
def scalarStore (n : Nat) (a : At) (f : SF) (s : State) : Out :=
  s.issue32 a [f.rs1, f.rs2] fun s =>
    match s.checkHalves a .store ((s.strand a).g f.rs1 + f.imm.signExtend 64) n with
    | .walk p => .later (s.startWalk a.t p)
    | .fail c k w v => .fault c k w v
    | .ok ps => s.enterStore a ps (leBytes n ((s.strand a).g f.rs2).toNat)

/-- sb, 02 Table 02-4. -/
def execSb (a : At) (f : SF) (s : State) : Out := scalarStore 1 a f s
/-- sh, 02 Table 02-4. -/
def execSh (a : At) (f : SF) (s : State) : Out := scalarStore 2 a f s
/-- sw, 02 Table 02-4. -/
def execSw (a : At) (f : SF) (s : State) : Out := scalarStore 4 a f s
/-- sd, 02 Table 02-4. -/
def execSd (a : At) (f : SF) (s : State) : Out := scalarStore 8 a f s

end Sys2Proof.Machine
end

