-- ==== Sys2Proof/Machine/Energy.lean ====
section
/-! DEFINITION. Energy grants (14 R353, R354): who may issue a charged instruction, and what it pays. -/

namespace Sys2Proof.Machine

/-- The tile can grant `c` rpJ to the waiter numbered `who`: the balance covers it and no other waiter saw the
balance too low before it (14 R354). Strands are numbered 0 to 7, re-issued tile operations from 8. -/
def Tile.grants (x : Tile) (who c : Nat) : Bool :=
  decide (c ≤ x.egBal) && (x.grantQ.isEmpty || x.grantQ.head? == some who)

/-- Take the charge from the balance. -/
def Tile.spend (x : Tile) (who c : Nat) : Tile :=
  { x with egBal := x.egBal - c, egSpent := x.egSpent + word c, grantQ := x.grantQ.filter (· ≠ who) }

/-- Wait for a grant: starved is set, and the waiter keeps the place at which it first found the balance too low. -/
def Tile.starve (x : Tile) (who : Nat) : Tile :=
  { x with egStarved := true, starvedNow := true, waited := true
           grantQ := if x.grantQ.contains who then x.grantQ else x.grantQ ++ [who] }

end Sys2Proof.Machine
end

