-- ==== Sys2Proof/Machine/TileIssue.lean ====
section
/-! DEFINITION. Issue of the queued tile instructions (07 R178, R184, R189, Tables 07-3 to 07-9; 06 R142, R143, R148,
R153; 14 R353, R354). -/

namespace Sys2Proof
open Machine

/-- The highest row that a mask selects, plus 1; 0 for none (06 R153). -/
def maskTop (m : BitVec 16) : Nat := ((List.range 16).filter (m.getLsbD ·)).foldl (fun t i => Nat.max t (i + 1)) 0

/-- Fields of a twld (07 Table 07-3). -/
def MF.woff (f : MF) : Nat := bitsOf f.row.toNat 4 3
def MF.sparsity (f : MF) : Nat := bitsOf f.mask.toNat 0 2
/-- The activation scales of a tmmr: slot and byte offset (07 Table 07-3). -/
def MF.routeScales (f : MF) : Nat × Nat := (bitsOf f.mask.toNat 0 5, 64 * bitsOf f.mask.toNat 5 8)
/-- Byte offset within tb. -/
def MF.offset (f : MF) : Nat := 32 * f.boff.toNat

/-- Length of an activation row (06 R145). -/
def rowLen (sparse : Nat) : Nat := 128 * 2 ^ sparse
/-- No must-be-zero field is set and no reserved value used in major 0x3C (07 R184, Table 07-3). -/
def MF.legal (k : MKind) (f : MF) (full : Bool) : Bool :=
  !f.z47 &&
  match k with
  | .twld => f.arr = 0 && f.acc = 0 && !f.ch && bitsOf f.row.toNat 0 4 = 0 && bitsOf f.mask.toNat 2 14 = 0 && f.sparsity ≠ 3
  | .tmmr => (full || f.arr ≠ 3) && f.row = 0 && bitsOf f.mask.toNat 13 3 = 0
  | .tmma => (full || f.arr ≠ 3) && (f.mx || f.tb = 0)
  | _ => (full || f.arr ≠ 3) && f.tb = 0

/-- The same in major 0x3D (07 R184, Table 07-4). -/
def QF.legal (k : QKind) (f : QF) (full : Bool) : Bool :=
  !f.z0 && f.z60 = 0 && f.rl ≠ 3 && f.mode ≠ 3 &&
  (k == .tacst || !f.tosl) && (k == .tld || (f.mode = 0 && !f.pk)) &&
  (k == .tacld || k == .tacst || !f.raw) && (!f.raw || (f.fm = 0 && f.fo = 0)) &&
  (if k = .tld ∨ k = .tst then f.arr = 0 && f.acc = 0 else full || f.arr ≠ 3)

/-- Reason 0x04 for a matrix operation: rows, offsets and metadata within their slots (07 Table 07-9; 06 R153, R158, R161). -/
def MF.badExtent (k : MKind) (f : MF) (r : MRow) (sparse : Nat) : Bool :=
  let aux (n : Nat) := f.boff.toNat % 2 ≠ 0 || decide (16384 < f.offset + n)
  match k with
  | .twld => if f.mx then aux (8 * r.g) else if f.sparsity = 0 then false else aux (64 * r.g * f.sparsity)
  | .tmmr => f.mx && decide (16384 < f.routeScales.2 + r.g / 2)
  | _ => decide (16384 < (f.row.toNat + maskTop f.mask) * rowLen sparse ∧ f.mask ≠ 0) || (f.mx && aux (8 * r.g))

end Sys2Proof

namespace Sys2Proof.Machine

def TInstr.legal (i : TInstr) (full : Bool) : Bool :=
  match i with | .mat k f => f.legal k full | .mem k f => f.legal k full

/-- Formats that a matrix operation takes (06 R142, Table 06-8), and those of a weight load. -/
def MKind.formatOk (k : MKind) (fmt : Nat) : Bool :=
  match k, rowOf fmt with
  | _, none => false
  | .twld, some _ => true
  | .tmma, some r => r ≠ .b1 && r ≠ .i32
  | .tmmr, some r => r ≠ .b1 && r ≠ .i32
  | .tham, some r => r == .b1
  | .tl1, some r => r == .i8 || r == .i4
  | .tminp, some r => r == .f64 || r == .f32 || r == .i32
  | .tmaxp, some r => r == .f64 || r == .f32 || r == .i32

def MKind.isDistance (k : MKind) : Bool := k == .tham || k == .tl1 || k == .tminp || k == .tmaxp

def isFloat (c : Nat) : Bool := decide (6 ≤ c ∧ c ≤ 14)
def isInt (c : Nat) : Bool := decide (1 ≤ c ∧ c ≤ 5)

/-- The pairings of 07 Table 07-7; `kind` is the captured slot kind. -/
def conversionOk (k : QKind) (f : QF) (kind : Nat) : Bool :=
  let fm := f.fm.toNat
  let fo := f.fo.toNat
  match k with
  | .tst => fm = 0 && fo = 0
  | .taczero => true
  | .tld =>
    (!f.pk || fm = 12 || fm = 13) &&
    ((fm = 0 && fo = 0) || (fm = 15 && fo = 15) || (isFloat fm && isFloat fo) ||
      (isInt fm && (isFloat fo || (isInt fo && widthOf fm ≤ widthOf fo))))
  | .tacld =>
    f.raw || (if kind ≤ 1 then [6, 7, 8, 9].contains fm else if kind = 3 then isFloat fm else [1, 2, 3].contains fm)
  | .tacst =>
    let out := if f.tosl then fo else fm
    f.raw || (!f.raw && (if kind = 2 then [3, 4, 8, 9].contains out else [6, 7, 8, 9, 10, 11].contains out))

/-- The issue conditions of 07 Table 07-9 on a matrix operation, against the last weight load. -/
def matReason (k : MKind) (f : MF) (cfg : Word) (wl : Option WKind) : Option Nat :=
  match rowOf f.fmt.toNat with
  | none => some 1
  | some r =>
    let sparse := if k = .twld then f.sparsity else match wl with | some w => w.sparse | none => 0
    let sortBad := k ≠ .twld && (match wl.bind (fun w => rowOf w.fmt) with | some w => w.sort ≠ r.sort | none => false)
    let slotBad := match (TInstr.mat k f).slot with | none => false | some s => kindOf cfg s ≠ r.kind f.mx
    if !k.formatOk f.fmt.toNat || sortBad then some 1
    else if slotBad then some 2
    else if (sparse ≠ 0 && f.mx) || (sparse = 2 && r.w ≠ 8 && r.w ≠ 4) || (sparse ≠ 0 && r == .b1) ||
        (sparse ≠ 0 && k.isDistance) || (f.mx && (k.isDistance || !r.isNarrow)) then some 3
    else if f.badExtent k r sparse then some 4
    else none

/-- The issue conditions of 07 Table 07-9 on a memory or accumulator operation. -/
def memReason (k : QKind) (f : QF) (cfg : Word) : Option Nat :=
  let kind := kindOf cfg (4 * f.arr.toNat + f.acc.toNat)
  if !conversionOk k f kind then some 1
  else if badExtent k f kind then some 4
  else if badRows k f then some 9
  else none

def TInstr.reason (i : TInstr) (cfg : Word) (wl : Option WKind) : Option Nat :=
  match i with | .mat k f => matReason k f cfg wl | .mem k f => memReason k f cfg

/-- rpJ per fed row (14 Table 14-2). -/
def rowCharge (r : MRow) (sparse : Nat) (mx : Bool) : Nat :=
  let base := match r with
    | .f64 => 420 | .f32 | .i32 => 400 | .f16 => 380 | .f8 | .i8 => 360 | .f4 | .i4 => 340 | .b1 => 300
  base + (if mx then 20 else if sparse = 1 then 40 else if sparse = 2 then 70 else 0)

/-- Bytes that a memory operation moves in the operand file or the slot (14 R353). -/
def moved (k : QKind) (f : QF) (kind : Nat) : Nat :=
  match k with
  | .tld => if f.mode = 0 then f.rows * f.rowLen else 2048
  | .tst => f.rows * f.rowLen
  | .tacst => if f.tosl then 32 * outBits f kind else 0
  | _ => 0

/-- The charge of a tile operation (14 R353, Tables 14-2, 14-3). -/
def TInstr.charge (i : TInstr) (sparse : Nat) (cfg : Word) : Nat :=
  match i with
  | .mat .twld _ => 1600
  | .mat k f =>
    (match rowOf f.fmt.toNat with | some r => rowCharge r sparse f.mx | none => 0) *
      (if k = .tmmr then 16 else popCount 16 f.mask.toNat)
  | .mem .taczero _ => 60
  | .mem k f => 200 * max 1 (ceilDiv (moved k f (match (TInstr.mem k f).slot with | some s => kindOf cfg s | none => 0)) 512)

/-- Write TFAULT and TFAULT_IA for a fault at `pc` that is raised at once (07 R189). -/
def Strand.preciseFault (r : Strand) (reason : Nat) : Strand :=
  { r with tfault := word reason, tfaultIa := r.pc.setWidth 48 }

/-- The precise tile operation fault (07 R189). -/
def tileFault (s : State) (a : At) (reason : Nat) : Act :=
  if !(s.strand a).mayEnter then .wait
  else .later ((s.updStrand a fun r => r.preciseFault reason).raise a cTile 0 0 (s.strand a).pc)

/-- Raise the recorded fault at the instruction that the strand stands at (07 R189). -/
def State.raiseRecorded (s : State) (a : At) : State :=
  let r := s.strand a
  if !r.mayEnter then s
  else
    let addr := if r.tfault.toNat % 256 = 0x10 then r.tfaultAddr else r.tfaultIa.setWidth 64
    (s.updStrand a fun r => { r with tfault := r.tfault &&& ~~~ (1#64 <<< 24) }).raise a cTile 0 0 addr

/-- A recorded fault is raised before any other check of a tile instruction (07 R189). -/
def State.tileReach (s : State) (a : At) (k : State) : State := if !(s.strand a).tfault.getLsbD 24 then k else s.raiseRecorded a

/-- Issue a tile instruction. -/
def State.issueTile (s : State) (a : At) (uses : List (BitVec 5)) (eff : State → Act) : State :=
  s.issueWith a 8 fun s => s.tileReach a (s.attempt a 8 false uses eff)

/-- An operation whose memory rows can still fail would become a held entry again: its queue entry is kept for it, so that the replay list
never holds more than 8 (07 R190; log 98). -/
def TOp.mayReturn (o : TOp) : Bool :=
  match o.instr with
  | .mem .taczero _ => false
  | .mem _ f => !(o.instr.slot.isSome && f.tosl)
  | _ => false

/-- Entries of the tile queue that are taken: operations that have not begun, held ones too (07 R178), and those that may come back. -/
def Tile.queued (x : Tile) : Nat := (x.tq.filter fun o => !o.begun || o.mayReturn).length

/-- The general registers that an instruction captures (07 Table 07-4). -/
def TInstr.regs : TInstr → List (BitVec 5)
  | .mat _ _ => []
  | .mem .taczero _ => []
  | .mem _ f => [f.gs, f.gt]

/-- Put an operation into the tile queue with what it captures (07 R176, R178; 06 R164). -/
def State.enqueueTile (s : State) (a : At) (i : TInstr) (charge : Nat) : State :=
  (s.payTile a.t charge).updTile a.t fun x =>
    let r := x.strand a.h
    let x := x.spend a.h.val charge
    let load := i.isLoad
    let gen := if load then x.wgen + 1 else x.wissued
    let (gs, gt) := match i with | .mat _ _ => (0, 0) | .mem _ f => (r.g f.gs, r.g f.gt)
    let o : TOp :=
      { id := x.opNext, h := a.h, instr := i, ia := r.pc, gs := gs, gt := gt, cfg := x.cfg,
        gen := match i with | .mat _ _ => gen | .mem _ _ => 0
        auth := x.auth a.h, held := false, tag := none, described := false, reissued := false, granted := true, begun := false,
        row := 0, pos := 0, seq := r.seq, wait := none, bad := none, staged := [], out := [], flags := 0 }
    { x with
      opNext := x.opNext + 1, tq := x.tq ++ [o]
      wgen := if load then x.wgen + 1 else x.wgen
      wissued := gen
      wlast := match i with
        | .mat .twld f => some { fmt := f.fmt.toNat, sparse := f.sparsity, mx := f.mx }
        | _ => x.wlast }

/-- Issue a queued tile instruction: recorded fault, illegal, waiting (entry, grant), precise fault, or queued. -/
def tileIssue (i : TInstr) (a : At) (s : State) : Out :=
  .next (s.issueTile a i.regs fun s =>
    let x := s.tile a.t
    let r := s.strand a
    if r.status.bs || !i.legal s.grade768 then illegal s a
    else match i.reason x.cfg x.wlast with
      | some reason => tileFault s a reason
      | none =>
        let charge := i.charge (match x.wlast with | some w => w.sparse | none => 0) x.cfg
        if x.queued ≥ 8 then .wait
        else if !x.grants a.h.val charge then .later (s.updTile a.t fun x => x.starve a.h.val)
        else .done (s.enqueueTile a i charge))

/-- twld, 06 Table 06-3. -/
def execTwld (a : At) (f : MF) (s : State) : Out := tileIssue (.mat .twld f) a s
/-- tmma. -/
def execTmma (a : At) (f : MF) (s : State) : Out := tileIssue (.mat .tmma f) a s
/-- tmmr. -/
def execTmmr (a : At) (f : MF) (s : State) : Out := tileIssue (.mat .tmmr f) a s
/-- tham. -/
def execTham (a : At) (f : MF) (s : State) : Out := tileIssue (.mat .tham f) a s
/-- tl1. -/
def execTl1 (a : At) (f : MF) (s : State) : Out := tileIssue (.mat .tl1 f) a s
/-- tminp. -/
def execTminp (a : At) (f : MF) (s : State) : Out := tileIssue (.mat .tminp f) a s
/-- tmaxp. -/
def execTmaxp (a : At) (f : MF) (s : State) : Out := tileIssue (.mat .tmaxp f) a s
/-- tld, 07 R185. -/
def execTld (a : At) (f : QF) (s : State) : Out := tileIssue (.mem .tld f) a s
/-- tst. -/
def execTst (a : At) (f : QF) (s : State) : Out := tileIssue (.mem .tst f) a s
/-- tacld, 07 R187. -/
def execTacld (a : At) (f : QF) (s : State) : Out := tileIssue (.mem .tacld f) a s
/-- tacst. -/
def execTacst (a : At) (f : QF) (s : State) : Out := tileIssue (.mem .tacst f) a s
/-- taczero. -/
def execTaczero (a : At) (f : QF) (s : State) : Out := tileIssue (.mem .taczero f) a s

end Sys2Proof.Machine
end

