-- ==== Sys2Proof/Machine/VecOps.lean ====
section
/-! DEFINITION. Vector registers and the arithmetic of vector elements (04, "Element arithmetic", "Permutation",
"Reductions and scans"). -/

namespace Sys2Proof.Machine

def Tile.vreg (x : Tile) (v : Nat) : BitVec 16384 := Sparse.get 0 x.vregs v
def Tile.mreg (x : Tile) (m : Nat) : BitVec 32768 := Sparse.get 0 x.mregs m

/-- Element `i`, `w` bits wide, of the group that starts at register `v` (04 R90). -/
def Tile.elem (x : Tile) (v w i : Nat) : Nat := bitsOf (x.vreg (v + i * w / 16384)).toNat (i * w % 16384) w
def Tile.setElem (x : Tile) (v w i n : Nat) : Tile :=
  let k := v + i * w / 16384
  { x with vregs := Sparse.set 0 x.vregs k (BitVec.ofNat 16384 (setBits (x.vreg k).toNat (i * w % 16384) w n)) }
def Tile.mbit (x : Tile) (m i : Nat) : Bool := (x.mreg m).getLsbD i
def Tile.setMbit (x : Tile) (m i : Nat) (b : Bool) : Tile :=
  { x with mregs := Sparse.set 0 x.mregs m (BitVec.ofNat 32768 (setBits (x.mreg m).toNat i 1 (natOf b))) }

def VOp.fmt (o : VOp) : Nat := bitsOf o.vfmt.toNat 0 4
def VOp.mode (o : VOp) : FMode := { rm := bitsOf o.vfmt.toNat 4 3, sat := bitOf o.vfmt.toNat 7, ftz := bitOf o.vfmt.toNat 8 }
def VOp.xrm (o : VOp) : Nat := bitsOf o.vfmt.toNat 9 2
def VOp.w (o : VOp) : Nat := widthOf o.fmt

/-- Element `i` is active (04 R92). -/
def VOp.active (o : VOp) (x : Tile) (i : Nat) : Bool := !o.f.masked || x.mbit o.f.mreg.toNat i

/-- The value bits of an element: FP6 reads bits [5:0] of its byte (05 R121). -/
def trimFp6 (fmt n : Nat) : Nat := if fmt = 12 ∨ fmt = 13 then n % 64 else n

def VOp.a (o : VOp) (x : Tile) (w i : Nat) : Nat := trimFp6 o.fmt (x.elem o.f.vs1.toNat w i)

/-- The second source (04 Table 04-8, R102): vs2, g[gs], or the immediate converted to the format. -/
def VOp.b (o : VOp) (x : Tile) (w i : Nat) : Nat × Flags :=
  match o.f.src.toNat with
  | 0 => (trimFp6 o.fmt (x.elem o.f.vs2.toNat w i), 0)
  | 1 => (trimFp6 o.fmt (o.scalar.toNat % 2 ^ w), 0)
  | _ => convert o.mode 2 o.fmt o.f.imm.toNat

/-- Integer element operations that wrap (04 R103). -/
def intElem (k : VKind) (w a b d : Nat) : Nat :=
  let sa := signedOf w a
  let sb := signedOf w b
  let sh := b % w
  match k with
  | .add => (a + b) % 2 ^ w
  | .sub => unsignedOf w (sa - sb)
  | .rsub => unsignedOf w (sb - sa)
  | .mul => a * b % 2 ^ w
  | .min => if sa < sb then a else b
  | .max => if sa < sb then b else a
  | .minu => min a b
  | .maxu => max a b
  | .and => a &&& b
  | .or => a ||| b
  | .xor => a ^^^ b
  | .sll => a * 2 ^ sh % 2 ^ w
  | .srl => a / 2 ^ sh
  | .sra => unsignedOf w (sa / (2 ^ sh : Nat))
  | .mulh => unsignedOf w (sa * sb / (2 ^ w : Nat))
  | .mulhu => a * b / 2 ^ w
  | .fma => (a * b + d) % 2 ^ w
  | .fms => unsignedOf w (sa * sb - signedOf w d)
  | .fnma => unsignedOf w (signedOf w d - sa * sb)
  | .abs => unsignedOf w sb.natAbs
  | .neg => unsignedOf w (-sb)
  | _ => 0

/-- Floating element operations, each rounded once (04 R103). -/
def fpElem (F : FFmt) (md : FMode) (k : VKind) (a b d : Nat) : Nat × Flags :=
  match k with
  | .add => F.addOp md a b
  | .sub => F.subOp md a b
  | .rsub => F.subOp md b a
  | .mul => F.mulOp md a b
  | .min => F.minmaxOp md false a b
  | .max => F.minmaxOp md true a b
  | .fma => F.fmaOp md false false a b d
  | .fms => F.fmaOp md false true a b d
  | .fnma => F.fmaOp md true false a b d
  | .div => F.divOp md a b
  | .sqrt => F.sqrtOp md b
  | .abs => F.absOp md b
  | .neg => F.negOp md b
  | _ => (0, 0)

/-- Comparisons (04 Table 04-5); a NaN compares unequal and unordered, and only a signalling one sets invalid (05 R120). -/
def compareElem (fmt : Nat) (md : FMode) (k : VKind) (a b : Nat) : Bool × Flags :=
  match ffmtOf fmt with
  | some F =>
    let (u, f) := F.read md a
    let (v, g) := F.read md b
    let un := u.isNan || v.isNan
    (match k with
     | .cmpeq => u.eq v
     | .cmpne => un || !u.eq v
     | .cmplt => u.lt v
     | .cmple => !un && !v.lt u
     | .cmpun => un
     | _ => false, f ||| g)
  | none =>
    let w := widthOf fmt
    (match k with
     | .cmpeq => a == b
     | .cmpne => a != b
     | .cmplt => decide (signedOf w a < signedOf w b)
     | .cmple => decide (signedOf w a ≤ signedOf w b)
     | .cmpltu => decide (a < b)
     | .cmpleu => decide (a ≤ b)
     | _ => false, 0)

/-- Clamp to a range; a change sets vflags.sat (04 R106). -/
def clampTo (w : Nat) (lo hi z : Int) : Nat × Flags :=
  let c := clampInt lo hi z
  (unsignedOf w c, if c ≠ z then fSat else 0)

/-- Fixed-point elements (04 R106). For nclip and nclipu, `a` has 2w bits. -/
def fixedElem (k : VKind) (w xrm a b : Nat) : Nat × Flags :=
  let sa := signedOf w a
  let sb := signedOf w b
  let top : Int := ((2 ^ w : Nat) : Int) - 1
  match k with
  | .sadd => clampTo w (minInt w) (maxInt w) (sa + sb)
  | .saddu => clampTo w 0 top (a + b)
  | .ssub => clampTo w (minInt w) (maxInt w) (sa - sb)
  | .ssubu => clampTo w 0 top ((a : Int) - b)
  | .smul => clampTo w (minInt w) (maxInt w) (fixedRound xrm (w - 1) (sa * sb))
  | .ssra => (unsignedOf w (fixedRound xrm (b % w) sa), 0)
  | .ssrl => (unsignedOf w (fixedRound xrm (b % w) a), 0)
  | .nclip => clampTo w (minInt w) (maxInt w) (fixedRound xrm (b % (2 * w)) (signedOf (2 * w) a))
  | .nclipu => clampTo w 0 top (fixedRound xrm (b % (2 * w)) a)
  | .aadd => (unsignedOf w (fixedRound xrm 1 (sa + sb)), 0)
  | _ => (0, 0)

/-- The next wider format (04 R104). -/
def widerOf (fmt : Nat) : Nat :=
  match fmt with | 1 => 2 | 2 => 3 | 3 => 4 | 6 => 8 | 7 => 8 | 8 => 9 | _ => 0

/-- Read in one floating format, to compute in another. -/
def widen (md : FMode) (src : Nat) (n : Nat) : FVal × Flags :=
  match ffmtOf src with
  | some F => F.read md n
  | none => (FVal.ofInt (signedOf (widthOf src) n), 0)

/-- Widening operations (04 R104): rounded once into the wide format. -/
def widenElem (k : VKind) (fmt : Nat) (md : FMode) (a b d : Nat) : Nat × Flags :=
  let w := widthOf fmt
  match ffmtOf (widerOf fmt) with
  | some G =>
    let (u, f) := widen md fmt a
    let (v, g) := widen md fmt b
    let (n, h) : Nat × Flags :=
      match k with
      | .wadd | .waddu => G.sum md [u, v]
      | .wmul | .wmulu => let (p, l) := u.mul v; let (n, m) := G.ofVal md p; (n, l ||| m)
      | _ =>
        let (p, l) := u.mul v
        let (c, m) := G.read md d
        let (n, j) := G.sum md [p, c]
        (n, l ||| m ||| j)
    (n, f ||| g ||| h)
  | none =>
    let sa := signedOf w a
    let sb := signedOf w b
    (match k with
     | .wadd => unsignedOf (2 * w) (sa + sb)
     | .waddu => a + b
     | .wmul => unsignedOf (2 * w) (sa * sb)
     | .wmulu => a * b
     | _ => unsignedOf (2 * w) (sa * sb + signedOf (2 * w) d), 0)

/-- One destination lane of vdotk (04 R105): an exact sum of products and the old lane, rounded once to FP32. -/
def dotLane (fa fb : Nat) (md : FMode) (d : Nat) (ps : List (Nat × Nat)) : Nat × Flags :=
  match ffmtOf fa, ffmtOf fb with
  | some F, some G =>
    let terms := ps.map fun (a, b) =>
      let (u, f) := F.read md a
      let (v, g) := G.read md b
      let (p, h) := u.mul v
      (p, f ||| g ||| h)
    let (c, f) := fp32.read md d
    let (n, g) := fp32.sum md (terms.map (·.1) ++ [c])
    (n, terms.foldl (fun x t => x ||| t.2) (f ||| g))
  | _, _ =>
    let w := widthOf fa
    (unsignedOf 32 (signedOf 32 d + (ps.map fun (a, b) => signedOf w a * signedOf w b).sum), 0)

/-- The exponent of the largest normal element (05 R137). -/
def emaxOf (fmt : Nat) : Int := match fmt with | 10 => 8 | 11 => 15 | 12 => 2 | 13 => 4 | _ => 2

/-- floor(log2 |v|) of a non-zero finite value. -/
def FVal.log2 : FVal → Int
  | .fin _ m e => (Nat.log2 m : Int) + e
  | _ => 0

/-- One element of an MX block, rounded, clamped to the largest finite element (05 R137). -/
def mxElem (fmt : Nat) (md : FMode) (x : Int) (v : FVal) : Nat × Flags :=
  match ffmtOf fmt, v with
  | some F, .fin s m e =>
    if m = 0 then (F.signed s 0, 0)
    else
      let (n, f) := F.round { md with sat := true } s m (e - x)
      (n, if f &&& fOverflow ≠ 0 then fInexact else f)
  | _, _ => (0, 0)

/-- vmxq on one block of 32 (05 R137): the scale code, the elements, the flags. -/
def mxQuant (fmt : Nat) (md : FMode) (ins : List Nat) : Nat × List Nat × Flags :=
  let rs := ins.map (fp32.read md)
  let vs := rs.map (·.1)
  let f := rs.foldl (fun a r => a ||| r.2) 0
  if vs.any (fun v => v.isNan || v.isInf true || v.isInf false) then (0xFF, ins.map fun _ => 0, f ||| fInvalid)
  else if vs.all FVal.isZero then (0, ins.map fun _ => 0, f)
  else
    let top := ((vs.filter fun v => !v.isZero).map FVal.log2).foldl max (-100000)
    let x := clampInt (-127) 127 (top - emaxOf fmt)
    let es := vs.map (mxElem fmt md x)
    ((x + 127).toNat, es.map (·.1), es.foldl (fun a e => a ||| e.2) f)

/-- vmxdq on one element (05 R137). -/
def mxDequant (src dst : Nat) (md : FMode) (scale n : Nat) : Nat × Flags :=
  match ffmtOf src, ffmtOf dst with
  | some F, some G =>
    if scale = 255 then (G.nanCode, 0)
    else match F.read md n with
      | (.fin s m e, f) => let (r, g) := G.ofVal md (.fin s m (e + scale - 127)); (r, f ||| g)
      | (v, f) => let (r, g) := G.ofVal md v; (r, f ||| g)
  | _, _ => (0, 0)

/-- An element that a reduction or scan passes on without an operation: a NaN becomes the canonical one, and a signalling one sets
invalid (05 R120). -/
def passElem (fmt : Nat) (md : FMode) (n : Nat) : Nat × Flags :=
  match ffmtOf fmt with
  | some F => let (v, f) := F.read md n; if v.isNan then (F.nanCode, f) else (n, 0)
  | none => (n, 0)

/-- The combining operation of reductions and scans (04 R113, R114). -/
def combineElem (k : VKind) (fmt : Nat) (md : FMode) (u v : Nat) : Nat × Flags :=
  let e : VKind :=
    match k with
    | .redsum | .scansum | .wredsum => .add
    | .redmin | .scanmin => .min
    | .redmax | .scanmax => .max
    | .redminu => .minu | .redmaxu => .maxu | .redand => .and | .redor => .or | _ => .xor
  match ffmtOf fmt with
  | some F => fpElem F md e u v 0
  | none => (intElem e (widthOf fmt) u v 0, 0)

/-- Combine neighbours at one level of the tree; absent ones pass (04 R113). -/
def treeLevel (op : Nat → Nat → Nat × Flags) : List (Option Nat) → List (Option Nat) × Flags
  | u :: v :: rest =>
    let (r, f) := treeLevel op rest
    match u, v with
    | some x, some y => let (z, g) := op x y; (some z :: r, f ||| g)
    | some x, none => (some x :: r, f)
    | none, y => (y :: r, f)
  | [u] => ([u], 0)
  | [] => ([], 0)

/-- The tree of 04 R113 without an initial value: `n` levels. -/
def treeFold (op : Nat → Nat → Nat × Flags) : Nat → List (Option Nat) → Option Nat × Flags
  | 0, xs => (xs.head?.getD none, 0)
  | n + 1, xs =>
    let (ys, f) := treeLevel op xs
    let (r, g) := treeFold op n ys
    (r, f ||| g)

def treeOf (op : Nat → Nat → Nat × Flags) (xs : List (Option Nat)) : Option Nat × Flags :=
  treeFold op (log2Ceil xs.length) xs

/-- One doubling step of a scan (04 R114) over values with segment flags. -/
def scanStep (op : Nat → Nat → Nat × Flags) (d : Nat) (ys : List (Nat × Bool)) : List (Nat × Bool) × Flags :=
  let zs := ys.zipIdx.map fun ((y, f), i) =>
    if i < d then ((y, f), 0)
    else
      let (p, pf) := ys.getD (i - d) (0, false)
      if f then ((y, f), 0) else let (z, g) := op p y; ((z, f || pf), g)
  (zs.map (·.1), zs.foldl (fun a z => a ||| z.2) 0)

def scanGo (op : Nat → Nat → Nat × Flags) : Nat → Nat → List (Nat × Bool) → List (Nat × Bool) × Flags
  | 0, _, ys => (ys, 0)
  | n + 1, d, ys =>
    let (zs, f) := scanStep op d ys
    let (r, g) := scanGo op n (2 * d) zs
    (r, f ||| g)

/-- Everything a step computes for one unit (element, lane, block) of a resumable vector instruction: writes of
(register, width, index, value), a mask bit, and flags. -/
structure Unit1 where
  vw : List (Nat × Nat × Nat × Nat)
  mb : Option (Nat × Nat × Bool)
  flags : Flags

def Tile.apply1 (x : Tile) (u : Unit1) : Tile :=
  let x := u.vw.foldl (fun x (v, w, i, n) => x.setElem v w i n) x
  match u.mb with
  | none => x
  | some (m, i, b) => x.setMbit m i b

/-- Products per lane of vdotk. -/
def VKind.dot : VKind → Nat | .dot2 => 2 | .dot4 => 4 | .dot8 => 8 | _ => 1

/-- Elements that one unit of the instruction spans: k for vdotk, 32 for the MX instructions. -/
def VKind.unitSize : VKind → Nat
  | .dot2 => 2 | .dot4 => 4 | .dot8 => 8 | .mxq => 32 | .mxdq => 32 | _ => 1

/-- What unit `i` of an arithmetic, resumable instruction does (04 R103–R108, Table 04-5). -/
def VOp.unit (o : VOp) (x : Tile) (i : Nat) : Unit1 :=
  let w := o.w
  let vd := o.f.vd.toNat
  let md := o.mode
  let one (w : Nat) (r : Nat × Flags) : Unit1 := { vw := [(vd, w, i, r.1)], mb := none, flags := r.2 }
  if o.kind = .merge then
    let (b, f) := o.b x w i
    one w (if x.mbit o.f.mreg.toNat i then (o.a x w i, 0) else (b, f))
  else if !o.active x i then { vw := [], mb := none, flags := 0 }
  else
    let (b, bf) := o.b x w i
    match o.kind with
    | .cmpeq | .cmpne | .cmplt | .cmple | .cmpltu | .cmpleu | .cmpun =>
      let (r, f) := compareElem o.fmt md o.kind (o.a x w i) b
      { vw := [], mb := some (vd, i, r), flags := bf ||| f }
    | .cvt =>
      let src := o.f.fmtx.toNat
      let n := trimFp6 src (if o.f.src = 1 then o.scalar.toNat % 2 ^ widthOf src else x.elem o.f.vs2.toNat (widthOf src) i)
      one w (convert md src o.fmt n)
    | .mv => one w (if o.f.src = 0 then (o.a x w i, 0) else (b, bf))
    | .wadd | .waddu | .wmul | .wmulu | .wfma =>
      let (r, f) := widenElem o.kind o.fmt md (o.a x w i) b (x.elem vd (2 * w) i)
      one (2 * w) (r, bf ||| f)
    | .dot2 | .dot4 | .dot8 =>
      let k := o.kind.dot
      let fb := if o.f.fmtx = 0 then o.fmt else o.f.fmtx.toNat
      let ps := (List.range k).map fun j =>
        (trimFp6 o.fmt (x.elem o.f.vs1.toNat w (k * i + j)), trimFp6 fb (x.elem o.f.vs2.toNat w (k * i + j)))
      one (k * w) (dotLane o.fmt fb md (x.elem vd (k * w) i) ps)
    | .sadd | .saddu | .ssub | .ssubu | .smul | .ssra | .ssrl | .aadd =>
      let (r, f) := fixedElem o.kind w o.xrm (o.a x w i) b
      one w (r, bf ||| f)
    | .nclip | .nclipu =>
      let (r, f) := fixedElem o.kind w o.xrm (x.elem o.f.vs1.toNat (2 * w) i) b
      one w (r, bf ||| f)
    | .mxq =>
      let (sc, es, f) := mxQuant o.fmt md ((List.range 32).map fun j => x.elem o.f.vs2.toNat 32 (32 * i + j))
      { vw := (o.f.vs1.toNat, 8, i, sc) :: es.zipIdx.map (fun (n, j) => (vd, w, 32 * i + j, n)), mb := none, flags := f }
    | .mxdq =>
      let sc := x.elem o.f.vs1.toNat 8 i
      let dw := widthOf o.f.fmtx.toNat
      let es := (List.range 32).map fun j =>
        mxDequant o.fmt o.f.fmtx.toNat md sc (trimFp6 o.fmt (x.elem o.f.vs2.toNat w (32 * i + j)))
      { vw := es.zipIdx.map (fun (n, j) => (vd, dw, 32 * i + j, n.1)), mb := none, flags := es.foldl (fun a e => a ||| e.2) 0 }
    | k =>
      match ffmtOf o.fmt with
      | some F => let (r, f) := fpElem F md k (o.a x w i) b (x.elem vd w i); one w (r, bf ||| f)
      | none => one w (intElem k w (o.a x w i) b (x.elem vd w i), bf)

/-- The whole instructions (04 R112–R114, R116, R426): the tile after, the scalar result, the flags. -/
def VOp.whole (o : VOp) (x : Tile) : Tile × Option Word × Flags :=
  let w := o.w
  let vd := o.f.vd.toNat
  let n := o.vlen
  let idx := List.range n
  let act := idx.filter (o.active x)
  let m1 := (o.f.vs1.toNat) % 8
  let m2 := (o.f.vs2.toNat) % 8
  let mask (g : Bool → Bool → Bool) : Tile × Option Word × Flags :=
    (act.foldl (fun y i => y.setMbit vd i (g (x.mbit m1 i) (x.mbit m2 i))) x, none, 0)
  let put (ps : List (Nat × Nat)) : Tile × Option Word × Flags :=
    (ps.foldl (fun y (i, v) => y.setElem vd w i (trimFp6 o.fmt v)) x, none, 0)
  match o.kind with
  | .mvxs => (x, some (sext w (x.elem o.f.vs2.toNat w o.f.imm.toNat)), 0)
  | .mvsx => (x.setElem vd w o.f.imm.toNat (o.scalar.toNat % 2 ^ w), none, 0)
  | k =>
  if n = 0 then
    (x, none, 0)
  else match k with
  | .mand => mask (· && ·)
  | .mor => mask (· || ·)
  | .mxor => mask (· != ·)
  | .mandn => mask fun p q => p && !q
  | .mnot => mask fun _ q => !q
  | .mpopc => (x, some (word (act.filter (x.mbit m2)).length), 0)
  | .mfirst => (x, some (match act.find? (x.mbit m2) with | some i => word i | none => BitVec.allOnes 64), 0)
  | .compress => put (act.zipIdx.map fun (i, j) => (j, x.elem o.f.vs2.toNat w i))
  | .expand => put (act.zipIdx.map fun (i, j) => (i, x.elem o.f.vs2.toNat w j))
  | .slideup =>
    let sh := if o.f.src = 1 then o.scalar.toNat else o.f.imm.toNat
    put ((act.filter (sh ≤ ·)).map fun i => (i, x.elem o.f.vs2.toNat w (i - sh)))
  | .slidedown =>
    let sh := if o.f.src = 1 then o.scalar.toNat else o.f.imm.toNat
    put (act.map fun i => (i, if i + sh ≥ n then 0 else x.elem o.f.vs2.toNat w (i + sh)))
  | .perm =>
    put (act.map fun i =>
      let j := x.elem o.f.vs2.toNat w i
      (i, if j ≥ n then 0 else x.elem o.f.vs1.toNat w j))
  | .scansum | .scanmin | .scanmax =>
    let ys := idx.map fun i => (x.elem o.f.vs2.toNat w i, i == 0 || x.mbit o.f.mreg.toNat i)
    let (zs, f) := scanGo (combineElem o.kind o.fmt o.mode) (log2Ceil n) 1 ys
    let out := zs.map fun z => passElem o.fmt o.mode z.1
    let (y, _, _) := put (out.zipIdx.map fun (z, i) => (i, z.1))
    (y, none, out.foldl (fun a z => a ||| z.2) f)
  | .wredsum =>
    let wf := widerOf o.fmt
    let conv (i : Nat) : Nat × Flags :=
      match ffmtOf wf with
      | some G => let (v, f) := widen o.mode o.fmt (x.elem o.f.vs2.toNat w i); let (r, g) := G.ofVal o.mode v; (r, f ||| g)
      | none => (unsignedOf (2 * w) (signedOf w (x.elem o.f.vs2.toNat w i)), 0)
    let xs := idx.map fun i => if o.active x i then some (conv i) else none
    let f0 := xs.foldl (fun a e => a ||| (match e with | some p => p.2 | none => 0)) 0
    let (r, f) := treeOf (combineElem .wredsum wf o.mode) (xs.map (·.map (·.1)))
    let init := x.elem o.f.vs1.toNat (2 * w) 0
    let (v, g) := match r with | some v => combineElem .wredsum wf o.mode init v | none => passElem wf o.mode init
    (x.setElem vd (2 * w) 0 v, none, f0 ||| f ||| g)
  | k =>
    let xs := idx.map fun i => if o.active x i then some (x.elem o.f.vs2.toNat w i) else none
    let (r, f) := treeOf (combineElem k o.fmt o.mode) xs
    let init := x.elem o.f.vs1.toNat w 0
    let (v, g) := match r with | some v => combineElem k o.fmt o.mode init v | none => passElem o.fmt o.mode init
    (x.setElem vd w 0 v, none, f ||| g)

def VKind.isWhole : VKind → Bool
  | .mand | .mor | .mxor | .mandn | .mnot | .mpopc | .mfirst | .compress | .expand | .slideup | .slidedown
  | .perm | .mvxs | .mvsx | .redsum | .redmin | .redmax | .redminu | .redmaxu | .redand | .redor | .redxor
  | .wredsum | .scansum | .scanmin | .scanmax => true
  | _ => false
def VKind.isMem : VKind → Bool
  | .ld | .lds | .ldx | .st | .sts | .stx | .ldm | .stm | .amox => true
  | _ => false
def VKind.isLoad : VKind → Bool
  | .ld | .lds | .ldx | .ldm => true
  | _ => false
def VKind.isScalar : VKind → Bool
  | .mpopc | .mfirst | .mvxs => true
  | _ => false

end Sys2Proof.Machine
end

