-- ==== Sys2Proof/Machine/Arrays.lean ====
section
/-! DEFINITION. What the matrix arrays compute (06 R144–R146, R153–R163; 05 R131–R136), and reading the operand file. -/

namespace Sys2Proof.Machine

/-- 128-byte portion `p` of operand slot `t`; portions may run on past a slot's end (07 R172). -/
def Tile.portion (x : Tile) (t p : Nat) : BitVec 1024 := Sparse.get 0 x.opfile (128 * t + p)

/-- `n` bytes of a slot from byte `b`, as a number. -/
def Tile.slotNat (x : Tile) (t b n : Nat) : Nat :=
  leNat ((List.range n).map fun i => BitVec.ofNat 8 ((x.portion t ((b + i) / 128)).toNat / 256 ^ ((b + i) % 128)))

def Tile.slotByte (x : Tile) (t b : Nat) : Nat := x.slotNat t b 1

/-- An activation row of `len` bytes (06 R145). -/
def Tile.actRow (x : Tile) (t row len : Nat) : Nat :=
  ((List.range (len / 128)).map fun i => (x.portion t (row * (len / 128) + i)).toNat * 2 ^ (1024 * i)).sum

/-- The weight at position `q` of cell (r, c) (06 R144). -/
def WTile.at (w : WTile) (row : MRow) (r c q : Nat) : Nat :=
  trimFp6 w.fmt (bitsOf (w.rows.getD r 0).toNat (64 * c + row.w * q) row.w)

def WTile.auxByte (w : WTile) (i : Nat) : Nat := (w.aux.getD i 0).toNat

/-- The two positions of group `G` of column `c`, and whether the entry is valid (06 R158, R159, Table 06-7). -/
def WTile.group (w : WTile) (row : MRow) (c G : Nat) : Nat × Nat × Bool :=
  if w.sparse = 1 then
    let n := bitsOf (w.auxByte (4 * row.g * c + G / 2)) (4 * (G % 2)) 4
    (n % 4, n / 4, decide (n % 4 < n / 4))
  else
    let n := w.auxByte (8 * row.g * c + G)
    (n % 8, n / 8 % 8, decide (n % 8 < n / 8 % 8) && decide (n / 64 = 0))

/-- Every metadata entry is valid (06 R159). -/
def WTile.metaOk (w : WTile) (row : MRow) : Bool :=
  w.sparse = 0 || (List.range 16).all fun c => (List.range (8 * row.g)).all fun G => (w.group row c G).2.2

/-- The K-row that present weight `p` of column `c` stands for (06 R144, R157). -/
def WTile.krow (w : WTile) (row : MRow) (c p : Nat) : Nat :=
  if w.sparse = 0 then p
  else
    let e := w.group row c (p / 2)
    (if w.sparse = 1 then 4 else 8) * (p / 2) + (if p % 2 = 0 then e.1 else e.2.1)

/-- Column `c` of the weight tile: the present weights in increasing K order, each with its K-row (06 R157, R160). -/
def WTile.column (w : WTile) (row : MRow) (c : Nat) : List (Nat × Nat) :=
  (List.range (16 * row.g)).map fun p => (w.krow row c p, w.at row (p / row.g) c (p % row.g))

/-- Element `k` of an activation row (06 R145). -/
def actElem (row : MRow) (fmt act k : Nat) : Nat :=
  trimFp6 fmt (bitsOf act (row.w * k) row.w)

/-- The mode fields of a captured TILE_CFG (07 Table 07-2). -/
def cfgMode (cfg : Word) : FMode := { rm := bitsOf cfg.toNat 32 3, sat := cfg.getLsbD 35, ftz := cfg.getLsbD 36 }

/-- TILE_FLAGS bits of the IEEE and flush flags (05 Table 05-8): the same places. -/
abbrev tIsat : Nat := 64
abbrev tXovf : Nat := 128
abbrev tMxnan : Nat := 256

/-- One product of an operation: the activation and weight codes. -/
structure Pair where
  a : Nat
  b : Nat

/-- The exact product of two operands, with its flags (05 R131, R134). -/
def product (md : FMode) (fa fb : Nat) (p : Pair) : FVal × Flags :=
  match ffmtOf fa, ffmtOf fb with
  | some F, some G =>
    let (x, f) := F.read md p.a
    let (y, g) := G.read md p.b
    let (z, h) := x.mul y
    (z, f ||| g ||| h)
  | _, _ => (.nan, 0)

/-- Cut a list into pieces of `g`. -/
def pieces {α : Type} (g : Nat) (l : List α) : List (List α) :=
  (List.range (ceilDiv l.length g)).map fun i => (l.drop (i * g)).take g

def orAll (fs : List Flags) : Flags := fs.foldl (· ||| ·) 0

/-- 05 R131: one rounding for each group of g products. -/
def sumGroups (acc : FFmt) (md : FMode) (fa fb g : Nat) (c : Nat) (ps : List Pair) : Nat × Flags :=
  (pieces g ps).foldl (fun (c, f) grp =>
    let (v, f0) := acc.read md c
    let prods := grp.map (product md fa fb)
    let (n, f1) := acc.sum md (v :: prods.map (·.1))
    (n, f ||| f0 ||| f1 ||| orAll (prods.map (·.2)))) (c, 0)

/-- 05 R134: exact addition into a long accumulator. -/
def sumLong (md : FMode) (fa fb c : Nat) (ps : List Pair) : Nat × Flags :=
  let prods := ps.map (product md fa fb)
  ((prods.foldl (fun x p => x.add 96 (-32) p.1) (Exact.ofNat 96 c)).toNat 96, orAll (prods.map (·.2)))

/-- A value times 2^x. -/
def scaleVal (x : Int) : FVal → FVal
  | .fin s m e => .fin s m (e + x)
  | v => v

/-- One block of an MX operation (05 R136): its scaled terms, and flags. -/
def mxBlock (md : FMode) (fa fb sa sb : Nat) (ps : List Pair) : List FVal × Flags :=
  let prods := ps.map (product md fa fb)
  let v := (exactSum md.rm (prods.map (·.1)))
  let nan := prods.any (·.1.isNan)
  let f := orAll (prods.map (·.2)) ||| v.2 ||| (if nan then fInvalid else 0)
  if sa = 255 ∨ sb = 255 then ([.nan], f ||| tMxnan)
  else (prods.map fun p => scaleVal ((sa : Int) + sb - 254) p.1, f)

/-- 05 R136: one rounding to FP32 for each block of 32 K-rows. -/
def sumBlocks (md : FMode) (fa fb : Nat) (sa sb : Nat → Nat) (c : Nat) (ps : List Pair) : Nat × Flags :=
  (pieces 32 ps).zipIdx.foldl (fun (c, f) (blk, b) =>
    let (v, f0) := fp32.read md c
    let (ts, f1) := mxBlock md fa fb (sa b) (sb b) blk
    let (n, f2) := fp32.sum md (v :: ts)
    (n, f ||| f0 ||| f1 ||| f2)) (c, 0)

/-- An integer operand, signed or not (06 R142). -/
def intOperand (w : Nat) (uns : Bool) (n : Nat) : Int := if uns then (n : Int) else signedOf w n

/-- 05 R133 with the terms of 06 R162: one exact sum, added and clamped once. -/
def sumInt (c : Nat) (terms : List Int) : Nat × Flags :=
  let z := signedOf 32 c + terms.sum
  let v := clampInt (minInt 32) (maxInt 32) z
  (unsignedOf 32 v, if v ≠ z then tIsat else 0)

/-- 06 R163 in a floating format. -/
def semiFloat (F : FFmt) (md : FMode) (max : Bool) (c : Nat) (ps : List Pair) : Nat × Flags :=
  ps.foldl (fun (c, f) p =>
    let (t, f0) := F.addOp md p.a p.b
    let (n, f1) := F.minmaxOp md max c t
    (n, f ||| f0 ||| f1)) (c, 0)

/-- 06 R163 in INT32. -/
def semiInt (max : Bool) (c : Nat) (ps : List Pair) : Nat × Flags :=
  ps.foldl (fun (c, f) p =>
    let z := signedOf 32 p.a + signedOf 32 p.b
    let t := clampInt (minInt 32) (maxInt 32) z
    let v := if max then Max.max (signedOf 32 c) t else Min.min (signedOf 32 c) t
    (unsignedOf 32 v, f ||| (if t ≠ z then tIsat else 0))) (c, 0)

/-- What one output element becomes: from its slot value, the pairs of its K-rows in order, and for MX the scales by block. -/
def element (k : MKind) (f : MF) (row : MRow) (w : WTile) (md : FMode) (sa sb : Nat → Nat) (c : Nat) (ps : List Pair) :
    Nat × Flags :=
  let fa := f.fmt.toNat
  let ints (t : Int → Int → Int) : List Int := ps.map fun p => t (intOperand row.w f.uns p.a) (intOperand row.w w.uns p.b)
  match k with
  | .tham => sumInt c (ps.map fun p => if p.a ≠ p.b then 1 else 0)
  | .tl1 => sumInt c (ints fun a b => (a - b).natAbs)
  | .tminp => match row with | .f64 => semiFloat fp64 md false c ps | .f32 => semiFloat fp32 md false c ps | _ => semiInt false c ps
  | .tmaxp => match row with | .f64 => semiFloat fp64 md true c ps | .f32 => semiFloat fp32 md true c ps | _ => semiInt true c ps
  | _ =>
    match row with
    | .f64 => sumGroups fp64 md fa w.fmt 1 c ps
    | .f32 => sumGroups fp32 md fa w.fmt 2 c ps
    | .f16 => sumGroups fp32 md fa w.fmt 4 c ps
    | .f8 => if f.mx then sumBlocks md fa w.fmt sa sb c ps else sumLong md fa w.fmt c ps
    | .f4 => if f.mx then sumBlocks md fa w.fmt sa sb c ps else sumLong md fa w.fmt c ps
    | _ => sumInt c (ints fun a b => a * b)

/-- A row that an operation feeds: its activation row, the slot row it updates, and the row of its scales. -/
structure Fed where
  src : Nat
  dst : Nat
  scale : Nat
deriving DecidableEq, Repr

/-- Entry `j` of a route descriptor (06 R154, Table 06-6). -/
def Tile.routeEntry (x : Tile) (f : MF) (j : Nat) : Nat := x.slotNat f.tb.toNat (f.offset + 2 * j) 2

/-- The rows an operation feeds, in their order (06 R153, R154). -/
def Tile.fedRows (x : Tile) (k : MKind) (f : MF) : List Fed :=
  if k = .tmmr then
    ((List.range 16).map (x.routeEntry f)).filterMap fun e =>
      if bitOf e 15 then some { src := e % 128, dst := bitsOf e 8 4, scale := e % 128 } else none
  else ((List.range 16).filter (f.mask.getLsbD ·)).map fun m => { src := f.row.toNat + m, dst := m, scale := m }

/-- The route descriptor is valid (06 R156). -/
def Tile.routeOk (x : Tile) (f : MF) (len : Nat) : Bool :=
  let es := (List.range 16).map (x.routeEntry f)
  let fed := x.fedRows .tmmr f
  es.all (fun e => !bitOf e 7 && bitsOf e 12 3 = 0) && fed.all (fun r => decide ((r.src + 1) * len ≤ 16384)) &&
    decide (fed.map (·.dst)).Nodup

/-- Scale code of block `b` of scale row `m` (06 R161). -/
def Tile.actScale (x : Tile) (k : MKind) (f : MF) (row : MRow) (m b : Nat) : Nat :=
  let (t, off) := if k = .tmmr then f.routeScales else (f.tb.toNat, f.offset)
  x.slotByte t (off + row.g / 2 * m + b)

/-- Key of element (m, c) of a slot. -/
def accKey (slot m c : Nat) : Nat := 256 * slot + 16 * m + c

/-- What an operation writes into its slot, by 16 × row + column, and its flags (06 R149, R155). -/
def Tile.matmul (x : Tile) (k : MKind) (f : MF) (row : MRow) (w : WTile) (slot : Nat) (cfg : Word) :
    List (Nat × BitVec 128) × Flags :=
  let md := cfgMode cfg
  let cols := (List.range 16).map (w.column row)
  let out := (x.fedRows k f).flatMap fun r =>
    let act := x.actRow f.ta.toNat r.src (rowLen w.sparse)
    (List.range 16).map fun c =>
      let ps := (cols.getD c []).map fun (kr, b) => ({ a := actElem row f.fmt.toNat act kr, b := b } : Pair)
      let v := element k f row w md (x.actScale k f row r.scale) (fun b => w.auxByte (16 * b + c))
        (Sparse.get 0 x.acc (accKey slot r.dst c)).toNat ps
      (16 * r.dst + c, v)
  (out.map fun e => (e.1, BitVec.ofNat 128 e.2.1), orAll (out.map (·.2.2)))

/-- Portions that an array reads enter its operand cache, which holds the 32 most recently read (07 R173). -/
def Tile.cacheParts (x : Tile) (arr : Nat) (parts : List Nat) : Tile :=
  let recent := parts.foldl (fun c p => (p :: c.filter (· ≠ p)).take 32) (Sparse.get [] x.opcache arr)
  { x with opcache := Sparse.set [] x.opcache arr recent }

/-- The fed rows pass the operand cache and enter the reuse latch (07 R173). -/
def Tile.latchRows (x : Tile) (arr t len : Nat) (rows : List Fed) : Tile :=
  let last := rows.map fun r => (128 * t + r.src * (len / 128), len / 128, BitVec.ofNat 4096 (x.actRow t r.src len))
  let old := Sparse.get [] x.latch arr
  let parts := rows.flatMap fun r => (List.range (len / 128)).map (128 * t + r.src * (len / 128) + ·)
  { x.cacheParts arr parts with latch := Sparse.set [] x.latch arr ((last.reverse ++ old).take 4) }

/-- Write bytes of a slot; cached and latched copies of what is written are invalidated (07 R173). -/
def Tile.putSlot (x : Tile) (t b : Nat) (bs : List Byte) : Tile :=
  let first := b / 128
  let n := if bs.isEmpty then 0 else (b + bs.length - 1) / 128 - first + 1
  let hit (p : Nat) : Bool := decide (128 * t + first ≤ p ∧ p < 128 * t + first + n)
  let x := (List.range n).foldl (fun x i =>
    let p := first + i
    let lo := Nat.max b (128 * p)
    let piece := (bs.drop (lo - b)).take (128 * (p + 1) - lo)
    let v := BitVec.ofNat 1024 (setBits (x.portion t p).toNat (8 * (lo - 128 * p)) (8 * piece.length) (leNat piece))
    { x with opfile := Sparse.set 0 x.opfile (128 * t + p) v }) x
  { x with
    opcache := x.opcache.filterMap fun (a, c) => let c := c.filter (!hit ·); if c = [] then none else some (a, c)
    latch := x.latch.filterMap fun (a, l) =>
      let l := l.filter fun e => !(List.range e.2.1).any fun i => hit (e.1 + i); if l = [] then none else some (a, l) }

end Sys2Proof.Machine
end

