-- ==== Sys2Proof/Machine/TileRun.lean ====
section
/-! DEFINITION. Tile operations at work: beginning (07 R178–R180; 06 R148, R151, R164, R165), memory rows (07 R185–R189),
commit (07 R175, R181), and the state of the arrays (06 R168–R171). -/

namespace Sys2Proof.Machine

def TInstr.isMat : TInstr → Bool
  | .mat _ _ => true | _ => false

/-- The array that a matrix operation other than a weight load enters. -/
def TInstr.arr : TInstr → Option Nat
  | .mat .twld _ => none
  | .mat _ f => some f.arr.toNat
  | _ => none

/-- Operand slots an operation reads and writes (07 R179). -/
def TInstr.reads : TInstr → List Nat
  | .mat .twld f => f.ta.toNat :: (if f.mx ∨ f.sparsity ≠ 0 then [f.tb.toNat] else [])
  | .mat .tmmr f => [f.ta.toNat, f.tb.toNat] ++ (if f.mx then [f.routeScales.1] else [])
  | .mat _ f => f.ta.toNat :: (if f.mx then [f.tb.toNat] else [])
  | .mem .tst f => [f.ta.toNat]
  | .mem _ _ => []
def TInstr.writes : TInstr → List Nat
  | .mem .tld f => [f.ta.toNat]
  | .mem .tacst f => if f.tosl then [f.ta.toNat] else []
  | _ => []

/-- The slot kind that an operation captured. -/
def TOp.kind (o : TOp) : Nat := match o.instr.slot with | some s => kindOf o.cfg s | none => 0

/-- Bits of an element in memory (07 Table 07-4; 05 R122). -/
def memBits (f : QF) : Nat := if f.pk then 6 else if f.fm = 15 then 1 else widthOf f.fm.toNat
/-- Bits of an element in the operand file. -/
def fileBits (f : QF) : Nat := if f.fo = 15 then 1 else widthOf f.fo.toNat
/-- Products per cell for fo's class. -/
def foG (f : QF) : Nat := match rowOf f.fo.toNat with | some r => r.g | none => 1

/-- Memory rows of an operation, and the bytes of one (07 R185, R187). -/
def TOp.memRows (o : TOp) : Nat :=
  match o.instr with
  | .mem .tld f => if f.mode = 0 then f.rows else if f.mode = 1 then 16 else 16 * foG f
  | .mem .tst f => f.rows
  | .mem .tacld _ => 16
  | .mem .tacst f => if f.tosl then 0 else 16
  | _ => 0
def TOp.rowBytes (o : TOp) : Nat :=
  match o.instr with
  | .mem .tld f =>
    if f.mode = 0 then (if f.fm = 0 then f.rowLen else f.rowLen * 8 / max (fileBits f) 1 * memBits f / 8)
    else if f.mode = 1 then 16 * foG f * memBits f / 8 else 16 * memBits f / 8
  | .mem .tst f => f.rowLen
  | .mem _ f => 16 * (if f.raw then containerBits o.kind else memBits f) / 8
  | _ => 0

/-- The operation has finished with the operand slots it reads (07 R179). -/
def TOp.readDone (o : TOp) : Bool :=
  match o.instr with
  | .mem .tst _ => o.begun && decide (o.memRows ≤ o.row)
  | _ => o.begun

/-- The operation entered among `earlier` may begin on its array (06 R147, R151). -/
def TOp.arrayReady (o : TOp) (earlier : List TOp) : Bool :=
  match o.instr with
  | .mat .twld _ => earlier.all fun p => !p.instr.isMat || p.begun
  | .mat _ f => earlier.all fun p => p.begun || !(p.instr.isLoad || p.instr.arr == some f.arr.toNat)
  | _ => true

/-- Slot order of 07 R179. -/
def TOp.slotsReady (o : TOp) (earlier : List TOp) : Bool :=
  earlier.all fun p =>
    !(o.instr.reads ++ o.instr.writes).any p.instr.writes.contains &&
    (p.readDone || !o.instr.writes.any p.instr.reads.contains)

/-- The chained form applies (07 R180): `all` are the earlier entries, held ones among them. -/
def TOp.isChained (o : TOp) (all : List TOp) : Bool :=
  match o.instr with
  | .mat _ f => f.ch &&
    (match (all.filter fun p => p.instr.slot == o.instr.slot).getLast? with
     | some p => p.instr.isMat && p.h == o.h && !p.held && p.instr.needs == o.instr.needs
     | none => false)
  | _ => false

/-- Accumulator order of 07 R179, with the chained form of R151. -/
def TOp.slotFree (o : TOp) (all : List TOp) : Bool :=
  match o.instr.slot with
  | none => true
  | some _ =>
    let users := all.filter fun p => !p.held && p.instr.slot == o.instr.slot
    if o.isChained all then users.all (·.begun) else users.isEmpty

/-- Memory order and staging (07 R179). -/
def TOp.memoryReady (o : TOp) (x : Tile) : Bool :=
  match o.instr with
  | .mat _ _ => true
  | .mem k f =>
    (k == .taczero || (k == .tacst && f.tosl) || !((x.strand o.h).sb.any fun e => decide (e.seq < o.seq))) &&
    (k ≠ .tld || decide ((x.tq.filter fun p => p.begun && (match p.instr with | .mem .tld _ => true | _ => false)).length < 4))

/-- Entry `k` of the tile queue may begin. -/
def Tile.mayBegin (x : Tile) (k : Nat) (o : TOp) : Bool :=
  let all := x.tq.take k
  let earlier := all.filter (!·.held)
  !o.held && !o.begun && (!o.instr.isMat || !x.hold) &&
    o.arrayReady earlier && o.slotsReady earlier && o.slotFree all && o.memoryReady x

/-- Change the operation with o's number. -/
def Tile.setTop (x : Tile) (o : TOp) : Tile := { x with tq := x.tq.map fun p => if p.id = o.id then o else p }
def Tile.removeTop (x : Tile) (o : TOp) : Tile := { x with tq := x.tq.filter (·.id ≠ o.id) }

/-- A weight load begins: its metadata is checked, then its weights become the tile's; their portions pass the operand caches (06 R144, R148,
R159, R164, R165; 07 R173). -/
def Tile.beginLoad (x : Tile) (o : TOp) (f : MF) : Tile :=
  match rowOf f.fmt.toNat with
  | none => x.recordFault o 1 0 0 o.ia
  | some row =>
    let auxLen := if f.mx then 8 * row.g else 64 * row.g * f.sparsity
    let w : WTile :=
      { fmt := f.fmt.toNat, sparse := f.sparsity, mx := f.mx, uns := f.uns
        rows := (List.range 16).map fun r => x.portion f.ta.toNat (16 * f.woff + r)
        aux := leBytes auxLen (x.slotNat f.tb.toNat f.offset auxLen) }
    if !w.metaOk row then x.recordFault o 7 0 0 o.ia
    else
      let parts := (List.range 16).map (128 * f.ta.toNat + 16 * f.woff + ·)
      ((List.range 4).foldl (fun (y : Tile) i => y.cacheParts i parts) { x with weights := some w, wcur := o.gen }).setTop { o with begun := true }

/-- What an operation finds wrong when it reaches its array (06 R148, R156, R165; 07 Table 07-9). -/
def Tile.entryReason (x : Tile) (o : TOp) (k : MKind) (f : MF) : Option Nat :=
  match x.weights with
  | none => some 6
  | some w =>
    if o.gen = 0 ∨ o.gen ≠ x.wcur then some 6
    else match rowOf f.fmt.toNat, rowOf w.fmt with
      | some row, some wrow =>
        if row ≠ wrow ∨ f.mx ≠ w.mx then some 5
        else match matReason k f o.cfg (some { fmt := w.fmt, sparse := w.sparse, mx := w.mx }) with
          | some r => some r
          | none =>
            if k ≠ .tmmr then none
            else if !x.routeOk f (rowLen w.sparse) then some 8
            else if f.mx && (x.fedRows k f).any (fun r => decide (16384 < f.routeScales.2 + row.g / 2 * (r.scale + 1))) then some 4
            else none
      | _, _ => some 1

/-- A matrix operation enters its array (06 R149–R151): its results go to the working copy. -/
def Tile.beginMat (x : Tile) (o : TOp) (k : MKind) (f : MF) : Tile :=
  match x.entryReason o k f with
  | some r => x.recordFault o r 0 0 o.ia
  | none =>
    match x.weights, rowOf f.fmt.toNat, o.instr.slot with
    | some w, some row, some slot =>
      let (out, fl) := x.matmul k f row w slot o.cfg
      let y := x.latchRows f.arr.toNat f.ta.toNat (rowLen w.sparse) (x.fedRows k f)
      { y with
        acc := out.foldl (fun m (i, v) => Sparse.set 0 m (256 * slot + i) v) y.acc
        gap := if (x.fedRows k f).isEmpty then y.gap else Sparse.set 0 y.gap f.arr.toNat 0 }.setTop
        { o with begun := true, out := out, flags := BitVec.ofNat 9 fl }
    | _, _, _ => x

/-- The operation begins. -/
def Tile.beginOp (x : Tile) (o : TOp) : Tile :=
  match o.instr with
  | .mat .twld f => x.beginLoad o f
  | .mat k f => x.beginMat o k f
  | .mem .taczero _ =>
    let slot := o.instr.slot.getD 0
    { x with acc := Sparse.clear x.acc (256 * slot) 256 }.setTop
      { o with begun := true, out := (List.range 256).map fun i => (i, 0) }
  | .mem _ _ => x.setTop { o with begun := true }

/-- Real rows that an operation feeds as it begins; one that fails its checks at the array feeds none (13 Table 13-7; 06 R148). -/
def Tile.rowsFed (x : Tile) (o : TOp) : Nat :=
  match o.instr with
  | .mat .twld _ => 0
  | .mat k f => if (x.entryReason o k f).isSome then 0 else (x.fedRows k f).length
  | _ => 0

/-- The sparsity that a re-issued operation is charged for. -/
def Tile.sparseNow (x : Tile) : Nat := match x.weights with | some w => w.sparse | none => 0

/-- TILE_OP_BEGIN (07 R179): entry `k` begins when it may; a re-issued one is granted its charge first (07 R190, 14 R354). -/
def execTileOpBegin (t : TileId) (k : Nat) (s : State) : Out :=
  let x := s.tile t
  .next (match x.tq[k]? with
    | none => s
    | some o =>
      if o.held || o.begun then s
      else if !o.granted then
        let c := o.instr.charge x.sparseNow o.cfg
        if x.grants (8 + o.id) c then (s.payTile t c).setTile t ((x.spend (8 + o.id) c).setTop { o with granted := true })
        else s.setTile t (x.starve (8 + o.id))
      else if x.mayBegin k o then (s.countTile t 2 (x.rowsFed o)).setTile t (x.beginOp o) else s)

/-- Key of a staged byte. -/
def stageKey (row pos : Nat) : Nat := 8192 * row + pos

/-- An element of a slot in an output format (07 Table 07-7; 05 R128, R135). -/
def accOut (kind : Nat) (md : FMode) (fmt v : Nat) : Nat × Flags :=
  match kind with
  | 0 => convert md 8 fmt v
  | 1 => convert md 9 fmt v
  | 2 => convert md 3 fmt v
  | _ => match ffmtOf fmt with
    | some F => let ((n, f), o) := (Exact.ofNat 96 v).out F md (-32); (n, f ||| (if o then tXovf else 0))
    | none => (0, 0)

/-- A floating value placed in a long element by an accumulator load (05 R134). -/
def longOf (F : FFmt) (md : FMode) (n : Nat) : Nat × Flags :=
  let (v, f) := F.read md n
  match v with
  | .nan => ({ Exact.zero with nan := true }.toNat 96, f)
  | .inf s => ({ Exact.zero with pinf := !s, ninf := s }.toNat 96, f)
  | .fin s m e =>
    let (k, inexact) := roundUnits md.rm s m e (-32)
    if k ≥ 2 ^ 95 then ({ Exact.zero with ovf := true }.toNat 96, f)
    else ({ Exact.zero with sum := if s then -(k : Int) else k }.toNat 96, f ||| (if inexact then fInexact else 0))

/-- An element in memory taken into a slot (07 Table 07-7). -/
def accIn (kind : Nat) (md : FMode) (fm n : Nat) : Nat × Flags :=
  match kind with
  | 0 => convert md fm 8 n
  | 1 => convert md fm 9 n
  | 2 => convert md fm 3 n
  | _ => match ffmtOf fm with | some F => longOf F md (trimFp6 fm n) | none => (0, 0)

/-- Row `m` of the slot as it leaves in format `fmt`, or raw; with its flags. -/
def Tile.slotRow (x : Tile) (o : TOp) (raw : Bool) (fmt m : Nat) : List Byte × Flags :=
  let slot := o.instr.slot.getD 0
  let bits := if raw then containerBits o.kind else widthOf fmt
  let es := (List.range 16).map fun c =>
    let v := (Sparse.get 0 x.acc (accKey slot m c)).toNat
    if raw then (v % 2 ^ bits, 0) else accOut o.kind (cfgMode o.cfg) fmt v
  (leBytes (2 * bits) ((es.zipIdx.map fun (e, c) => e.1 * 2 ^ (bits * c)).sum), orAll (es.map (·.2)))

/-- The bytes that memory row `i` of a storing operation writes. -/
def Tile.rowOut (x : Tile) (o : TOp) (i : Nat) : List Byte :=
  match o.instr with
  | .mem .tst f => leBytes f.rowLen (x.slotNat f.ta.toNat (128 * f.drow.toNat + i * f.rowLen) f.rowLen)
  | .mem .tacst f => (x.slotRow o f.raw f.fm.toNat i).1
  | _ => []

def TInstr.stores : TInstr → Bool
  | .mem .tst _ => true
  | .mem .tacst f => !f.tosl
  | _ => false

/-- A source row of a tld starts where no element of its format does (07 R185). The row fails with the alignment fault that such an access
takes (log 52). -/
def TOp.misaligned (o : TOp) : Bool :=
  match o.instr with
  | .mem .tld f => o.pos = 0 && (o.gs + word o.row * o.gt).toNat % max 1 (memBits f / 8) ≠ 0
  | _ => false

/-- The operation has passed `n` bytes of its row. -/
def TOp.pass (o : TOp) (n : Nat) : TOp :=
  let o := { o with wait := none }
  if o.pos + n < o.rowBytes then { o with pos := o.pos + n } else { o with row := o.row + 1, pos := 0 }

/-- Bytes of a load that have come. -/
def TOp.stage (o : TOp) (bs : List Byte) : TOp :=
  ({ o with staged := Sparse.setList 0 o.staged (stageKey o.row o.pos) bs }).pass bs.length

/-- Element `j` of memory row `i` of a staged load. -/
def TOp.stagedElem (o : TOp) (bits i j : Nat) : Nat :=
  let row := leNat (Sparse.getList 0 o.staged (stageKey i 0) o.rowBytes)
  bitsOf row (bits * j) bits

/-- What a raw load puts into a slot: of a long element the reserved bits are ignored, and the sum reads zero where ovf is set
(05 Table 05-6). -/
def rawIn (kind n : Nat) : Nat :=
  if kind ≠ 3 then n
  else let e := Exact.ofNat 96 (n % 2 ^ 100); (if e.ovf then { e with sum := 0 } else e).toNat 96

/-- Element `c` of row `m` that a tacld places, with its flags (07 R187). -/
def TOp.tacldElem (o : TOp) (f : QF) (m c : Nat) : Nat × Flags :=
  let n := o.stagedElem (if f.raw then containerBits o.kind else memBits f) m c
  if f.raw then (rawIn o.kind n, 0) else accIn o.kind (cfgMode o.cfg) f.fm.toNat n

/-- Bytes of an operation's load have come; a tacld writes each row into the working copy as it arrives (07 R187). -/
def Tile.stageTop (x : Tile) (o : TOp) (bs : List Byte) : Tile :=
  let p := o.stage bs
  let x := x.setTop p
  match o.instr, o.instr.slot, decide (o.row < p.row) with
  | .mem .tacld f, some slot, true =>
    { x with acc := (List.range 16).foldl (fun m c =>
        Sparse.set 0 m (accKey slot o.row c) (BitVec.ofNat 128 (p.tacldElem f o.row c).1)) x.acc }
  | _, _, _ => x

def TOp.addr (o : TOp) : Word := o.gs + word o.row * o.gt + word o.pos

/-- What the operation's rows are checked against, as its own access. -/
def TOp.access (o : TOp) : Auth := { o.auth with who := .op o.id }

/-- The piece at the operation's place: its length under checks byte by byte (07 R185), within 64 B and, uncached, within 32 B; on
another device, within its 256 B granule (10 R277). -/
def State.pieceLen (s : State) (t : TileId) (o : TOp) (need : Need) (l : Xlate) : Nat :=
  let va := o.addr.toNat
  let n := min (o.rowBytes - o.pos) (if l.target = .remote then 256 - va % 256 else 64 - va % 64)
  let m := ((List.range n).takeWhile fun i =>
    match s.check t o.access need (va + i) 1 false with
    | .ok p => p.backstop == l.backstop && p.target == l.target && p.addr == l.addr + i
    | _ => false).length
  if l.target = .memory ∧ l.policy = .uncached then min m (32 - l.addr % 32) else m

/-- Load a piece (07 R185, R187; 08 Table 08-1). -/
def State.tileLoad (s : State) (t : TileId) (o : TOp) (va : Word) (l : Xlate) (n : Nat) : State :=
  let x := s.tile t
  let await (s : State) (tag : Option Nat) : State := s.updTile t fun x => x.setTop { o with wait := tag }
  if l.backstop then s.setTile t (x.stageTop o (x.backstopRead l.addr n))
  else if l.target = .remote then
    if !x.remoteRoom then s
    else let (tag, s) := s.askRemote t o.h .read va l.addr (.read l.addr n); await s (some tag)
  else if l.policy = .uncached then
    let (tag, s) := s.ask t o.h .read va l.addr l.isSeal (.read l.addr n); await s (some tag)
  else if x.amoWaiting none l.addr n then s
  else if x.hurt l.addr (wordsMet (l.addr % 256) n) then s.mend t l.addr (wordsMet (l.addr % 256) n)
  else if x.present l.addr n then s.setTile t ((x.stageTop o (x.readLine l.addr n)).touch l.addr)
  else let (tag, s) := s.missLine t o.h va l.addr false; await s tag

/-- The bytes that the operation writes to the `left` bytes from `va` on, rows that follow on in memory taken together, and the operation when it
has passed them; none where it does not write them all. -/
def Tile.sectorOut (x : Tile) : Nat → TOp → Word → Nat → Option (List Byte × TOp)
  | _, o, _, 0 => some ([], o)
  | 0, _, _, _ => none
  | fuel + 1, o, va, left =>
    let n := min (o.rowBytes - o.pos) left
    if o.memRows ≤ o.row ∨ o.addr ≠ va ∨ n = 0 then none
    else (x.sectorOut fuel (o.pass n) (va + word n) (left - n)).map fun e => (((x.rowOut o o.row).drop o.pos).take n ++ e.1, e.2)

/-- Store a piece (07 R185, R187; 08 Table 08-1). A sector of a write-back page that is absent and that the operation's rows write whole needs no
fill, also where several rows share it (08 R200). -/
def State.tileStore (s : State) (t : TileId) (o : TOp) (va : Word) (l : Xlate) (n : Nat) : State :=
  let x := s.tile t
  let bs := ((x.rowOut o o.row).drop o.pos).take n
  let pass (s : State) : State := s.updTile t fun x => x.setTop (o.pass n)
  if l.backstop then pass (s.setTile t (x.backstopWrite l.addr bs))
  else if l.target = .remote then if !x.remoteRoom then s else pass (s.sendStore t o.h (.tstore o.id) va l bs)
  else if l.policy = .uncached then pass (s.sendStore t o.h (.tstore o.id) va l bs)
  else
    let whole : Option (List Byte × TOp) :=
      if l.policy = .writeBack && l.addr % 64 == 0 && !x.present l.addr 64 &&
          (match s.check t o.access .store va.toNat 64 false with | .ok _ => true | _ => false)
      then x.sectorOut 64 o va 64 else none
    let (bs, next) := whole.getD (bs, o.pass n)
    match s.putSlice t (.op o.h o.id) va l.policy l.addr false bs with
    | (true, s) => s.updTile t fun x => x.setTop next
    | (false, s) =>
      let tag := (s.tile t).asks.findSome? fun k => match k.kind with
        | .fill .. => if k.addr / 256 == l.addr / 256 then some k.tag else none
        | _ => none
      s.updTile t fun x => x.setTop { o with wait := tag }

/-- The memory row at the operation's place failed (07 R189, reason 0x10). -/
def State.rowFault (s : State) (t : TileId) (o : TOp) (code check : Nat) (va : Word) : State :=
  s.updTile t fun x => x.recordFault o 0x10 code check va

/-- Ask for, or move, the next piece of the operation's rows. -/
def State.tileAccess (s : State) (t : TileId) (o : TOp) : State :=
  let va := o.addr
  let need : Need := if o.instr.stores then .store else .load
  if o.misaligned then s.rowFault t o cAlign 0 va
  else match s.check t o.access need va.toNat 1 false with
  | .walk p => s.startWalk t p
  | .fail c k _ => s.rowFault t o c k va
  | .ok l =>
    let n := s.pieceLen t o need l
    if o.instr.stores then s.tileStore t o va l n else s.tileLoad t o va l n

/-- TILE_ROW_RETURN: the next piece of entry `k` is asked for, moved, or has its answer (07 R185–R189). -/
def execTileRowReturn (t : TileId) (k : Nat) (s : State) : Out :=
  let x := s.tile t
  .next (match x.tq[k]? with
    | none => s
    | some o =>
      if o.held || !o.begun || o.memRows ≤ o.row then s
      else match o.bad with
        | some (c, k) => s.rowFault t o c k o.addr
        | none =>
          match o.wait.bind fun tag => x.asks.find? (·.tag == tag) with
          | none => s.tileAccess t o
          | some q =>
            if q.kind ≠ .read then s
            else match x.takeAnswer q.tag with
              | none => s
              | some (m, y) =>
                match m.body with
                | .fail f => (s.setTile t y).rowFault t { o with wait := none } f.code f.check o.addr
                | b => s.setTile t (y.stageTop o (bodyBytes b)))

/-- A tld element (07 Table 07-7): the same format is copied, FP6 with its two free bits zero (05 R120, R121). -/
def tldElem (md : FMode) (fm fo n : Nat) : Nat × Flags :=
  if fm = fo then (trimFp6 fm n, 0) else convert md fm fo (trimFp6 fm n)

/-- A packed row of converted elements, as bytes, with flags. -/
def packRow (bits len : Nat) (es : List (Nat × Flags)) : List Byte × Flags :=
  (leBytes len ((es.zipIdx.map fun (e, j) => e.1 * 2 ^ (bits * j)).sum), orAll (es.map (·.2)))

/-- The operand-file rows that a complete tld writes: place and bytes, with flags (07 R185, R186). -/
def TOp.tldRows (o : TOp) (f : QF) : List (Nat × List Byte) × Flags :=
  let md := cfgMode o.cfg
  let el (i j : Nat) : Nat × Flags := tldElem md f.fm.toNat f.fo.toNat (o.stagedElem (memBits f) i j)
  let rows : List (Nat × List Byte × Flags) :=
    if f.mode = 0 then (List.range f.rows).map fun i =>
      (128 * f.drow.toNat + i * f.rowLen,
        if f.fm = 0 then (Sparse.getList 0 o.staged (stageKey i 0) f.rowLen, 0)
        else packRow (fileBits f) f.rowLen ((List.range (f.rowLen * 8 / max (fileBits f) 1)).map (el i)))
    else
      let g := foG f
      (List.range 16).map fun r =>
        (128 * (f.drow.toNat + r),
          packRow (fileBits f) 128 ((List.range (16 * g)).map fun i =>
            if f.mode = 1 then el (i / g) (g * r + i % g) else el (g * r + i % g) (i / g)))
  (rows.map fun e => (e.1, e.2.1), orAll (rows.map (·.2.2)))

/-- The elements that a complete tacld places, with flags (07 R187). -/
def TOp.tacldElems (o : TOp) (f : QF) : List (Nat × BitVec 128) × Flags :=
  let es := (List.range 256).map fun i => (i, o.tacldElem f (i / 16) (i % 16))
  (es.map fun e => (e.1, BitVec.ofNat 128 e.2.1), orAll (es.map (·.2.2)))

/-- What a finished operation has still to write, and its flags: the tile with it written, and the elements of its slot. -/
def Tile.results (x : Tile) (o : TOp) : Tile × List (Nat × BitVec 128) × Flags :=
  match o.instr with
  | .mem .tld f =>
    let (rows, fl) := o.tldRows f
    (rows.foldl (fun x (b, bs) => x.putSlot f.ta.toNat b bs) x, [], fl)
  | .mem .tacld f =>
    let (es, fl) := o.tacldElems f
    let slot := o.instr.slot.getD 0
    ({ x with acc := es.foldl (fun m (i, v) => Sparse.set 0 m (256 * slot + i) v) x.acc }, es, fl)
  | .mem .tacst f =>
    let rows := (List.range 16).map fun m => (m, x.slotRow o f.raw (if f.tosl then f.fo.toNat else f.fm.toNat) m)
    let y := if f.tosl then rows.foldl (fun y (m, r) =>
        y.putSlot f.ta.toNat (128 * f.drow.toNat + 16 * m * (outBits f o.kind / 8)) r.1) x else x
    (y, [], orAll (rows.map (·.2.2)))
  | _ => (x, o.out, o.flags.toNat)

/-- Everything the operation awaits has happened (07 R181), and earlier operations on its slot or array have committed. -/
def Tile.mayCommit (x : Tile) (k : Nat) (o : TOp) : Bool :=
  o.begun && !o.held && decide (o.memRows ≤ o.row) &&
    (x.tq.take k).all fun p => p.held ||
      ((o.instr.slot.isNone || p.instr.slot ≠ o.instr.slot) &&
        (o.instr.arr.isNone || p.instr.arr ≠ o.instr.arr || !p.begun))

/-- Commit (07 R175, R181; 05 R139): results, shadow, flags, line 2. -/
def Tile.commit (x : Tile) (o : TOp) : Tile :=
  let (y, out, fl) := x.results o
  let slot := o.instr.slot.getD 0
  let y := { y with shadow := out.foldl (fun m (i, v) => Sparse.set 0 m (256 * slot + i) v) y.shadow
                    flags := y.flags ||| BitVec.ofNat 9 fl }.removeTop o
  let nt := match o.instr with | .mat _ f => f.nt | .mem _ f => f.nt
  if nt then y.updStrand o.h fun r => r.pend 4 else y

/-- TILE_OP_COMMIT. -/
def execTileOpCommit (t : TileId) (k : Nat) (s : State) : Out :=
  let x := s.tile t
  .next (match x.tq[k]? with
    | none => s
    | some o => if x.mayCommit k o then s.setTile t (x.commit o) else s)

/-- Dummy rows of idle beat `n` of a gap (06 Table 06-9). -/
def dummyFed (n : Nat) : Bool :=
  decide (1 ≤ n) && (decide (n ≤ 32) || (decide (n ≤ 96) && decide ((n - 33) % 8 + 1 ≤ 8 - ((n - 33) / 8 + 1))))

/-- An idle beat of an array (06 R168): nothing has a row ready to enter it. -/
def Tile.arrayIdle (x : Tile) (arr : Nat) : Bool :=
  !(x.tq.zipIdx.any fun (o, k) => o.instr.arr == some arr && o.granted && x.mayBegin k o)

/-- No array is in the stall of a weight-load wave (06 R151, R168, Table 06-5): a weight load whose turn has come waits until the rows of the
operations before it have trailed down the arrays, and writes its row 0, with which it begins, at the end of the stall. -/
def Tile.noWave (x : Tile) : Bool :=
  !(x.tq.zipIdx.any fun (o, k) =>
    let earlier := (x.tq.take k).filter (!·.held)
    o.instr.isLoad && !o.held && !o.begun && o.arrayReady earlier && earlier.any fun p => p.instr.isMat && p.begun)

/-- DUMMY_ROW_FEED: one idle beat of an array with smooth set; the ramp says whether it feeds a dummy row (06 R168–R170),
whose energy the next refill takes off (14 R355). -/
def execDummyRowFeed (t : TileId) (arr : Fin 4) (s : State) : Out :=
  let x := s.tile t
  .next (
    if !x.smooth || x.arrOff.getLsbD arr.val || s.arrays ≤ arr.val || !x.arrayIdle arr.val || !x.noWave then s
    else
      let n := min 97 (Sparse.get 0 x.gap arr.val + 1)
      s.setTile t { x with gap := Sparse.set 0 x.gap arr.val n, egDummy := x.egDummy + (if dummyFed n then 330 else 0) })

/-- ARRAY_HOLD: hold := 1 (06 R171). -/
def execArrayHold (t : TileId) (s : State) : Out := .next (s.updTile t fun x => { x with hold := true })

/-- ARRAY_RUN: hold := 0; each present array runs (06 R171). -/
def execArrayRun (t : TileId) (s : State) : Out := .next (s.updTile t fun x => { x with hold := false, arrOff := 0 })

/-- Array `arr` holds nothing uncommitted, and its ramp is over (06 R171 steps 2 to 4). -/
def Tile.drained (x : Tile) (arr : Nat) : Bool :=
  !(x.tq.any fun o => o.begun && (o.instr.isLoad || o.instr.arr == some arr)) &&
    (!x.smooth || decide (96 ≤ Sparse.get 0 x.gap arr))

/-- ARRAY_DRAIN_DONE: the drained arrays of a held tile go off (06 R171 step 5). -/
def execArrayDrainDone (t : TileId) (s : State) : Out :=
  let x := s.tile t
  let off := (List.range 4).filter fun i => x.arrOff.getLsbD i || decide (s.arrays ≤ i) || x.drained i
  .next (if !x.hold then s else s.setTile t { x with arrOff := BitVec.ofNat 4 (off.map (2 ^ ·)).sum })

end Sys2Proof.Machine
end

