-- ==== Sys2Proof/Machine/TileCtl.lean ====
section
/-! DEFINITION. The control instructions of major 0x3E (07 R176, R177, R182, R189, R192, Tables 07-5, 07-11; 05 R139)
and a store to TILE_CFG. -/

namespace Sys2Proof.Machine

/-- Must-be-zero fields of Table 07-5. -/
def CF.ok (f : CF) (sel : Nat) : Bool := decide (f.sel.toNat ≤ sel) && f.z12 = 0 && f.z0 = 0 && f.hi = 0

/-- A control instruction: recorded fault first, then illegal (07 R178, R184, R189). -/
def tileCtl (a : At) (f : CF) (sel : Nat) (uses : List (BitVec 5)) (eff : State → Act) (s : State) : Out :=
  .next (s.issueTile a uses fun s => if (s.strand a).status.bs || !CF.ok f sel then illegal s a else eff s)

/-- A slot is busy (07 R180). -/
def Tile.slotBusy (x : Tile) (slot : Nat) : Bool := x.tq.any fun o => !o.held && o.instr.slot == some slot

/-- What a write of TILE_CFG leaves: no reserved bit, and on a ZT9-576-LC no kind of slots 12 to 15 (07 Table 07-2, R177). -/
def State.cfgValue (s : State) (v : Word) : Word :=
  let n := v.toNat % 2 ^ 37
  word (if s.grade768 then n else setBits n 24 8 0)

def badRounding (v : Word) : Bool := decide (4 < bitsOf v.toNat 32 3)

def changedSlots (old new : Word) : List Nat := (List.range 16).filter fun i => kindOf old i ≠ kindOf new i

/-- The write can be performed: no slot whose kind changes is busy (07 R176). -/
def Tile.cfgFree (x : Tile) (v : Word) : Bool := (changedSlots x.cfg v).all (!x.slotBusy ·)

/-- Write TILE_CFG; every slot whose kind changed becomes zero in both copies (07 R176). -/
def Tile.writeCfg (x : Tile) (v : Word) : Tile :=
  (changedSlots x.cfg v).foldl (fun x i =>
    { x with acc := Sparse.clear x.acc (256 * i) 256, shadow := Sparse.clear x.shadow (256 * i) 256 }) { x with cfg := v }

/-- tcfg (07 R176, R177). -/
def execTcfg (a : At) (f : CF) (s : State) : Out :=
  tileCtl a f 0 [f.gs] (fun s =>
    let v := (s.strand a).g f.gs
    if badRounding v then illegal s a
    else if !(s.tile a.t).cfgFree (s.cfgValue v) then .wait
    else .done (s.updTile a.t fun x => x.writeCfg (s.cfgValue v))) s

/-- TILE_CFG_STORE: a store to TILE_CFG is performed as a tcfg, once it can be (07 R176, R177). -/
def execTileCfgStore (t : TileId) (v : Word) (s : State) : Out :=
  .next (if badRounding v || !(s.tile t).cfgFree (s.cfgValue v) then s else s.updTile t fun x => x.writeCfg (s.cfgValue v))

/-- tcfgrd. -/
def execTcfgrd (a : At) (f : CF) (s : State) : Out :=
  tileCtl a f 0 [f.rd] (fun s => result s a f.rd (s.tile a.t).cfg) s

/-- twait (07 R182): it waits for the strand's operations, then raises a recorded fault or completes. -/
def execTwait (a : At) (f : CF) (s : State) : Out :=
  .next (s.issueWith a 8 fun s =>
    if (s.tile a.t).tq.any (fun o => o.h == a.h && !o.held) then s
    else s.tileReach a (s.attempt a 8 false [] fun s =>
      if (s.strand a).status.bs || !CF.ok f 0 then illegal s a else .done s))

/-- tfrd. -/
def execTfrd (a : At) (f : CF) (s : State) : Out :=
  tileCtl a f 0 [f.rd] (fun s => result s a f.rd ((s.tile a.t).flags.setWidth 64)) s

/-- tfclr. -/
def execTfclr (a : At) (f : CF) (s : State) : Out :=
  tileCtl a f 0 [f.gs] (fun s =>
    let m : BitVec 9 := ((s.strand a).g f.gs).setWidth 9
    .done (s.updTile a.t fun x => { x with flags := x.flags &&& ~~~ m })) s

/-- tfltrd (07 Table 07-10). -/
def execTfltrd (a : At) (f : CF) (s : State) : Out :=
  tileCtl a f 1 [f.rd] (fun s =>
    let r := s.strand a
    result s a f.rd (if f.sel = 0 then r.tfault else r.tfaultIa.setWidth 64)) s

def MKind.op : MKind → Nat
  | .twld => 0 | .tmma => 1 | .tmmr => 2 | .tham => 3 | .tl1 => 4 | .tminp => 5 | .tmaxp => 6
def mkindOf (n : Nat) : Option MKind := [MKind.twld, .tmma, .tmmr, .tham, .tl1, .tminp, .tmaxp][n]?
def QKind.op : QKind → Nat
  | .tld => 0 | .tst => 1 | .tacld => 2 | .tacst => 3 | .taczero => 4
def qkindOf (n : Nat) : Option QKind := [QKind.tld, .tst, .tacld, .tacst, .taczero][n]?

/-- The 64 bits of a queued tile instruction (07 Tables 07-3, 07-4). -/
def TInstr.encode : TInstr → Nat
  | .mat k f =>
    0x3C * 2 ^ 26 + k.op * 2 ^ 23 + f.ta.toNat * 2 ^ 18 + f.tb.toNat * 2 ^ 13 + f.row.toNat * 2 ^ 6 + f.arr.toNat * 2 ^ 4 +
      f.acc.toNat * 2 ^ 2 + natOf f.nt * 2 + natOf f.ch + f.fmt.toNat * 2 ^ 32 + natOf f.uns * 2 ^ 36 + natOf f.mx * 2 ^ 37 +
      f.boff.toNat * 2 ^ 38 + natOf f.z47 * 2 ^ 47 + f.mask.toNat * 2 ^ 48
  | .mem k f =>
    0x3D * 2 ^ 26 + k.op * 2 ^ 22 + f.ta.toNat * 2 ^ 17 + f.gt.toNat * 2 ^ 12 + f.gs.toNat * 2 ^ 7 + f.arr.toNat * 2 ^ 5 +
      f.acc.toNat * 2 ^ 3 + natOf f.tosl * 2 ^ 2 + natOf f.nt * 2 + natOf f.z0 + f.nrow.toNat * 2 ^ 32 + f.drow.toNat * 2 ^ 39 +
      f.rl.toNat * 2 ^ 46 + f.mode.toNat * 2 ^ 48 + f.fm.toNat * 2 ^ 50 + f.fo.toNat * 2 ^ 54 + natOf f.pk * 2 ^ 58 +
      natOf f.raw * 2 ^ 59 + f.z60.toNat * 2 ^ 60

/-- The queued tile instruction that 64 bits spell. -/
def tinstrOf (n : Nat) : Option TInstr :=
  let b {w : Nat} (lo : Nat) : BitVec w := BitVec.ofNat w (n / 2 ^ lo)
  if bitsOf n 26 6 = 0x3C then
    (mkindOf (bitsOf n 23 3)).map fun k => .mat k
      { ta := b 18, tb := b 13, row := b 6, arr := b 4, acc := b 2, nt := bitOf n 1, ch := bitOf n 0, fmt := b 32,
        uns := bitOf n 36, mx := bitOf n 37, boff := b 38, z47 := bitOf n 47, mask := b 48 }
  else if bitsOf n 26 6 = 0x3D then
    (qkindOf (bitsOf n 22 4)).map fun k => .mem k
      { ta := b 17, gt := b 12, gs := b 7, arr := b 5, acc := b 3, tosl := bitOf n 2, nt := bitOf n 1, z0 := bitOf n 0,
        nrow := b 32, drow := b 39, rl := b 46, mode := b 48, fm := b 50, fo := b 54, pk := bitOf n 58, raw := bitOf n 59,
        z60 := b 60 }
  else none

/-- The origin word of a save-area entry (07 Table 07-11). -/
def State.origin (s : State) (t : TileId) : Nat :=
  t.val + 2 ^ 8 * s.device.toNat + 2 ^ 28 * (s.incarnation % 2 ^ 32)

/-- The 64 bytes of a held entry (07 Table 07-11). -/
def TOp.saved (o : TOp) (origin : Nat) : List Byte :=
  [o.instr.encode,
    o.ia.toNat % 2 ^ 48 + 2 ^ 48 * (match o.tag with | some d => d % 32 | none => 0) + 2 ^ 53 * natOf o.tag.isSome +
      2 ^ 54 * natOf o.described,
    o.gs.toNat, o.gt.toNat, o.cfg.toNat, o.gen, origin, 0].flatMap (leBytes 8)

def TOp.heldBy (h : StrandId) (o : TOp) : Bool := o.held && o.h == h

/-- Check 64-byte sectors from `va` on, one after another. -/
def State.checkSectors (s : State) (a : At) (need : Need) : Nat → Word → List (Word × Nat × Xlate) → Paths
  | 0, _, acc => .ok acc.reverse
  | n + 1, va, acc =>
    match s.check a.t (s.auth a) need va.toNat 64 false with
    | .fail c k w => .fail c k w va
    | .walk p => .walk p
    | .ok l => s.checkSectors a need n (va + 64) ((va, 64, l) :: acc)

/-- A whole sector can be written at once: no fill of its line is on its way, a way can be had for it, and remote requests have room. -/
def Tile.sectorRoom (x : Tile) (l : Xlate) : Bool :=
  l.backstop || (if l.target = .remote then decide ((x.asks.filter (·.remote)).length + 9 ≤ 256)
    else !fillingLine x (l.addr / 256) && ((x.wayOf l.addr).isSome || !(x.victims (setOf l.addr)).isEmpty))

/-- trpsv (07 R192): it writes the strand's held entries and removes them, after the strand's stores as a vector store does. -/
def execTrpsv (a : At) (f : CF) (s : State) : Out :=
  tileCtl a f 0 [f.gs] (fun s =>
    let x := s.tile a.t
    let r := s.strand a
    let va := r.g f.gs
    let es := x.tq.filter (TOp.heldBy a.h)
    if va.toNat % 64 ≠ 0 then .fault cAlign 0 0 va
    else if !r.sb.isEmpty then .wait
    else match s.checkSectors a .store (es.length + 1) va [] with
      | .walk p => .later (s.startWalk a.t p)
      | .fail c k w v => .fault c k w v
      | .ok ps =>
        if !ps.all (fun p => x.sectorRoom p.2.2) then .wait
        else
          let secs := (leBytes 64 es.length) :: es.map fun o => o.saved (s.origin a.t)
          let s := (ps.zip secs).foldl (fun s (p, bs) => (s.putSector a p.1.toNat p.2.2 bs).getD s) s
          .done (s.updTile a.t fun x => { x with tq := x.tq.filter (!TOp.heldBy a.h ·) })) s

/-- A load of sectors that trpld waits for; nothing of it is served before LOAD_REPLY. -/
def State.startReplay (s : State) (a : At) (ps : List (Word × Nat × Xlate)) : State :=
  s.updStrand a fun r =>
    { r with hold := some .load, seq := r.seq + 1
             loads := r.loads ++ [{ kind := .replay, rd := 0, len := 64 * ps.length, seq := r.seq, isSeal := false,
                                    parts := bigParts' ps }] }
where
  /-- Uncached sectors are asked for in units of 32 bytes (09 R223). -/
  bigParts' (ps : List (Word × Nat × Xlate)) : List LoadPart :=
    ps.flatMap fun (v, n, l) =>
      let one (o m : Nat) : LoadPart :=
        { va := v, addr := l.addr + o, len := m, target := l.target, policy := l.policy, backstop := l.backstop,
          state := .waiting }
      if l.target = .memory ∧ l.policy = .uncached then [one 0 32, one 32 32] else [one 0 n]

/-- trpld (07 R192): the strand is held while the area is read, its first sector before the others. -/
def execTrpld (a : At) (f : CF) (s : State) : Out :=
  tileCtl a f 0 [f.gs] (fun s =>
    let va := (s.strand a).g f.gs
    if va.toNat % 64 ≠ 0 then .fault cAlign 0 0 va
    else match s.checkSectors a .load 1 va [] with
      | .walk p => .later (s.startWalk a.t p)
      | .fail c k w v => .fault c k w v
      | .ok ps => .go (s.startReplay a ps)) s

/-- The number of entries that the first sector gives; none when it is malformed (07 R192). -/
def areaCount (bs : List Byte) : Option Nat :=
  let n := leNat (bs.take 64)
  if n ≤ 8 then some n else none

/-- The held entry that 64 bytes spell, or none (07 Table 07-11, R192): reserved fields of the instruction are among the zero fields. -/
def State.savedEntry (s : State) (a : At) (bs : List Byte) : Option TOp :=
  let w (i : Nat) : Nat := leNat ((bs.drop (8 * i)).take 8)
  if w 1 / 2 ^ 55 ≠ 0 ∨ w 6 / 2 ^ 60 ≠ 0 ∨ w 7 ≠ 0 then none
  else (tinstrOf (w 0)).bind fun i =>
    if i.isLoad || !i.legal s.grade768 then none
    else
      let x := s.tile a.t
      some { id := 0, h := a.h, instr := i, ia := word (w 1 % 2 ^ 48), gs := word (w 2), gt := word (w 3), cfg := word (w 4),
             gen := if w 6 = s.origin a.t then w 5 else 0
             auth := x.auth a.h, held := true, tag := if bitOf (w 1) 53 then some (bitsOf (w 1) 48 5) else none,
             described := bitOf (w 1) 54, reissued := false, granted := false, begun := false, row := 0, pos := 0, seq := 0,
             wait := none, bad := none, staged := [], out := [], flags := 0 }

/-- The entries of an area of `n`; none when one is malformed. -/
def State.savedEntries (s : State) (a : At) (n : Nat) (bs : List Byte) : Option (List TOp) :=
  (List.range n).foldr (fun j acc =>
    match s.savedEntry a ((bs.drop (64 + 64 * j)).take 64), acc with
    | some e, some es => some (e :: es)
    | _, _ => none) (some [])

/-- The trpld that holds its strand gives up what it read and is issued again. -/
def Strand.dropReplay (r : Strand) : Strand := { r with hold := none, loads := r.loads.filter (·.kind ≠ LoadKind.replay) }

/-- A fault of the trpld that holds its strand. -/
def State.replayFault (s : State) (a : At) (code check wreg : Nat) (addr : Word) : State :=
  if !(s.strand a).mayEnter then s else (s.updStrand a Strand.dropReplay).raise a code check wreg addr

/-- The save area is malformed: the precise fault 0x0A, or first a fault that was recorded while the trpld was held (07 R189, R192). -/
def State.malformed (s : State) (a : At) : State :=
  let r := s.strand a
  if !r.mayEnter then s
  else if r.tfault.getLsbD 24 then (s.updStrand a Strand.dropReplay).raiseRecorded a
  else (s.updStrand a fun r => r.preciseFault 0x0A).replayFault a cTile 0 0 r.pc

/-- The bytes that a trpld awaits are there (07 R192): more is asked for, or the entries are installed; while there is no room for them the trpld
is not ready, and its strand stands at it again. -/
def State.finishReplay (s : State) (a : At) (l : PendingLoad) (bs : List Byte) : State :=
  match areaCount bs with
  | none => s.malformed a
  | some n =>
    if l.len < 64 * (n + 1) then
      match l.parts with
      | [] => s
      | p :: _ =>
        match s.checkSectors a .load (n + 1) p.va [] with
        | .walk g => s.startWalk a.t g
        | .fail c k w v => s.replayFault a c k w v
        | .ok ps => (s.updStrand a Strand.dropReplay).startReplay a ps
    else match s.savedEntries a n bs with
      | none => s.malformed a
      | some es =>
        let x := s.tile a.t
        if x.queued + n > 8 then s.updStrand a Strand.dropReplay
        else
          let es := es.zipIdx.map fun (e, i) => { e with id := x.opNext + i }
          let s := s.setTile a.t { x with tq := x.tq ++ es, opNext := x.opNext + n }
          s.updStrand a fun r => r.dropReplay.advance 8

/-- trpclr (07 R192). -/
def execTrpclr (a : At) (f : CF) (s : State) : Out :=
  tileCtl a f 0 [f.gs] (fun s =>
    let v := (s.strand a).g f.gs
    .done (s.updTile a.t fun x => { x with tq := x.tq.filter fun o =>
      !(TOp.heldBy a.h o && (v.getLsbD 5 || o.tag == some (v.toNat % 32))) })) s

end Sys2Proof.Machine
end

