-- ==== Sys2Proof/Machine/VecIssue.lean ====
section
/-! DEFINITION. Issue of vector instructions: what is legal (04 R90, R101, R102, R104, R105, R108–R112, R424–R426), the
marks between the pipes (R97), occupancy (R115, Table 04-6), charges (14 Table 14-3) and capture (R93). -/

namespace Sys2Proof.Machine

def intFmts : List Nat := [1, 2, 3, 4]
def fpFmts : List Nat := [6, 7, 8, 9]
def anyFmts : List Nat := [1, 2, 3, 4, 5, 6, 7, 8, 9, 10, 11, 12, 13, 14]
def narrowFmts : List Nat := [10, 11, 12, 13, 14]

/-- The formats that an operation accepts in vfmt.fmt (04 Table 04-5, R102, R105, R108); none: the format plays no part. -/
def VKind.formats : VKind → Option (List Nat)
  | .add | .sub | .rsub | .mul | .min | .max | .fma | .fms | .fnma | .abs | .neg
  | .cmpeq | .cmpne | .cmplt | .cmple | .mvxs | .mvsx | .redsum | .redmin | .redmax
  | .scansum | .scanmin | .scanmax => some (intFmts ++ fpFmts)
  | .minu | .maxu | .and | .or | .xor | .sll | .srl | .sra | .mulh | .mulhu | .cmpltu | .cmpleu
  | .sadd | .saddu | .ssub | .ssubu | .smul | .ssra | .ssrl | .aadd
  | .redminu | .redmaxu | .redand | .redor | .redxor => some intFmts
  | .div | .sqrt | .cmpun => some fpFmts
  | .wadd | .waddu | .wmul | .wmulu | .wfma | .wredsum => some [1, 2, 3, 6, 7, 8]
  | .nclip | .nclipu => some [1, 2, 3]
  | .dot2 => some [2, 6, 7]
  | .dot4 => some [1, 10, 11, 12, 13]
  | .dot8 => some [5, 14]
  | .mxq | .mxdq => some narrowFmts
  | .cvt | .merge | .mv | .ld | .st | .compress | .expand | .slideup | .slidedown | .perm => some anyFmts
  | .lds | .ldx | .sts | .stx => some [1, 2, 3, 4, 6, 7, 8, 9, 10, 11, 12, 13]
  | .amox => some [3, 4, 7, 8, 9]
  | .ldm | .stm | .mand | .mor | .mxor | .mandn | .mnot | .mpopc | .mfirst => none

/-- The src forms of 04 Table 04-8. -/
def VKind.forms : VKind → List Nat
  | .cvt => [0, 1]
  | .slideup | .slidedown => [1, 2]
  | .add | .sub | .rsub | .mul | .min | .max | .minu | .maxu | .and | .or | .xor | .sll | .srl | .sra | .mulh | .mulhu
  | .fma | .fms | .fnma | .div | .sqrt | .abs | .neg
  | .cmpeq | .cmpne | .cmplt | .cmple | .cmpltu | .cmpleu | .cmpun | .merge | .mv
  | .wadd | .waddu | .wmul | .wmulu | .wfma
  | .sadd | .saddu | .ssub | .ssubu | .smul | .ssra | .ssrl | .nclip | .nclipu | .aadd => [0, 1, 2]
  | _ => [0]

/-- fmtx where the table uses it (04 Table 04-4, R105, R108, R109), else zero (R101). -/
def VKind.fmtxOk (k : VKind) (fmt x : Nat) : Bool :=
  match k with
  | .cvt => anyFmts.contains x
  | .ldx | .stx | .amox => x == 3 || x == 4
  | .mxdq => x == 7 || x == 8
  | .dot4 => x == 0 || (fmt ≠ 1 && [10, 11, 12, 13].contains x)
  | _ => x == 0

def VKind.isCompare : VKind → Bool
  | .cmpeq | .cmpne | .cmplt | .cmple | .cmpltu | .cmpleu | .cmpun => true
  | _ => false
def VKind.isMaskLogic : VKind → Bool
  | .mand | .mor | .mxor | .mandn | .mnot => true
  | _ => false
/-- Instructions whose vd names a mask register. -/
def VKind.writesMask (k : VKind) : Bool := k.isCompare || k.isMaskLogic || k == .ldm
def VKind.isScan : VKind → Bool
  | .scansum | .scanmin | .scanmax => true
  | _ => false
def VKind.isReduction : VKind → Bool
  | .redsum | .redmin | .redmax | .redminu | .redmaxu | .redand | .redor | .redxor | .wredsum => true
  | _ => false
def VKind.isWide : VKind → Bool
  | .wadd | .waddu | .wmul | .wmulu | .wfma => true
  | _ => false
def VKind.isPermutation : VKind → Bool
  | .compress | .expand | .slideup | .slidedown | .perm => true
  | _ => false
/-- Memory instructions with an index group. -/
def VKind.isIndexed : VKind → Bool
  | .ldx | .stx | .amox => true
  | _ => false

/-- The registers that an operand of width `w'` occupies, when groups of 2^lg are counted for width `w` (04 R90, R425). -/
def spanOf (lg w w' first : Nat) : Option (List Nat) :=
  let n := 2 ^ lg * w'
  if n < w ∨ w = 0 then some [first]
  else
    let s := n / w
    if s > 8 || first % s ≠ 0 then none else some ((List.range s).map (first + ·))

/-- Vector registers (0 to 31) and mask registers (32 to 39) that an instruction reads and writes. -/
structure Uses where
  reads : List Nat
  writes : List Nat
deriving DecidableEq, Repr

/-- vs1 is a source group. -/
def VKind.readsA : VKind → Bool
  | .sqrt | .abs | .neg | .cvt | .mxq | .mxdq | .compress | .expand | .slideup | .slidedown | .mvxs | .mvsx
  | .scansum | .scanmin | .scanmax => false
  | k => !k.isMem && !k.isMaskLogic && k ≠ .mpopc && k ≠ .mfirst

/-- The widths at which the groups vs1, vs2 and vd are read or written; none: the field names no group. -/
def VOp.widthA (o : VOp) : Option Nat :=
  if o.kind = .nclip ∨ o.kind = .nclipu then some (2 * o.w)
  else if o.kind = .mxq ∨ o.kind = .mxdq then some o.w
  else if o.kind.readsA ∧ ¬ (o.kind = .mv ∧ o.f.src ≠ 0) then some o.w else none
def VOp.widthB (o : VOp) : Option Nat :=
  match o.kind with
  | .mxq => some 32
  | .ldx | .stx | .amox => some (widthOf o.f.fmtx.toNat)
  | .cvt => if o.f.src = 0 then some (widthOf o.f.fmtx.toNat) else none
  | .ld | .lds | .st | .sts | .ldm | .stm | .mand | .mor | .mxor | .mandn | .mnot | .mpopc | .mfirst | .mvsx | .mv =>
    none
  | .slideup | .slidedown => some o.w
  | _ => if o.f.src = 0 then some o.w else none
def VOp.widthD (o : VOp) : Option Nat :=
  if o.kind.writesMask || o.kind.isScalar || o.kind == .stm then none
  else if o.kind.isWide then some (2 * o.w)
  else if o.kind = .mxdq then some (widthOf o.f.fmtx.toNat)
  else some o.w

def VOp.group (o : VOp) (w : Option Nat) (first : BitVec 5) : Option (List Nat) :=
  match w with
  | none => some []
  | some w' => spanOf o.lg o.w w' first.toNat

/-- The mask registers that an instruction reads (04 R92, R114, Table 04-5). -/
def VOp.maskReads (o : VOp) : List Nat :=
  (if o.f.masked ∧ o.kind ≠ .mvxs ∧ o.kind ≠ .mvsx ∨ o.kind = .merge ∨ o.kind.isScan then [32 + o.f.mreg.toNat] else []) ++
  (if o.kind.isMaskLogic then [32 + o.f.vs1.toNat % 8, 32 + o.f.vs2.toNat % 8] else []) ++
  (if o.kind = .mpopc ∨ o.kind = .mfirst then [32 + o.f.vs2.toNat % 8] else []) ++
  (if o.kind = .stm then [32 + o.f.vd.toNat % 8] else [])

/-- What an instruction reads and writes; none when an operand starts where it may not or spans too far. -/
def VOp.uses (o : VOp) : Option Uses :=
  match o.group o.widthA o.f.vs1, o.group o.widthB o.f.vs2, o.group o.widthD o.f.vd with
  | some a, some b, some d =>
    let store := o.kind == .st || o.kind == .sts || o.kind == .stx || o.kind == .amox
    let scale := if o.kind = .mxq then a else []
    some { reads := (if o.kind = .mxq then [] else a) ++ b ++ o.maskReads ++ d,
           writes := scale ++ (if store then [] else d) ++
             (if o.kind.writesMask then [32 + o.f.vd.toNat % 8] else []) }
  | _, _, _ => none

def overlap (a b : List Nat) : Bool := a.any b.contains

/-- The rules about overlap of vd with sources (04 R104, R110, R112). -/
def VOp.overlapBad (o : VOp) : Bool :=
  let g (w : Option Nat) (r : BitVec 5) := (o.group w r).getD []
  let a := g o.widthA o.f.vs1
  let b := g o.widthB o.f.vs2
  let d := g o.widthD o.f.vd
  if o.kind.isWide then overlap d a || overlap d b
  else if o.kind.isPermutation then overlap d a || overlap d b
  else if o.kind = .ldx then overlap d b
  else if o.kind = .cvt then widthOf o.f.fmtx.toNat ≠ o.w && overlap d b
  else false

/-- VLMAX of the captured vfmt and vgrp (04 Table 04-1); 0 where the format is none or reserved (log 12). -/
def vlmax (fmt lg : Nat) : Nat := if widthOf fmt = 0 then 0 else 16384 * 2 ^ lg / widthOf fmt

/-- The memory-side operation codes: formats, and whether vamox takes them (09 Table 09-7). -/
def amoFormats (op : Nat) : List Nat :=
  match op with
  | 0 | 4 | 5 | 6 | 7 | 8 => [3, 4]
  | 1 | 2 | 3 => [3, 4, 7, 8, 9]
  | 9 => [8, 7]
  | 10 | 11 => [8, 9]
  | _ => []
def amoOk (code : Nat) : Bool := (amoFormats (code / 16)).contains (code % 16)
def vamoxOk (code : Nat) : Bool := amoOk code && !([0, 8, 10, 11].contains (code / 16))

/-- The instruction may execute; otherwise it raises the illegal-instruction fault at issue. -/
def VOp.legal (o : VOp) : Bool :=
  let k := o.kind
  let fmt := o.fmt
  k.forms.contains o.f.src.toNat &&
  (match k.formats with | none => true | some l => l.contains fmt) &&
  k.fmtxOk fmt o.f.fmtx.toNat &&
  !((k.writesMask || k == .stm) && o.f.vd.toNat ≥ 8) &&
  decide (o.vlen ≤ vlmax fmt o.lg) &&
  !(k == .merge && !o.f.masked) &&
  !(k.isWide && o.lg == 3) &&
  decide (o.vlen % k.unitSize = 0) &&
  !((k == .mvxs || k == .mvsx) && o.f.imm.toNat ≥ vlmax fmt o.lg) &&
  !((k == .ld || k == .st) && (fmt == 5 || fmt == 14) && (o.f.masked || o.vlen % 2 ≠ 0)) &&
  !(k == .amox && (o.f.imm.toNat ≥ 256 || !vamoxOk o.f.imm.toNat || o.f.imm.toNat % 16 ≠ fmt)) &&
  o.uses.isSome && !o.overlapBad

/-- Lanes per beat of the simple integer row of 04 Table 04-6. -/
def lanesRow1 (w : Nat) : Nat := 4096 / (max w 1)
def lanesMul (w : Nat) : Nat := match w with | 64 => 16 | 32 => 64 | 16 => 128 | _ => 256
def lanesFp (w : Nat) : Nat := match w with | 64 => 64 | 32 => 128 | _ => 256
def lanesDiv (w : Nat) : Nat := match w with | 64 => 8 | 32 => 16 | _ => 32

/-- Lanes and rpJ per beat of the class that an element operation falls in (04 Table 04-6, 14 Table 14-3). -/
def classOfElem (k : VKind) (fp : Bool) (w : Nat) : Nat × Nat :=
  match k with
  | .div | .sqrt => (lanesDiv w, 400)
  | .mul | .mulh | .mulhu | .smul | .fma | .fms | .fnma => if fp then (lanesFp w, 520) else (lanesMul w, 360)
  | .add | .sub | .rsub | .min | .max | .abs | .neg | .cmpeq | .cmpne | .cmplt | .cmple | .cmpun =>
    if fp then (lanesFp w, 520) else (lanesRow1 w, 180)
  | _ => (lanesRow1 w, 180)

/-- Occupancy in beats and rpJ per beat (04 R115, Table 04-6; 14 R353, Table 14-3). -/
def VOp.cost (o : VOp) : Nat × Nat :=
  let n := o.vlen - o.resume
  let w := o.w
  let fp := fpFmts.contains o.fmt
  let beats (c rate : Nat) : Nat × Nat := (max c 1, rate)
  match o.kind with
  | .cvt => beats (ceilDiv n (lanesRow1 (max w (widthOf o.f.fmtx.toNat)))) 220
  | .nclip | .nclipu => beats (ceilDiv n (lanesRow1 (2 * w))) 220
  | .wadd | .waddu => beats (ceilDiv n (if fp then lanesFp (2 * w) else lanesRow1 (2 * w))) 520
  | .wmul | .wmulu | .wfma => beats (ceilDiv n (if fp then lanesFp (2 * w) else lanesMul (2 * w))) 520
  | .dot2 => beats (ceilDiv n 256) 560
  | .dot4 => beats (ceilDiv n 512) 560
  | .dot8 => beats (ceilDiv n 1024) 560
  | .mxq | .mxdq => beats (ceilDiv n 128) 220
  | .compress | .expand | .slideup | .slidedown => beats (ceilDiv o.vlen (lanesRow1 w) + 4) 180
  | .perm => beats (ceilDiv o.vlen 8) 180
  | .mand | .mor | .mxor | .mandn | .mnot | .mpopc | .mfirst => beats (ceilDiv o.vlen 4096) 180
  | .mvxs | .mvsx => (1, 180)
  | .redsum | .redmin | .redmax =>
    beats (ceilDiv o.vlen (if fp then lanesFp w else lanesRow1 w) + log2Ceil o.vlen) 180
  | .redminu | .redmaxu | .redand | .redor | .redxor => beats (ceilDiv o.vlen (lanesRow1 w) + log2Ceil o.vlen) 180
  | .wredsum => beats (ceilDiv o.vlen (if fp then lanesFp (2 * w) else lanesRow1 (2 * w)) + log2Ceil o.vlen) 180
  | .scansum | .scanmin | .scanmax =>
    beats (log2Ceil o.vlen * ceilDiv o.vlen (if fp then lanesFp w else lanesRow1 w)) 180
  | .ld | .st => beats (ceilDiv (ceilDiv (n * w) 8) 512) 250
  | .ldm | .stm => beats (ceilDiv (ceilDiv n 8) 512) 250
  | .lds | .ldx | .sts | .stx | .amox => beats (ceilDiv n 8) 250
  | k => let (lanes, rate) := classOfElem k fp w; beats (ceilDiv n lanes) rate

def VOp.charge (o : VOp) : Nat := o.cost.1 * o.cost.2

/-- The registers that the queued instructions of a pipe write, and those they read (04 R97). -/
def marksOf (q : List VOp) : Uses :=
  { reads := q.flatMap fun o => match o.uses with | some u => u.reads | none => []
    writes := q.flatMap fun o => match o.uses with | some u => u.writes | none => [] }

/-- No mark of the other pipe stands in the way (04 R97); two instructions of one pipe need none, since R96 orders them. -/
def VOp.unmarked (o : VOp) (x : Tile) : Bool :=
  let m := marksOf (if o.kind.isMem then x.aq else x.mq)
  match o.uses with
  | none => true
  | some u => !overlap (u.reads ++ u.writes) m.writes && !overlap u.writes m.reads

/-- What an instruction captures at issue (04 R93). -/
def State.captureVec (s : State) (a : At) (k : VKind) (f : VF) : VOp :=
  let x := s.tile a.t
  let r := x.strand a.h
  { id := x.vnext, h := a.h, kind := k, f := f, pc := r.pc, vlen := r.vlen.toNat, vfmt := r.vfmt, lg := r.vgrp.toNat,
    resume := if k.isWhole then 0 else r.vresume.toNat, scalar := r.g f.gs, stride := r.g f.vs1,
    precise := r.status.precise, aten := r.status.aten, auth := x.auth a.h, next := 0, wait := none, bad := none }

/-- The instruction holds its strand (04 R98). -/
def VOp.holds (o : VOp) : Bool := o.kind.isMem || o.precise || o.kind.isScalar

/-- Put a legal, granted instruction into its pipe (04 R93, R96, R98; 09 R253 for vamox). -/
def State.enqueueVec (s : State) (a : At) (o : VOp) : State :=
  let s := (s.payTile a.t o.charge).updTile a.t fun x =>
    let x := { (x.spend a.h.val o.charge) with vnext := x.vnext + 1 }
    if o.kind.isMem then { x with mq := x.mq ++ [o] } else { x with aq := x.aq ++ [o] }
  let s := s.updStrand a fun r => { r with vresume := 0, hold := if o.holds then some (.vector o.id) else none }
  if o.kind == .amox && [0x17, 0x18, 0x19].contains o.f.imm.toNat then s.spoilReplay a 1 else s

/-- General registers that a vector instruction reads or writes at issue. -/
def vecRegs (k : VKind) (f : VF) : List (BitVec 5) :=
  (if f.src = 1 ∨ k.isMem ∨ k = .mvsx then [f.gs] else []) ++ (if k = .lds ∨ k = .sts then [f.vs1] else []) ++
    (if k.isScalar then [f.vd] else [])

/-- Issue a vector instruction: waiting for a pending trap to be delivered (03 R85), illegal, waiting (queue, marks, grant), or captured in its
pipe. -/
def vectorIssue (k : VKind) (a : At) (f : VF) (s : State) : Out :=
  .next (s.issue a 8 false (vecRegs k f) fun s =>
    let o := s.captureVec a k f
    let x := s.tile a.t
    if (s.strand a).trap.isSome then .wait
    else if !o.legal then illegal s a
    else if (if k.isMem then x.mq else x.aq).length ≥ 8 || !o.unmarked x then .wait
    else if !x.grants a.h.val o.charge then .later (s.updTile a.t fun x => x.starve a.h.val)
    else .done (s.enqueueVec a o))

end Sys2Proof.Machine
end

