-- ==== Sys2Proof/Machine/VecRun.lean ====
section
/-! DEFINITION. The pipes of the vector unit at work: elements of memory instructions (04 R98–R100, R109–R111, R117) and
completion (04 R107, R115, R116; 03 R85). -/

namespace Sys2Proof.Machine

/-- Elements that one access of a memory instruction carries: two 4-bit elements or eight mask bits a byte (04 R109). -/
def VOp.step (o : VOp) : Nat :=
  if o.kind = .ldm ∨ o.kind = .stm then 8 else if o.w = 4 then 2 else 1
/-- Bytes of one access. -/
def VOp.size (o : VOp) : Nat :=
  if o.kind = .ldm ∨ o.kind = .stm ∨ o.w = 4 then 1
  else if o.kind = .amox ∧ o.f.imm.toNat / 16 = 9 then 64 else o.w / 8

/-- Access `u` has an element to act on: at or above vresume, below vlen and active (04 R91, R92, R116). -/
def VOp.unitActive (o : VOp) (x : Tile) (u : Nat) : Bool :=
  (List.range o.step).any fun j =>
    let i := u * o.step + j
    decide (o.resume ≤ i) && decide (i < o.vlen) && o.active x i

/-- The next access of the instruction, in index order. -/
def VOp.nextUnit (o : VOp) (x : Tile) : Option Nat :=
  ((List.range (ceilDiv o.vlen o.step)).drop (max o.next (o.resume / o.step))).find? (o.unitActive x)

/-- The lowest element that access `u` acts on, as vresume names it. -/
def VOp.firstElem (o : VOp) (x : Tile) (u : Nat) : Nat :=
  (((List.range o.step).map (u * o.step + ·)).find? fun i =>
    decide (o.resume ≤ i) && decide (i < o.vlen) && o.active x i).getD (u * o.step)

/-- The address of access `u` (04 R109, R111): vamox adds imm16, which is its code, as vstx adds its offset (log 45). -/
def VOp.addrOf (o : VOp) (x : Tile) (u : Nat) : Word :=
  let base := o.scalar + o.f.imm.signExtend 64
  match o.kind with
  | .lds | .sts => base + word u * o.stride
  | .ldx | .stx | .amox =>
    let w := widthOf o.f.fmtx.toNat
    base + sext w (x.elem o.f.vs2.toNat w u)
  | _ => base + word (u * o.size)

/-- Leave the memory pipe: the request awaited is forgotten, so that its answer is discarded (04 R99, R117). -/
def Tile.dropVec (x : Tile) (o : VOp) : Tile :=
  match o.wait with
  | none => { x with mq := x.mq.filter (·.id ≠ o.id), aq := x.aq.filter (·.id ≠ o.id) }
  | some tag =>
    { x with mq := x.mq.filter (·.id ≠ o.id), aq := x.aq.filter (·.id ≠ o.id)
             asks := x.asks.filter (fun k => !(k.tag == tag && k.kind == .read))
             inbox := x.inbox.filter (fun p => p.tag ≠ tag) }

/-- The strand goes back to an instruction that stopped at element `i` (04 R99, R117). -/
def State.backToVec (s : State) (o : VOp) (t : TileId) (i : Nat) : State :=
  (s.updTile t fun x => x.dropVec o).updStrand ⟨t, o.h⟩ fun r =>
    { r with pc := o.pc, slot := none, vresume := BitVec.ofNat 16 i, hold := none }

/-- A fault at element `i` (04 R117), once it can be taken (03 R81). -/
def State.vecFault (s : State) (t : TileId) (o : VOp) (i code check wreg : Nat) (addr : Word) : State :=
  if !(s.strand ⟨t, o.h⟩).mayEnter then s
  else (s.backToVec o t i).raise ⟨t, o.h⟩ code check wreg addr

/-- Change the instruction at the head of the memory pipe. -/
def Tile.setVec (x : Tile) (o : VOp) : Tile := { x with mq := x.mq.map fun p => if p.id = o.id then o else p }

/-- Write the bytes of access `u` into vd (04 R92, R110). -/
def VOp.loadUnit (o : VOp) (x : Tile) (u : Nat) (bs : List Byte) : Tile :=
  let n := leNat bs
  let vd := o.f.vd.toNat
  (List.range o.step).foldl (fun y j =>
    let i := u * o.step + j
    if decide (o.resume ≤ i) && decide (i < o.vlen) && o.active x i then
      (if o.kind = .ldm then y.setMbit vd i (bitOf n j)
       else if o.w = 4 then y.setElem vd 4 i (bitsOf n (4 * j) 4)
       else y.setElem vd o.w i (trimFp6 o.fmt n))
    else y) x

/-- The bytes that access `u` stores, where memory holds `old`: an element that is inactive or below vresume is not written (04 R92, R116).
The bits of the last mask byte above vlen are left open (log 13). -/
def VOp.storeUnit (o : VOp) (x : Tile) (u free : Nat) (old : List Byte) : List Byte :=
  let was := leNat old
  let acts (i : Nat) : Bool := decide (o.resume ≤ i) && o.active x i
  if o.kind = .stm then
    let n := (List.range 8).map fun j =>
      let i := 8 * u + j
      if o.vlen ≤ i then bitsOf (Config.openValue 13 free) j 1 * 2 ^ j
      else if acts i then natOf (x.mbit (o.f.vd.toNat % 8) i) * 2 ^ j else bitsOf was j 1 * 2 ^ j
    [BitVec.ofNat 8 n.sum]
  else if o.w = 4 then
    let n := (List.range 2).map fun j =>
      if acts (2 * u + j) then x.elem o.f.vd.toNat 4 (2 * u + j) * 16 ^ j else bitsOf was (4 * j) 4 * 16 ^ j
    [BitVec.ofNat 8 n.sum]
  else leBytes o.size (trimFp6 o.fmt (x.elem o.f.vd.toNat o.w u))

/-- Access `u` shares its byte with an element that is not written, so that what memory holds there is read first (log 13). -/
def VOp.mixed (o : VOp) (x : Tile) (u : Nat) : Bool :=
  (o.kind == .st || o.kind == .stm) && decide (o.step ≠ 1) && (List.range o.step).any fun j =>
    let i := u * o.step + j
    decide (i < o.vlen) && !(decide (o.resume ≤ i) && o.active x i)

/-- The access is done: the instruction stands at the next one. -/
def State.passUnit (s : State) (t : TileId) (o : VOp) (u n : Nat) : State :=
  (s.countTile t 1 (n * o.step)).updTile t fun x => x.setVec { o with next := u + n, wait := none }

/-- The instruction waits for request `tag`. -/
def State.awaitVec (s : State) (t : TileId) (o : VOp) (tag : Option Nat) : State :=
  s.updTile t fun x => x.setVec { o with wait := tag }

/-- A load access whose check passed (04 R98, R110; 08 Table 08-1, R201). -/
def State.vecLoad (s : State) (t : TileId) (o : VOp) (u : Nat) (va : Word) (l : Xlate) : State :=
  let x := s.tile t
  let whole := o.kind == .ld || o.kind == .ldm
  if l.backstop then (s.setTile t (o.loadUnit x u (x.backstopRead l.addr o.size))).passUnit t o u 1
  else if l.target = .remote then
    if !x.remoteRoom then s
    else
      let (tag, s) := s.askRemote t o.h .read va l.addr (.read l.addr o.size)
      s.awaitVec t o (some tag)
  else if l.policy = .uncached then
    let (tag, s) := s.ask t o.h .read va l.addr l.isSeal (.read l.addr o.size)
    s.awaitVec t o (some tag)
  else if x.amoWaiting none l.addr o.size then s
  else if x.hurt l.addr (wordsMet (l.addr % 256) o.size) then s.mend t l.addr (wordsMet (l.addr % 256) o.size)
  else if x.present l.addr o.size then
    (s.setTile t ((o.loadUnit x u (x.readLine l.addr o.size)).touch l.addr)).passUnit t o u 1
  else if whole then
    let (tag, s) := s.missLine t o.h va l.addr false
    s.awaitVec t o tag
  else if fillingLine x (l.addr / 256) then s
  else
    let s := s.flushMerge t l.addr
    let (tag, s) := s.ask t o.h .read va l.addr false (.read l.addr o.size)
    s.awaitVec t o (some tag)

/-- The accesses from `u` on write the whole sector at `a`, and all of it passes its check (08 R200). -/
def State.wholeSector (s : State) (t : TileId) (o : VOp) (u : Nat) (va : Word) (l : Xlate) : Bool :=
  let n := 64 / o.size
  (o.kind == .st || o.kind == .stm) && l.addr % 64 == 0 && l.policy == .writeBack &&
    ((List.range n).all fun j => decide ((u + j) * o.step < o.vlen) && !o.mixed (s.tile t) (u + j) && o.unitActive (s.tile t) (u + j)) &&
    (match s.check t o.auth .store va.toNat 64 false with | .ok _ => true | _ => false)

/-- A store access whose check passed and whose memory holds `old` where that matters (04 R98, R110; 08 Table 08-1, R200, R201). -/
def State.vecStoreOver (s : State) (t : TileId) (o : VOp) (u : Nat) (va : Word) (l : Xlate) (old : List Byte) : State :=
  let (free, s) := s.takeFree
  let x := s.tile t
  let bs := o.storeUnit x u free old
  let unit := o.kind == .st || o.kind == .stm
  if l.backstop then (s.setTile t (x.backstopWrite l.addr bs)).passUnit t o u 1
  else if l.target = .remote then
    if !x.remoteRoom then s else (s.sendStore t o.h .vstore va l bs).passUnit t o u 1
  else if l.policy = .uncached then (s.sendStore t o.h .vstore va l bs).passUnit t o u 1
  else if s.wholeSector t o u va l && !x.present l.addr 64 && !fillingLine x (l.addr / 256) then
    let n := 64 / o.size
    match s.putSlice t (.strand o.h) va l.policy l.addr false ((List.range n).flatMap fun j => o.storeUnit x (u + j) free []) with
    | (true, s) => s.passUnit t o u n
    | (false, s) => s
  else if l.policy = .writeBack && !unit && !x.present l.addr o.size then
    if fillingLine x (l.addr / 256) then s
    else (s.sendStore t o.h .vstore va { l with policy := .uncached } bs).passUnit t o u 1
  else
    match s.putSlice t (.strand o.h) va l.policy l.addr false bs with
    | (true, s) => s.passUnit t o u 1
    | (false, s) =>
      s.awaitVec t o ((s.tile t).asks.findSome? fun k => match k.kind with
        | .fill .. => if k.addr / 256 == l.addr / 256 then some k.tag else none
        | _ => none)

/-- A store access whose check passed: one that shares its byte with an element that is not written first gets that byte, from the tile or by a
request of its own. -/
def State.vecStore (s : State) (t : TileId) (o : VOp) (u : Nat) (va : Word) (l : Xlate) : State :=
  let x := s.tile t
  if !o.mixed x u then s.vecStoreOver t o u va l []
  else if l.backstop then s.vecStoreOver t o u va l (x.backstopRead l.addr o.size)
  else if l.target = .remote then
    if !x.remoteRoom then s
    else
      let (tag, s) := s.askRemote t o.h .read va l.addr (.read l.addr o.size)
      s.awaitVec t o (some tag)
  else if l.policy ≠ .uncached ∧ x.hurt l.addr (wordsMet (l.addr % 256) o.size) then s.mend t l.addr (wordsMet (l.addr % 256) o.size)
  else if l.policy ≠ .uncached ∧ x.present l.addr o.size then s.vecStoreOver t o u va l (x.readLine l.addr o.size)
  else if l.policy = .writeBack then
    let (tag, s) := s.missLine t o.h va l.addr false
    s.awaitVec t o tag
  else if l.policy ≠ .uncached ∧ fillingLine x (l.addr / 256) then s
  else
    let s := s.flushMerge t l.addr
    let (tag, s) := s.ask t o.h .read va l.addr l.isSeal (.read l.addr o.size)
    s.awaitVec t o (some tag)

/-- The byte that a store waits for has come: the store goes on over it. -/
def State.vecStoreGot (s : State) (t : TileId) (o : VOp) (u : Nat) (old : List Byte) : State :=
  let va := o.addrOf (s.tile t) u
  match s.check t o.auth .store va.toNat o.size false with
  | .ok l => s.vecStoreOver t o u va l old
  | _ => s.awaitVec t o none

/-- A vamox element whose check passed: sent to the memory side (04 R111, 08 R204). -/
def State.vecAmo (s : State) (t : TileId) (o : VOp) (u : Nat) (va : Word) (l : Xlate) : State :=
  let x := s.tile t
  let body : Body := .atomic l.addr o.f.imm.toNat (word (x.elem o.f.vd.toNat o.w u)) 0
  if l.target = .remote then
    if !x.remoteRoom then s else (s.askRemote t o.h .vstore va l.addr body).2.passUnit t o u 1
  else if fillingLine x (l.addr / 256) then s
  else
    let s := (s.giveUpSector t l.addr).flushMerge t l.addr
    (s.ask t o.h .vstore va l.addr false body).2.passUnit t o u 1

def VOp.need (o : VOp) : Need := if o.kind = .amox then .atomic else if o.kind.isLoad then .load else .store

/-- Start the next access of the instruction at the head of the memory pipe. -/
def State.vecAccess (s : State) (t : TileId) (o : VOp) (u : Nat) : State :=
  let x := s.tile t
  let va := o.addrOf x u
  let i := o.firstElem x u
  if va.toNat % o.size ≠ 0 then s.vecFault t o i cAlign 0 0 va
  else match s.check t o.auth o.need va.toNat o.size false with
    | .walk p => s.startWalk t p
    | .fail c k w => s.vecFault t o i c k w va
    | .ok l =>
      if o.kind = .amox then s.vecAmo t o u va l
      else if o.kind.isLoad then s.vecLoad t o u va l
      else s.vecStore t o u va l

/-- VECTOR_ELEMENT_RETURN: the next access of the memory pipe's instruction starts, is served, or gets its answer
(04 R98–R100, R110, R117). -/
def State.vecElement (s : State) (t : TileId) : State :=
  let x := s.tile t
  match x.mq with
  | [] => s
  | o :: _ =>
    if !(x.strand o.h).sb.isEmpty then s
    else match o.nextUnit x with
      | none => s
      | some u =>
        match o.bad with
        | some (c, k) => s.vecFault t o (o.firstElem x u) c k 0 (o.addrOf x u)
        | none =>
          match o.wait.bind fun tag => x.asks.find? (·.tag == tag) with
          | none => s.vecAccess t o u
          | some k =>
            if k.kind ≠ .read then s
            else match x.takeAnswer k.tag with
              | none => s
              | some (m, y) =>
                match m.body with
                | .fail f =>
                  if !(x.strand o.h).mayEnter then s
                  else (s.setTile t y).vecFault t o (o.firstElem x u) f.code f.check 0 (o.addrOf x u)
                | b => if !o.kind.isLoad then (s.setTile t y).vecStoreGot t { o with wait := none } u ((bodyBytes b).take o.size) else (s.setTile t (o.loadUnit y u ((bodyBytes b).take o.size))).passUnit t o u 1

/-- VECTOR_ELEMENT_RETURN. -/
def execVectorElementReturn (t : TileId) (s : State) : Out := .next (s.vecElement t)

/-- What the units of a resumable arithmetic instruction give, from `u` on: the tile, the flags, and the unit whose
enabled flag traps under precise traps (03 R85). Sources are read as they were before the instruction (04 R103). -/
def VOp.run (o : VOp) (src : Tile) : List Nat → Tile → Flags → Tile × Flags × Option (Nat × Flags)
  | [], y, f => (y, f, none)
  | u :: us, y, f =>
    let r := o.unit src u
    if o.precise && r.flags &&& o.aten.toNat ≠ 0 then (y, f, some (u, r.flags))
    else o.run src us (y.apply1 r) (f ||| r.flags)

/-- An enabled exception of a completed instruction: the trap becomes pending, or joins the pending one (03 R85). -/
def Strand.addTrap (r : Strand) (flags : Flags) (pc : Word) : Strand :=
  match r.trap with
  | none => { r with trap := some { flags := BitVec.ofNat 5 flags, addr := pc, multi := false }, late := r.late ++ [.trap] }
  | some p => { r with trap := some { p with flags := p.flags ||| BitVec.ofNat 5 flags, multi := true } }

/-- The instruction has completed: flags join vflags, an enabled one traps, a hold ends (04 R98, R107; 03 R85). -/
def Strand.vecDone (r : Strand) (o : VOp) (flags : Flags) (v : Option Word) : Strand :=
  let r := { r with vflags := r.vflags ||| BitVec.ofNat 7 flags
                    hold := if r.hold = some (.vector o.id) then none else r.hold }
  let r := match v with | some v => r.setG o.f.vd v | none => r
  if flags &&& o.aten.toNat ≠ 0 then r.addTrap flags o.pc else r

/-- A precise trap at element `i` (03 R85, 04 R116, R117). -/
def State.preciseTrap (s : State) (t : TileId) (o : VOp) (i : Nat) (flags : Flags) : State :=
  (s.backToVec o t i).enter ⟨t, o.h⟩ { Cause.sync cTrap 0 0 with flags := flags % 32 } o.pc o.pc

/-- The instruction at the head of the arithmetic pipe executes and completes; a precise trap waits until it can be taken (03 R81). -/
def State.arithDone (s : State) (t : TileId) : State :=
  let x := s.tile t
  match x.aq with
  | [] => s
  | o :: _ =>
    let go := (s.strand ⟨t, o.h⟩).mayEnter
    let s0 := s
    let s := s.countTile t 1 (o.vlen - o.resume)
    if o.kind.isWhole then
      let (y, v, f) := o.whole x
      if o.precise && f &&& o.aten.toNat ≠ 0 then (if go then s.preciseTrap t o 0 f else s0)
      else (s.setTile t (y.dropVec o)).updStrand ⟨t, o.h⟩ fun r => r.vecDone o f v
    else
      let k := o.kind.unitSize
      let us := (List.range (o.vlen / k)).drop (ceilDiv o.resume k)
      match o.run x us x 0 with
      | (y, f, none) => (s.setTile t (y.dropVec o)).updStrand ⟨t, o.h⟩ fun r => r.vecDone o f none
      | (y, f, some (u, g)) =>
        if !go then s0 else ((s.setTile t y).updStrand ⟨t, o.h⟩ fun r => { r with vflags := r.vflags ||| BitVec.ofNat 7 f }).preciseTrap
          t o (u * k) g

/-- The memory instruction whose accesses are all done leaves its pipe and releases its strand (04 R98). -/
def State.memDone (s : State) (t : TileId) : State :=
  let x := s.tile t
  match x.mq with
  | [] => s
  | o :: _ =>
    if (o.nextUnit x).isSome then s
    else (s.setTile t (x.dropVec o)).updStrand ⟨t, o.h⟩ fun r => r.vecDone o 0 none

/-- VECTOR_OP_COMPLETE (04 R96, R98, R107). -/
def execVectorOpComplete (t : TileId) (p : Pipe) (s : State) : Out :=
  .next (match p with | .arith => s.arithDone t | .mem => s.memDone t)

end Sys2Proof.Machine
end

