-- ==== Sys2Proof/Machine/Atomic.lean ====
section
/-! DEFINITION. The scalar memory-side operation (02 R50; 09 R249–R253). -/

namespace Sys2Proof.Machine

/-- Bytes of a target: an element of the format, or an exact slot (09 R250). -/
def amoSize (code : Nat) : Nat := if code / 16 ≥ 9 then 64 else widthOf (code % 16) / 8

/-- amo (02 Table 02-4; 09 Table 09-7): checks, the non-replayable mark of R253, then a pending load of the old value;
without a stack-port credit it is not ready (01 R27). -/
def execAmo (a : At) (f : RF) (fn : BitVec 11) (s : State) : Out :=
  s.issue32 a [f.rd, f.rs1, f.rs2] fun s =>
    let r := s.strand a
    let code := fn.toNat
    let va := r.g f.rs1
    let v := r.g f.rs2
    if code ≥ 256 || !amoOk code || (decide (code / 16 ≥ 10) && decide (v.toNat % 8 > 4)) then illegal s a
    else if va.toNat % amoSize code ≠ 0 then .fault cAlign 0 0 va
    else match s.check a.t (s.auth a) .atomic va.toNat (amoSize code) true with
      | .walk p => .later (s.startWalk a.t p)
      | .fail c k w => .fault c k w va
      | .ok l =>
        let p : LoadPart := { va := va, addr := l.addr, len := amoSize code, target := l.target, policy := l.policy, backstop := l.backstop,
                              state := .waiting }
        if !s.hasCredit a.t true [p] then .wait
        else
          let s := if [0x17, 0x18, 0x19].contains code then s.spoilReplay a 1 else s
          .done (s.startLoad a (.amo code v (r.g f.rd)) f.rd (widthOf (code % 16) / 8) false [p])

end Sys2Proof.Machine
end

