-- ==== Sys2Proof/Machine/WarrantOps.lean ====
section
/-! DEFINITION. The warrant, gate and translation instructions (03 Table 03-4) that act on this tile alone. -/

namespace Sys2Proof.Machine

/-- A warrant-register operand stands in the low four bits of its field; the fifth must be zero (03 Table 03-4). -/
def wregOk (i : BitVec 5) : Bool := decide (i.toNat < 16)

/-- A warrant fault about register `i` (03 R63, R75, Table 03-9). -/
def wfault (i : BitVec 5) (check : Nat) : Act := .fault cWarrant check i.toNat 0

/-- Register `i` as a source: hidden, or its value (03 R75). -/
def State.source (s : State) (a : At) (i : BitVec 5) (k : Warrant → Act) : Act :=
  if !wregOk i then illegal s a
  else match (s.tile a.t).seen (s.strand a) i.toNat with
    | none => wfault i 2
    | some w => k w

/-- A source that must be valid, of one of the given kinds and with the given header bit (03 R63, R64). -/
def State.needs (s : State) (a : At) (i : BitVec 5) (kinds : List Nat) (bit : Option Nat) (k : Warrant → Act) : Act :=
  s.source a i fun w =>
    if !kinds.contains w.kind then wfault i 0
    else if !(s.tile a.t).warrantOk w then wfault i 1
    else match bit with
      | some b => if w.bit b then k w else wfault i 3
      | none => k w

/-- Register `i` as a destination: visible, and not one of the names of BW0–BW3 (03 R75, R86). -/
def State.target (s : State) (a : At) (i : BitVec 5) (k : Act) : Act :=
  s.source a i fun _ => if (s.strand a).status.bs then wfault i 2 else k

def State.setW (s : State) (a : At) (i : BitVec 5) (w : Warrant) : State :=
  s.updStrand a fun r => { r with wregs := Sparse.set 0 r.wregs i.toNat w }

def anyKind : List Nat := [1, 2, 3, 4, 5, 6]

/-- wmov (03 R64). -/
def execWmov (a : At) (f : RF) (s : State) : Out :=
  sysOp a [f.rs2] [] (fun s =>
    s.needs a f.rs1 anyKind (some 31) fun w => s.target a f.rd (.done (s.setW a f.rd w))) s

/-- wclr (03 Table 03-4). -/
def execWclr (a : At) (f : RF) (s : State) : Out :=
  sysOp a [f.rs1, f.rs2] [] (fun s => s.target a f.rd (.done (s.setW a f.rd 0))) s

/-- A narrowing of a valid warrant register (03 R65); none with the check that failed. -/
def narrow (kinds : List Nat) (change : Warrant → Except Nat Warrant) (a : At) (wd : BitVec 5) (s : State) : Act :=
  s.target a wd (s.needs a wd kinds none fun w =>
    match change w with
    | .error c => wfault wd c
    | .ok v => .done (s.setW a wd v))

/-- A warrant with bits [lo + n − 1 : lo] replaced. -/
def Warrant.with (w : Warrant) (lo n v : Nat) : Warrant := BitVec.ofNat 128 (setBits w.toNat lo n v)

/-- The smallest e that represents [b, b + n) (03 R65). -/
def fitRange (b n : Nat) : Option Nat :=
  (List.range 64).find? fun e => b % 2 ^ e == 0 && n % 2 ^ e == 0 && decide (n / 2 ^ e ≤ 2 ^ 26 - 1)

/-- wbound on a MEM or CTRL warrant (03 R65). -/
def Warrant.bound (w : Warrant) (b n : Nat) : Except Nat Warrant :=
  if n = 0 ∨ b < w.base ∨ w.top < b + n then .error 4
  else match fitRange b n with
    | none => .error 4
    | some e => .ok (((w.with 32 6 e).with 38 26 (n / 2 ^ e)).with 64 (if w.kind = 3 then 44 else 64) b)

/-- wbound (03 R65). -/
def execWbound (a : At) (f : RF) (s : State) : Out :=
  sysOp a [] [f.rs1, f.rs2] (fun s =>
    let r := s.strand a
    narrow [1, 3] (fun w => w.bound (r.g f.rs1).toNat (r.g f.rs2).toNat) a f.rd s) s

/-- wright (03 R65). -/
def execWright (a : At) (f : RF) (s : State) : Out :=
  sysOp a [f.rs2] [f.rs1] (fun s =>
    narrow anyKind (fun w => .ok (w.with 24 8 (w.field 24 8 &&& bitsOf ((s.strand a).g f.rs1).toNat 24 8))) a f.rd s) s

/-- wlow (03 R65). -/
def execWlow (a : At) (f : RF) (s : State) : Out :=
  sysOp a [f.rs2] [f.rs1] (fun s =>
    let e := bitsOf ((s.strand a).g f.rs1).toNat 0 16
    narrow anyKind (fun w =>
      if e > w.epoch ∨ e < (s.tile a.t).floor.toNat then .error 5 else .ok (w.with 8 16 e)) a f.rd s) s

/-- A subrange of an XFER warrant's range at fields `lo`, `n` and `lo'`, `n'` (03 R65). A count of 0, which the spec does not name, gives the
empty subrange (log 96). -/
def Warrant.subrange (w : Warrant) (lo n lo' n' first count : Nat) : Except Nat Warrant :=
  if first < w.field lo n ∨ w.field lo n + w.field lo' n' < first + count then .error 4
  else .ok ((w.with lo n first).with lo' n' count)

/-- wgrp (03 R65). -/
def execWgrp (a : At) (f : RF) (s : State) : Out :=
  sysOp a [] [f.rs1, f.rs2] (fun s =>
    let r := s.strand a
    narrow [4] (fun w => w.subrange 32 12 44 13 (r.g f.rs1).toNat (r.g f.rs2).toNat) a f.rd s) s

/-- wdev (03 R65). -/
def execWdev (a : At) (f : RF) (s : State) : Out :=
  sysOp a [] [f.rs1, f.rs2] (fun s =>
    let r := s.strand a
    narrow [4] (fun w => w.subrange 64 20 84 21 (r.g f.rs1).toNat (r.g f.rs2).toNat) a f.rd s) s

/-- wget (03 Table 03-4). -/
def execWget (a : At) (f : RF) (s : State) : Out :=
  sysOp a [] [f.rd] (fun s =>
    if f.rs2.toNat > 2 then illegal s a
    else s.source a f.rs1 fun w =>
      result s a f.rd (if f.rs2 = 0 then word (w.field 0 64) else if f.rs2 = 1 then word (w.field 64 64)
        else flag ((s.tile a.t).warrantOk w))) s

/-- wsv (03 R66): two store-buffer entries at once. -/
def execWsv (a : At) (f : RF) (s : State) : Out :=
  sysOp a [f.rs2] [f.rs1] (fun s =>
    s.needs a f.rd anyKind (some 31) fun w =>
      let va := (s.strand a).g f.rs1
      if va.toNat % 16 ≠ 0 then .fault cAlign 0 0 va
      else match s.check a.t (s.auth a) .sealStore va.toNat 16 true with
        | .walk p => .later (s.startWalk a.t p)
        | .fail c k i => .fault c k i va
        | .ok l =>
          s.enterStore a [(va, 8, l), (va + 8, 8, { l with addr := l.addr + 8 })] (leBytes 16 w.toNat)) s

/-- The parts of a load of `n` bytes: cut at 64 B, and at 32 B where a part is uncached (09 R223). -/
def bigParts (ps : List (Word × Nat × Xlate)) : List LoadPart :=
  ps.flatMap fun (v, n, l) =>
    let one (o m : Nat) : LoadPart :=
      { va := v, addr := l.addr + o, len := m, target := l.target, policy := l.policy, backstop := l.backstop,
        state := .waiting }
    if l.target = .memory ∧ l.policy = .uncached ∧ 32 - l.addr % 32 < n then
      let k := 32 - l.addr % 32
      if n ≤ k + 32 then [one 0 k, one k (n - k)] else [one 0 k, one k 32, one (k + 32) (n - k - 32)]
    else [one 0 n]

/-- wld (03 R66): holds the strand until wd is written. -/
def execWld (a : At) (f : RF) (s : State) : Out :=
  sysOp a [f.rs2] [f.rs1] (fun s =>
    s.target a f.rd (
      let va := (s.strand a).g f.rs1
      if va.toNat % 16 ≠ 0 then .fault cAlign 0 0 va
      else match s.check a.t (s.auth a) .sealLoad va.toNat 16 true with
        | .walk p => .later (s.startWalk a.t p)
        | .fail c k i => .fault c k i va
        | .ok l =>
          if s.hasCredit a.t false (bigParts [(va, 16, l)]) then
            .go ((s.updStrand a fun r => { r with hold := some .load }).startLoad a (.warrant (f.rd.setWidth 4)) 0 16 true
              (bigParts [(va, 16, l)]))
          else .wait)) s

/-- gcall (03 R74). It waits for a frame that is being read back (R77) and is a gate fault while bs = 1 (R87). -/
def execGcall (a : At) (f : RF) (s : State) : Out :=
  sysCtl a [f.rd] [f.rs2] (fun s =>
    let r := s.strand a
    if r.readback then .wait
    else if r.status.bs then .fault cGate 0 f.rs1.toNat 0
    else s.needs a f.rs1 [2] (some 24) fun w =>
      if !w.bit 27 then wfault f.rs1 3
      else if r.status.gdepth = 31 || !s.pushOk a then .fault cGate 0 f.rs1.toNat 0
      else
        let s := s.pushFrame a
          { savedw15 := Sparse.get 0 r.wregs 15, retpc := (r.pc + 4).setWidth 48, savedvis := r.vis, exc := false }
        .go (s.updStrand a fun r =>
          { r with vis := r.vis &&& (r.g f.rs2).setWidth 15, wregs := Sparse.set 0 r.wregs 15 w.ofGate,
                   pc := word w.entry, lineBuf := none, lineNext := none })) s

/-- gret (03 R76). -/
def execGret (a : At) (f : RF) (s : State) : Out :=
  sysCtl a [f.rd, f.rs1, f.rs2] [] (fun s =>
    let r := s.strand a
    if r.readback then .wait
    else match r.frames with
      | fr :: _ =>
        if fr.exc || r.status.gdepth = 0 then .fault cGate 0 0 0
        else .go (s.updStrand a fun r => { r.pop with pc := fr.retpc.setWidth 64, lineBuf := none, lineNext := none })
      | [] => .fault cGate 0 0 0) s

/-- FRAME_READBACK: the frame that a pop left outside the entry registers comes back from its slot (03 R77). -/
def execFrameReadback (a : At) (s : State) : Out :=
  let r := s.strand a
  if !r.readback then .next s
  else
    let f := EntryFrame.ofBytes (s.bytes (spillAddr r (r.status.gdepth.toNat - r.frames.length)) 64)
    .next (s.setStrand a { r with frames := r.frames ++ [f], readback := false })

/-- qfloor (03 R67): the strand is held until every tile of the quire has applied the new floor; no halt and no event is taken meanwhile
(log 96). -/
def execQfloor (a : At) (f : RF) (s : State) : Out :=
  sysOp a [f.rs2] [f.rs1] (fun s =>
    s.needs a f.rd [6] (some 24) fun w =>
      let v := bitsOf ((s.strand a).g f.rs1).toNat 0 16
      if v ≤ (s.tile a.t).floor.toNat ∨ w.epoch < v then wfault f.rd 5
      else .done (s.updStrand a fun r => { r with hold := some (.quireFloor (BitVec.ofNat 16 v)) })) s

/-- QFLOOR_APPLIED: every tile of the quire has the new floor, which never falls (03 R67, R68). -/
def execQfloorApplied (a : At) (s : State) : Out :=
  match (s.strand a).hold with
  | some (.quireFloor v) =>
    let q := (s.tile a.t).quire.toNat
    let s := (s.tilesOf q).foldl (fun s t => s.updTile t fun x =>
      if x.floor.toNat < v.toNat then { x with floor := v } else x) s
    .next (s.updStrand a fun r => { r with hold := none })
  | _ => .next s

/-- tlbinv: this tile's translation of an address (03 R72). -/
def execTlbinv (a : At) (f : RF) (s : State) : Out :=
  sysOp a [f.rd, f.rs2] [f.rs1] (fun s =>
    let p := ((s.strand a).g f.rs1).toNat / 2 ^ 16
    .done (s.updTile a.t fun x => x.invalidate fun q n => decide (q ≤ p) && decide (p < q + n))) s

/-- tlbinv.all (03 Table 03-4). -/
def execTlbinvAll (a : At) (f : RF) (s : State) : Out :=
  sysOp a [f.rd, f.rs1, f.rs2] [] (fun s => .done (s.updTile a.t fun x => x.invalidate fun _ _ => true)) s

end Sys2Proof.Machine
end

