-- ==== Sys2Proof/Machine/Maintain.lean ====
section
/-! DEFINITION. Fences, tile-store maintenance and prefetch (08 R199, R205–R215, Tables 08-2, 08-3, 08-6), and fills. -/

namespace Sys2Proof.Machine

/-- A strand's own store: not one of a tile operation that is still queued, which a fence does not wait for (08 R213). -/
def Tile.ownStore (x : Tile) (h : StrandId) : StoreBy → Bool
  | .strand k => k == h
  | .op k id => k == h && !(x.tq.any (·.id == id))

/-- The merging-buffer entries that hold bytes of a strand are sent at once (08 Table 08-3). -/
def State.sendMerges (s : State) (a : At) : State :=
  ((s.tile a.t).mbuf.filter (fun e => e.owners.any ((s.tile a.t).ownStore a.h))).foldl (fun s e => s.sendMerge a.t e) s

/-- A request that the store condition of a strand waits for (08 R213). -/
def Tile.holdsFence (x : Tile) (h : StrandId) (k : Ask) : Bool :=
  match k.kind with
  | .store => k.h == h
  | .vstore => k.h == h
  | .tstore id => x.ownStore h (.op k.h id)
  | .writeback (some w) => w == h
  | .merged owners => owners.any (x.ownStore h)
  | _ => false

/-- The store condition of fence (08 R213, Table 08-3). -/
def Tile.storesDone (x : Tile) (h : StrandId) : Bool :=
  (x.strand h).sb.isEmpty && !(x.mbuf.any fun e => e.owners.any (x.ownStore h)) && !(x.asks.any (x.holdsFence h))

/-- fence (08 R213): release ordering. -/
def execFence (a : At) (f : RF) (s : State) : Out :=
  sysOp a [f.rd, f.rs1, f.rs2] [] (fun s =>
    let s := s.sendMerges a
    if (s.strand a).loads.isEmpty && (s.tile a.t).storesDone a.h then .done s else .later s) s

/-- fence.ld (08 R213): acquire ordering. -/
def execFenceLd (a : At) (f : RF) (s : State) : Out :=
  sysOp a [f.rd, f.rs1, f.rs2] [] (fun s => if (s.strand a).loads.isEmpty then .done s else .wait) s

/-- What a maintenance instruction does to a sector or line (08 Table 08-2). -/
inductive Upkeep where
  | clean | cleanInv | inv
deriving DecidableEq, Repr

def Upkeep.need : Upkeep → Need
  | .inv => .store
  | _ => .load

/-- Invalidate the sectors of a mask in a line; an empty line leaves its way. -/
def Tile.dropSectors (x : Tile) (k w : Nat) (mask : BitVec 4) : Tile :=
  match x.lineAt k w with
  | none => x
  | some l =>
    let v := l.valid &&& ~~~ mask
    x.setLine k w (if v = 0 then none else some { l with valid := v, dirty := l.dirty &&& ~~~ mask })

/-- The dirty sectors of a line in which a write-back meets a word that its code cannot correct (08 R197). -/
def Line.spoiled (l : Line) (mask : BitVec 4) : List Nat :=
  (List.range 4).filter fun i => (l.valid &&& l.dirty &&& mask).getLsbD i && (wordsOf (bit4 i) &&& l.torn != 0)

/-- What acting on sectors gives: it must wait; it is done; or a dirty sector was found lost (08 R197), named by its local address. -/
inductive Tended where
  | wait
  | done (s : State)
  | lost (s : State) (sector : Nat)

/-- Act on sectors of a line (08 Table 08-2). -/
def State.upkeep (s : State) (a : At) (op : Upkeep) (k w : Nat) (mask : BitVec 4) : Tended :=
  let bad := match op, (s.tile a.t).lineAt k w with
    | .inv, _ => none
    | _, none => none
    | _, some l => (l.spoiled mask).head?.map fun i => l.tag * 256 + 64 * i
  let s := if op = .inv then s else s.cleanLine a.t k w (some a.h) mask
  let s := if op = .clean then s else s.updTile a.t fun x => x.dropSectors k w mask
  match bad with
  | none => .done s
  | some i => .lost s i

/-- Act on the sector of a checked address once the strand's stores to it have drained and no fill of it is on its way (08 R205, R210); a
sector that is on another device or uncached is not acted on (R209). -/
def State.upkeepSector (s : State) (a : At) (op : Upkeep) (l : Xlate) : Tended :=
  let sec := l.addr / 64 * 64
  if (s.strand a).sb.any (fun e => e.target == l.target && e.backstop == l.backstop && overlaps e.addr e.bytes.length sec 64) then .wait
  else if l.backstop || l.target ≠ .memory || l.policy = .uncached then .done s
  else if fillingLine (s.tile a.t) (l.addr / 256) then .wait
  else
    let s := s.flushMerge a.t sec
    match (s.tile a.t).wayOf l.addr with
    | none => .done s
    | some w => s.upkeep a op (setOf l.addr) w (bit4 (sectorOf l.addr))

/-- The base of the sector that holds an address. -/
def sectorAt (va : Word) : Word := va / 64 * 64

/-- dcl, dci, dinv (08 R209, R210): the whole sector is checked. A write-back that meets an uncorrectable word ends in the memory error at the
sector (08 R197), and what the instruction has done stands. -/
def upkeepOne (op : Upkeep) (a : At) (f : RF) (s : State) : Out :=
  sysOp a [f.rd, f.rs2] [f.rs1] (fun s =>
    let va := (s.strand a).g f.rs1
    match s.check a.t (s.auth a) op.need (sectorAt va).toNat 64 false with
    | .walk p => .later (s.startWalk a.t p)
    | .fail c k w => .fault c k w va
    | .ok l => match s.upkeepSector a op l with
      | .wait => .wait
      | .done s => .done s
      | .lost s _ => .later (s.raise a cMemory 0 0 (sectorAt va))) s

/-- dcl. -/
def execDcl (a : At) (f : RF) (s : State) : Out := upkeepOne .clean a f s
/-- dci. -/
def execDci (a : At) (f : RF) (s : State) : Out := upkeepOne .cleanInv a f s
/-- dinv. -/
def execDinv (a : At) (f : RF) (s : State) : Out := upkeepOne .inv a f s

/-- Act on the sectors of one line in order, given by their bases: each is checked before it is acted on, and what is done to those before one
that faults or must wait stands (08 R209, R210). -/
def State.upkeepParts (s : State) (a : At) (op : Upkeep) : List Nat → Act
  | [] => .done s
  | va :: rest =>
    match s.check a.t (s.auth a) op.need va 64 false with
    | .walk p => .later (s.startWalk a.t p)
    | .fail c k w => .later (s.raise a c k w (word va))
    | .ok l => match s.upkeepSector a op l with
      | .wait => .later s
      | .lost s _ => .later (s.raise a cMemory 0 0 (word va))
      | .done s => s.upkeepParts a op rest

/-- dclr, dcir, dinvr (08 R210): one line; the instruction completes when no length is left, and else stands there for the next. -/
def upkeepRange (op : Upkeep) (a : At) (f : RF) (s : State) : Out :=
  sysOp a [f.rd] [f.rs1, f.rs2] (fun s =>
    if f.rs1 = f.rs2 ∨ f.rs1 = 0 ∨ f.rs2 = 0 then illegal s a
    else
      let r := s.strand a
      let va := r.g f.rs1
      let len := (r.g f.rs2).toNat
      if len = 0 then .done s
      else
        let step := 256 - va.toNat % 256
        match s.upkeepParts a op (sectorsOf va.toNat (min len step)) with
        | .done s =>
          let s := s.updStrand a fun r => (r.setG f.rs1 (va + word step)).setG f.rs2 (word (len - step))
          if len ≤ step then .done s else .later s
        | act => act) s

/-- dclr. -/
def execDclr (a : At) (f : RF) (s : State) : Out := upkeepRange .clean a f s
/-- dcir. -/
def execDcir (a : At) (f : RF) (s : State) : Out := upkeepRange .cleanInv a f s
/-- dinvr. -/
def execDinvr (a : At) (f : RF) (s : State) : Out := upkeepRange .inv a f s

/-- The tile control block (01 Table 01-11). -/
def tileBlock (t : TileId) : Nat := 0xF0000000000 + t.val * 2 ^ 24

/-- A visible valid CTRL warrant with W over the tile's own control block (08 R209). -/
def State.ownsTile (s : State) (a : At) : Bool :=
  let x := s.tile a.t
  let au := s.auth a
  au.ws.any fun w => w.2.kind == 3 && x.valid w.2 au && w.2.bit 25 && w.2.covers (tileBlock a.t) (2 ^ 24)

/-- Act on a whole line by set and way; locked ways are left alone (08 R196, R209); a fill of the line that is on its way is waited for. -/
def State.upkeepLine (s : State) (a : At) (op : Upkeep) (k w : Nat) : Tended :=
  let x := s.tile a.t
  if x.ways k ≤ w then .done s
  else match x.lineAt k w with
    | none => .done s
    | some l =>
      if fillingLine x l.tag then .wait
      else
        let s := (x.mbuf.filter (fun e => e.addr / 256 == l.tag)).foldl (fun s e => s.sendMerge a.t e) s
        s.upkeep a op k w (BitVec.allOnes 4)

/-- dclsw, dcisw, dinvsw (08 R209). No virtual address names the sector that is lost: the fault records its local address (log 100). -/
def upkeepSetWay (op : Upkeep) (a : At) (f : RF) (s : State) : Out :=
  sysOp a [f.rd, f.rs2] [f.rs1] (fun s =>
    let v := ((s.strand a).g f.rs1).toNat
    if bitsOf v 0 11 ≥ 1536 then illegal s a
    else if op = .inv && !s.ownsTile a then .fault cWarrant 3 0 0
    else match s.upkeepLine a op (bitsOf v 0 11) (bitsOf v 16 4) with
      | .wait => .wait
      | .done s => .done s
      | .lost s i => .later (s.raise a cMemory 0 0 (word i))) s

/-- dclsw. -/
def execDclsw (a : At) (f : RF) (s : State) : Out := upkeepSetWay .clean a f s
/-- dcisw. -/
def execDcisw (a : At) (f : RF) (s : State) : Out := upkeepSetWay .cleanInv a f s
/-- dinvsw. -/
def execDinvsw (a : At) (f : RF) (s : State) : Out := upkeepSetWay .inv a f s

/-- Act on lines by set and way, in order, until one is found lost. -/
def State.upkeepLines (s : State) (a : At) (op : Upkeep) : List Nat → Tended
  | [] => .done s
  | k :: rest => match s.upkeepLine a op (k / 16) (k % 16) with
    | .done s => s.upkeepLines a op rest
    | r => r

/-- Act on every line that the tile store holds; the lines of a fill in flight are waited for (08 R205). -/
def upkeepAll (op : Upkeep) (a : At) (f : RF) (s : State) : Out :=
  sysOp a [f.rd, f.rs1, f.rs2] [] (fun s =>
    let x := s.tile a.t
    if op = .inv && !s.ownsTile a then .fault cWarrant 3 0 0
    else if x.asks.any (fun k => match k.kind with | .fill .. => true | _ => false) then .wait
    else
      let s := x.mbuf.foldl (fun s e => s.sendMerge a.t e) s
      match s.upkeepLines a op (x.lines.map (·.1)) with
      | .wait => .wait
      | .done s => .done s
      | .lost s i => .later (s.raise a cMemory 0 0 (word i))) s

/-- dcl.all. -/
def execDclAll (a : At) (f : RF) (s : State) : Out := upkeepAll .clean a f s
/-- dci.all. -/
def execDciAll (a : At) (f : RF) (s : State) : Out := upkeepAll .cleanInv a f s
/-- dinv.all. -/
def execDinvAll (a : At) (f : RF) (s : State) : Out := upkeepAll .inv a f s

/-- What a prefetch request meets (08 R208). -/
inductive Probe where
  | walk (m : Miss)
  | failed
  | dropped
  | line (l : Xlate)

/-- Check a prefetch request of a strand, made as `who`. -/
def State.probe (s : State) (a : At) (who : WalkFor) (va : Word) : Probe :=
  if inControl va.toNat then .dropped
  else match s.check a.t { s.auth a with who := who } .load va.toNat 1 false with
    | .walk p => .walk p
    | .fail _ _ _ => .failed
    | .ok l => if l.backstop || l.target ≠ .memory || l.policy = .uncached then .dropped else .line l

/-- Make the request of a pfl: where its page is in no entry, the walk goes on by itself and the request is made when it ends (08 R208). -/
def State.prefetchLine (s : State) (a : At) (va : Word) : State :=
  match s.probe a (.line a.h va) va with
  | .walk p => s.startWalk a.t p
  | .failed => s.updTile a.t (·.forget (.line a.h va))
  | .dropped => s
  | .line l => (s.requestLine a.t a.h va l.addr false none false).2

/-- pfl (08 R208): one request, which never faults and never holds the strand. -/
def execPfl (a : At) (f : RF) (s : State) : Out :=
  sysOp a [f.rd, f.rs2] [f.rs1] (fun s => .done (s.prefetchLine a ((s.strand a).g f.rs1))) s

def Tile.stream (x : Tile) (k : Nat) : Option Stream := Sparse.get none x.streams k
def Tile.setStream (x : Tile) (k : Nat) (p : Option Stream) : Tile := { x with streams := Sparse.set none x.streams k p }

/-- pfs (08 R207); with TS_CTL.spf = 0 the stream is stopped at once (Table 08-4). -/
def execPfs (a : At) (f : RF) (s : State) : Out :=
  sysOp a [] [f.rs1, f.rs2] (fun s =>
    let r := s.strand a
    let v := (r.g f.rs2).toNat
    let stride : BitVec 32 := BitVec.ofNat 32 v
    let d := bitsOf v 48 8
    if f.rd.toNat ≥ 16 || stride = 0 || stride.toNat % 64 ≠ 0 || d = 0 || bitsOf v 56 8 ≠ 0 then illegal s a
    else
      let n := bitsOf v 32 16
      .done (s.updTile a.t fun x => x.setStream f.rd.toNat (some
        { base := r.g f.rs1, stride := stride, count := n, dist := d, done := 0, strand := a.h, depth := r.status.gdepth,
          state := if n = 0 then .finished else if x.tsCtl.getLsbD 1 then .running else .stopped, ahead := [] }))) s

def Stream.halt (p : Stream) : Stream := if p.state = .running then { p with state := .stopped } else p

/-- Stop the streams of a mask (08 Table 08-2). -/
def Tile.stopStreams (x : Tile) (mask : Nat) : Tile :=
  (List.range 16).foldl (fun x k => if bitOf mask k then x.setStream k ((x.stream k).map Stream.halt) else x) x

/-- pfstop. -/
def execPfstop (a : At) (f : RF) (s : State) : Out :=
  sysOp a [f.rd, f.rs2] [f.rs1] (fun s =>
    .done (s.updTile a.t fun x => x.stopStreams (((s.strand a).g f.rs1).toNat % 2 ^ 16))) s

/-- The lines of a stream that still count against its distance (08 R207): in flight, or resident and untouched. -/
def Tile.streamAhead (x : Tile) (p : Stream) : List Nat :=
  p.ahead.filter fun l => fillingLine x l ||
    (match x.wayOf (l * 256) with
     | some w => match x.lineAt (setOf (l * 256)) w with | some e => e.untouched | none => false
     | none => false)

/-- PF_STATE (08 Table 08-6). -/
def Tile.pfState (x : Tile) (k : Nat) : Word :=
  match x.stream k with
  | none => 0
  | some p =>
    let st := match p.state with | .idle => 0 | .running => 1 | .finished => 2 | .stopped => 3
    word (p.count - p.done + 2 ^ 16 * p.strand.val + 2 ^ 19 * p.depth.toNat + 2 ^ 24 * st + 2 ^ 26 * ((x.streamAhead p).length % 256))

/-- pfrd. -/
def execPfrd (a : At) (f : RF) (s : State) : Out :=
  sysOp a [f.rs2] [f.rd, f.rs1] (fun s =>
    result s a f.rd ((s.tile a.t).pfState (((s.strand a).g f.rs1).toNat % 16))) s

/-- The stream has dealt with one more line. -/
def Stream.next (p : Stream) (line : Option Nat) : Stream :=
  { p with done := p.done + 1, state := if p.done + 1 = p.count then .finished else p.state
           ahead := match line with | some l => p.ahead ++ [l] | none => p.ahead }

/-- STREAM_PREFETCH_REQUEST: a running stream checks and makes its next request (08 R207, R208). -/
def execStreamPrefetchRequest (t : TileId) (k : Fin 16) (s : State) : Out :=
  let x := s.tile t
  .next (match x.stream k.val with
    | none => s
    | some p =>
      let r := x.strand p.strand
      let p := { p with ahead := x.streamAhead p }
      if p.state ≠ .running || !x.tsCtl.getLsbD 1 || r.status.gdepth ≠ p.depth || r.status.bs || p.dist ≤ p.ahead.length then s
      else
        let va := p.base + word p.done * p.stride.signExtend 64
        let put (s : State) (p : Stream) : State := s.updTile t fun x => x.setStream k.val (some p)
        match s.probe ⟨t, p.strand⟩ (.stream k.val) va with
        | .walk g => s.startWalk t g
        | .failed => put (s.updTile t (·.forget (.stream k.val))) { p with state := .stopped }
        | .dropped => put s (p.next none)
        | .line l =>
          let line := l.addr / 256
          if x.present (line * 256) 256 then put s (p.next none)
          else put (s.requestLine t p.strand va l.addr false (some k.val) false).2 (p.next (some line)))

/-- A fill is done: a load part that waits for it takes its bytes from the line at once, before anything that the tile store accepts after it
(08 R205); a failed one fails the part that demanded the sector, and another part of the line asks again (09 Table 09-3). -/
def LoadPart.fillDone (p : LoadPart) (x : Tile) (tag : Nat) (sec : Nat) (bad : Option Fail) : LoadPart :=
  if p.state ≠ .asked tag then p
  else match bad with
    | some f => if p.addr / 64 = sec then { p with state := .failed f.code f.check } else { p with state := .waiting }
    | none => { p with state := if x.present p.addr p.len then .got (x.readLine p.addr p.len) else .waiting }

/-- A strand when a fill is done: its loads, and the store it is draining. -/
def Strand.fillDone (r : Strand) (x : Tile) (tag sec : Nat) (bad : Option Fail) : Strand :=
  let ls := r.loads.map fun l => { l with parts := l.parts.map fun p => p.fillDone x tag sec bad }
  let r := { r with loads := ls }
  match bad, r.sb with
  | some _, e :: es =>
    if e.target = .memory ∧ !e.backstop ∧ e.policy = .writeBack ∧ e.addr / 64 = sec then raiseLine4 { r with sb := es } e.va
    else r
  | _, _ => r

/-- Whoever waited for fill `tag` goes on, or meets its failure; a store-buffer store that demanded it is lost and
raises line 4 (09 Table 09-3, 03 Table 03-11). -/
def Tile.fillDone (x : Tile) (k : Ask) (bad : Option Fail) : Tile :=
  let sec := k.addr / 64
  let met (wait : Option Nat) (old : Option (Nat × Nat)) : Option (Nat × Nat) :=
    if wait = some k.tag then (match bad with | some f => some (f.code, f.check) | none => old) else old
  let free (wait : Option Nat) : Option Nat := if wait = some k.tag then none else wait
  let mq := x.mq.map fun o => { o with bad := met o.wait o.bad, wait := free o.wait }
  let tq := x.tq.map fun o => { o with bad := met o.wait o.bad, wait := free o.wait }
  let x := { x with mq := mq, tq := tq }
  allStrands.foldl (fun x h => x.updStrand h fun r => r.fillDone x k.tag sec bad) x

/-- Install the sectors of a fill that no store has made present meanwhile (08 R200); a line that is left without any sector
frees its way. -/
def Tile.install (x : Tile) (addr : Nat) (secs : List (Nat × List Byte)) : Tile :=
  match x.wayOf addr with
  | none => x
  | some w =>
    let keep := match x.lineAt (setOf addr) w with | some l => l.untouched | none => false
    let here (x : Tile) (i : Nat) : Bool := match x.lineAt (setOf addr) w with | some l => l.valid.getLsbD i | none => false
    let x := secs.foldl (fun x (i, bs) => if here x i then x else x.fillSector w (addr / 256 * 256 + 64 * i) bs false keep) x
    match x.lineAt (setOf addr) w with
    | some l => if l.valid = 0 then x.setLine (setOf addr) w none else x
    | none => x

/-- Errors arise in words of the line at a place, 16 × set + way (08 R197). -/
def Tile.strike (x : Tile) (place : Nat) (weak torn : BitVec 32) : Tile :=
  match Sparse.get none x.lines place with
  | none => x
  | some l =>
    let l := { l with weak := l.weak ||| (weak &&& wordsOf l.valid), torn := l.torn ||| (torn &&& wordsOf l.valid) }
    { x with lines := Sparse.set none x.lines place (some l) }

def AskKind.isFill : AskKind → Bool
  | .fill .. => true | _ => false

/-- The oldest answer in the inbox to a request of a sort. -/
def Tile.firstAnswer (x : Tile) (p : AskKind → Bool) : Option (Ask × MPacket) :=
  x.inbox.findSome? fun m => match x.asks.find? (·.tag == m.tag) with
    | some k => if p k.kind then some (k, m) else none
    | none => none

/-- FILL_RETURN: the oldest fill that has come is installed, or fails its demanding access (08 R200, 09 R230, Table 09-3); `weak` and
`torn` say in which words of the line at `place` errors have arisen, which an access will meet (08 R197; log 39). -/
def execFillReturn (t : TileId) (place : Nat) (weak torn : BitVec 32) (s : State) : Out :=
  let x := (s.tile t).strike place weak torn
  .next (match x.firstAnswer AskKind.isFill with
    | none => s.setTile t x
    | some (k, m) =>
      let x := { x with inbox := x.inbox.erase m, asks := x.asks.filter (·.tag ≠ k.tag) }
      match m.body with
      | .fail f => s.setTile t ((x.install k.addr []).fillDone k (some f))
      | .data secs => s.setTile t ((x.install k.addr secs).fillDone k none)
      | _ => s.setTile t x)

/-- MERGING_BUFFER_SEND: the age limit of entry `k` has passed (08 R199). -/
def execMergingBufferSend (t : TileId) (k : Nat) (s : State) : Out :=
  .next (match (s.tile t).mbuf[k]? with
    | none => s
    | some e => s.sendMerge t e)

def AskKind.isWriteback : AskKind → Bool
  | .writeback _ => true | .merged _ => true | _ => false

/-- WRITEBACK_REFUSED (08 R215). -/
def execWritebackRefused (t : TileId) (s : State) : Out :=
  let x := s.tile t
  .next (match x.firstAnswer AskKind.isWriteback with
    | none => s
    | some (k, m) =>
      let x := { x with inbox := x.inbox.erase m, asks := x.asks.filter (·.tag ≠ k.tag),
                        tsFail := true, tsAddr := k.addr / 64 * 64
                        refused := k.addr / 2 ^ 21 :: x.refused }
      s.setTile t (allStrands.foldl (fun x h => x.updStrand h fun r => raiseLine4 r (word k.addr)) x))

end Sys2Proof.Machine
end

