-- ==== Sys2Proof/Machine/Mesh.lean ====
section
/-! DEFINITION. Where the ports of the mesh sit, the route of a packet and what its transit costs (01 R11, R24, R25, Tables 01-1, 01-2, 01-10). -/

namespace Sys2Proof.Machine

/-- A router of the mesh of 12 rows and 16 columns. -/
structure Router where
  row : Nat
  col : Nat
deriving DecidableEq, Repr

/-- The router of a tile (01 R11). -/
def routerOf (t : TileId) : Router := { row := t.val / 16, col := t.val % 16 }

/-- The two edge routers of stack k of CD0 (01 Table 01-2). -/
def cornerRouters (k : Nat) : List Router :=
  match k with
  | 0 => [⟨0, 0⟩, ⟨0, 1⟩]
  | 1 => [⟨0, 3⟩, ⟨0, 4⟩]
  | 2 => [⟨0, 6⟩, ⟨0, 7⟩]
  | 3 => [⟨1, 0⟩, ⟨2, 0⟩]
  | _ => [⟨3, 0⟩, ⟨4, 0⟩]

/-- The routers that a stack port spans: those of CD0, mirrored for the other dies (01 Table 01-2). -/
def stackRouters (m : StackId) : List Router :=
  let die := m.val / 5
  (cornerRouters (m.val % 5)).map fun r =>
    { row := if 2 ≤ die then 11 - r.row else r.row, col := if die % 2 = 1 then 15 - r.col else r.col }

/-- The routers of the eight vertical links that cross an exchange die's part of the band (01 "Dies and the tile mesh", R24). -/
def exchangeRouters (x : Fin 2) : List Router :=
  (List.range 8).flatMap fun c => [⟨5, 8 * x.val + c⟩, ⟨6, 8 * x.val + c⟩]

/-- The routers that bear a port of the mesh (01 R24). -/
def routersOf : MeshPort → List Router
  | .tile t => [routerOf t]
  | .stack m => stackRouters m
  | .xd x => exchangeRouters x

/-- From one number towards another, one at a time, without the first and with the last. -/
def towards (a b : Nat) : List Nat := if a ≤ b then (List.range (b - a)).map (a + 1 + ·) else (List.range (a - b)).map (a - 1 - ·)

/-- The routers that a packet passes after its first: along the source row, then along the destination column (01 R25). -/
def route (a b : Router) : List Router :=
  ((towards a.col b.col).map fun c => ⟨a.row, c⟩) ++ (towards a.row b.row).map fun r => ⟨r, b.col⟩

/-- Mesh beats of a hop (01 Table 01-10): 4 between columns 7 and 8, 6 between rows 5 and 6. -/
def hopBeats (a b : Router) : Nat :=
  if a.row = b.row then (if min a.col b.col = 7 then 4 else 1) else if min a.row b.row = 5 then 6 else 1

/-- Mesh beats of the hops along a path. -/
def pathBeats : Router → List Router → Nat
  | _, [] => 0
  | a, b :: rest => hopBeats a b + pathBeats b rest

/-- Mesh beats of a packet's transit in an idle mesh (01 Table 01-10): injection, hops, ejection. -/
def transitBeats (a b : Router) : Nat := 2 + pathBeats a (route a b) + 2

end Sys2Proof.Machine
end

