-- ==== Sys2Proof/Machine/MemSide.lean ====
section
/-! DEFINITION. Walks (03 R71), the mesh and stack ports (01 R26, R27), and what a channel does with a request (09 R222–R231,
R247–R252). -/

namespace Sys2Proof.Machine

/-- Change the walk that is on its way for a page. -/
def Tile.setWalk (x : Tile) (page : Nat) (f : Walk → Option Walk) : Tile :=
  { x with walks := x.walks.filterMap fun v => if v.page == page && v.failed.isNone then f v else some v }

/-- The lines that a walk is made for by a pfl. -/
def Walk.lines (w : Walk) : List (StrandId × Word) := w.who.filterMap fun u => match u with | .line h va => some (h, va) | _ => none

/-- A walk fails: what needs it meets the failure, but a pfl, which is dropped; one that nothing needs any more is forgotten (03 R71, 08 R208). -/
def State.failWalk (s : State) (t : TileId) (w : Walk) (code check : Nat) (leaf : Option TlbEntry) : State :=
  let who := w.who.filter fun u => match u with | .line .. => false | _ => true
  s.updTile t fun x => x.setWalk w.page fun v =>
    if who.isEmpty then none else some { v with who := who, wait := none, failed := some (code, check), leaf := leaf }

/-- A walk ends with its entry: the TLB takes it, and the requests of pfl that waited for it are made (03 R71, 08 R208). -/
def State.endWalk (s : State) (t : TileId) (w : Walk) (e : TlbEntry) : State :=
  let (f, s) := s.takeFree
  let s := s.updTile t fun x => (x.setWalk w.page fun _ => none).fillTlb e (Config.victimEntry 256 f)
  w.lines.foldl (fun s l => s.prefetchLine ⟨t, l.1⟩ l.2) s

/-- PAGE_WALK_READ: walk `k` of a tile asks for its next entry, a narrow request as any other (09 R223); when the answer has come it goes on,
fills the TLB or fails (03 R71; 09 R248, Table 09-3). -/
def execPageWalkRead (t : TileId) (k : Nat) (s : State) : Out :=
  let x := s.tile t
  .next (match x.walks[k]? with
    | none => s
    | some w =>
      if w.failed.isSome then s
      else match w.wait with
        | none =>
          let a := w.table + pteOffset w.level w.page
          let (tag, s) := s.ask t 0 .walk 0 a false (.read a 8)
          s.updTile t fun x => x.setWalk w.page fun v => some { v with wait := some tag }
        | some tag =>
          match x.takeAnswer tag with
          | none => s
          | some (m, y) =>
            let s := s.setTile t y
            match m.body with
            | .fail f => s.failWalk t w f.code f.check none
            | b => match walkOn s x.quire.toNat w.page w.level (leNat (bodyBytes b)) with
              | .next b => s.updTile t fun x => x.setWalk w.page fun v => some { v with level := v.level + 1, table := b, wait := none }
              | .fail c i l => s.failWalk t w c i l
              | .done e => s.endWalk t w e)

/-- Take the first packet of a class between two ports (01 R26). -/
def firstPacket (mesh : List MPacket) (c : MeshClass) (src dst : MeshPort) : Option MPacket :=
  mesh.find? fun p => p.cls == c && p.src == src && p.dst == dst

/-- The router of a tile holds four packets of a class that the tile has not taken: it withholds its acknowledge of further ones (01 R16). -/
def State.backedUp (s : State) (c : MeshClass) (dst : MeshPort) : Bool :=
  match dst with
  | .tile t => decide (4 ≤ ((s.tile t).inbox.filter fun q => q.cls == c).length)
  | _ => false

/-- MESH_PACKET_DELIVER: the oldest packet of a class between two ports arrives at the end of its route (`route`; 01 R25, R26, R27), unless the
router there holds four of its class for a tile (R16). What its tile can use at once it takes; the rest waits in the router's buffer. -/
def execMeshPacketDeliver (c : MeshClass) (src dst : MeshPort) (s : State) : Out :=
  .next (match firstPacket s.mesh c src dst with
    | none => s
    | some p =>
      if s.backedUp c dst then s else
      let s := { s with mesh := s.mesh.erase p }
      match dst, p.body with
      | .tile t, .credit m => s.creditBack t m
      | .tile t, _ => s.updTile t fun x => x.answer p.tag p
      | .stack m, _ => s.setStack m.val { s.stackOf m.val with ingress := (s.stackOf m.val).ingress ++ [p] }
      | .xd _, _ => s)

/-- The local address that a request is for. -/
def Body.addr : Body → Nat
  | .fill line _ => line * 256
  | .read a _ => a
  | .write a _ _ => a
  | .atomic a .. => a
  | _ => 0

/-- The channel takes new requests through the hold queue (09 R236–R238). -/
def Chan.quiet (c : Chan) : Bool := c.retrain ≠ .running

/-- Stack `m` can move no request for channel `c` into its Tailband: its hold queue is full, which stops the port for every channel (09 R238),
or the queue of the channel is, which backs requests up under the credits (09 R234; its size is log 101). -/
def State.portFull (s : State) (m c : Nat) : Bool :=
  decide (256 ≤ (s.stackOf m).held.length) || (!(s.chan c).quiet && decide (Config.channelQueue < (s.chan c).queue.length))

/-- A request enters the Tailband that holds its address: the queue of its channel, or the hold queue while that is quiet (09 R238). -/
def State.enterTailband (s : State) (p : MPacket) : State :=
  let c := s.channelOf p.body.addr
  let ch := s.chan c
  if ch.quiet then s.setStack (c / 32) { s.stackOf (c / 32) with held := (s.stackOf (c / 32)).held ++ [(c, p)] }
  else s.setChan c { ch with queue := ch.queue ++ [p] }

/-- STACK_PORT_ACCEPT: the oldest request of the ingress buffer goes to its channel's queue, or to the hold queue, and its
credit returns (01 R27, 09 R238). A request whose granule has moved goes on to its new place (R242). -/
def execStackPortAccept (m : StackId) (s : State) : Out :=
  let st := s.stackOf m.val
  .next (match st.ingress with
    | [] => s
    | p :: rest =>
      let c := s.channelOf p.body.addr
      if s.portFull m.val c || s.portFull (c / 32) c then s
      else
        let s := (s.setStack m.val { st with ingress := rest }).enterTailband p
        { s with mesh := s.mesh ++ [{ p with cls := .response, src := .stack m, dst := p.src, body := .credit m }] })

/-- The 32 B units that a request reads or writes (09 R222, R223). -/
def unitsOf (a n : Nat) : List Nat :=
  if n = 0 then [] else (List.range ((a + n - 1) / 32 - a / 32 + 1)).map (a / 32 + ·)

def Body.units : Body → List Nat
  | .fill line secs => secs.flatMap fun i => [line * 8 + 2 * i, line * 8 + 2 * i + 1]
  | .read a n => unitsOf a n
  | .write a m bs => unitsOf a (if bs.length = 64 then 64 else bs.length) |>.filter fun u =>
      (List.range bs.length).any fun i => m.getLsbD i && (a + i) / 32 == u
  | .atomic a c _ _ => if 9 ≤ c / 16 then unitsOf a 64 else unitsOf a (widthOf (c % 16) / 8)
  | _ => []

/-- Unit `u` is written whole by a write (09 R223). -/
def wholeUnit (a : Nat) (m : BitVec 64) (n u : Nat) : Bool :=
  (List.range 32).all fun j =>
    let b := 32 * u + j
    decide (a ≤ b) && decide (b < a + n) && m.getLsbD (b - a)

/-- Units read and written, each of 32 tokens (09 R223, R225). -/
def Body.accesses (b : Body) : Nat :=
  match b with
  | .write a m bs => (b.units.map fun u => if wholeUnit a m bs.length u then 1 else 2).sum
  | .atomic .. => 2 * b.units.length
  | _ => b.units.length

/-- The request reads unit `u`: any it names, but one that it writes whole (09 R223, R228). -/
def Body.unitRead (b : Body) (u : Nat) : Bool :=
  b.units.contains u && match b with
    | .write a m bs => !wholeUnit a m bs.length u
    | _ => true

/-- A narrow request (09 R223): all but fills and the write of a whole sector. -/
def Body.narrow : Body → Bool
  | .fill .. => false
  | .write _ m bs => m ≠ BitVec.allOnes 64 || bs.length ≠ 64
  | _ => true

def amoMode : FMode := { rm := 0, sat := false, ftz := false }

/-- The new element and the old value of a memory-side operation on an element (09 R249–R252). -/
def amoElement (op fmt old operand compare : Nat) : Nat :=
  let w := widthOf fmt
  let a := old % 2 ^ w
  let b := operand % 2 ^ w
  match op, ffmtOf fmt with
  | 1, some F => (F.addOp amoMode a b).1
  | 2, some F => (F.minmaxOp amoMode false a b).1
  | 3, some F => (F.minmaxOp amoMode true a b).1
  | 0, _ => b
  | 1, _ => (a + b) % 2 ^ w
  | 2, _ => if signedOf w a < signedOf w b then a else b
  | 3, _ => if signedOf w a < signedOf w b then b else a
  | 4, _ => min a b
  | 5, _ => max a b
  | 6, _ => a &&& b
  | 7, _ => a ||| b
  | 8, _ => if a = compare % 2 ^ w then b else a
  | _, _ => a

/-- A memory-side operation on the bytes of its target: the new bytes, and what the requester receives (09 R249–R252; 05 R138). -/
def amoApply (code : Nat) (old : List Byte) (operand compare : Word) : List Byte × List Byte :=
  let op := code / 16
  let fmt := code % 16
  if op < 9 then (leBytes (widthOf fmt / 8) (amoElement op fmt (leNat old) operand.toNat compare.toNat), old)
  else
    let x := Exact.ofNat 480 (leNat old)
    match ffmtOf fmt with
    | none => (old, leBytes 8 0)
    | some F =>
      if op = 9 then (leBytes 64 ((x.add 480 (-149) (F.decode (operand.toNat % 2 ^ widthOf fmt))).toNat 480), leBytes 8 0)
      else
        let md : FMode := { rm := bitsOf operand.toNat 0 3, sat := operand.getLsbD 3, ftz := operand.getLsbD 4 }
        ((if op = 11 then leBytes 64 0 else old), leBytes 8 (x.out F md (-149)).1.1)

/-- Bytes that an operation's target has. -/
def amoTarget (code : Nat) : Nat := if 9 ≤ code / 16 then 64 else widthOf (code % 16) / 8

/-- Write the masked bytes. -/
def State.writeMasked (s : State) (a : Nat) (m : BitVec 64) (bs : List Byte) : State :=
  if m = BitVec.allOnes 64 then s.writeBytes a bs else bs.zipIdx.foldl (fun s (b, i) => if m.getLsbD i then s.writeBytes (a + i) [b] else s) s

/-- Perform a request that is not refused. -/
def State.performBody (s : State) (b : Body) : Body × State :=
  match b with
  | .fill line secs => (.data (secs.map fun i => (i, s.bytes (256 * line + 64 * i) 64)), s)
  | .read a n => (.data [(0, s.bytes a n)], s)
  | .write a m bs => (.done, s.writeMasked a m bs)
  | .atomic a code operand compare =>
    let (new, got) := amoApply code (s.bytes a (amoTarget code)) operand compare
    (.data [(0, got)], s.writeBytes a new)
  | b => (b, s)

/-- An error arises in a unit (09 R228). -/
def State.strike (s : State) (u : Nat) (e : Ecc) : State := { s with mem := { s.mem with errs := Sparse.set .ok s.mem.errs u e } }

/-- Units that are read: each error in them is met, and one that the code corrects is written back (09 R229, R230). True when one of them cannot
be corrected. -/
def State.meet (s : State) (p : Nat → Bool) : Bool × State :=
  let es := s.mem.errs.filter fun e => p e.1
  (es.any fun e => e.2 == .bad,
   es.foldl (fun s e => if e.2 = .bad then s.noteEcc (32 * e.1) .bad else (s.strike e.1 .ok).noteEcc (32 * e.1) e.2) s)

/-- Check and perform a request at the memory: its answer (09 R224, R229–R231, R248, R251). -/
def State.perform (s : State) (q : Nat) (isSeal copy : Bool) (b : Body) : Body × State :=
  match s.refuses q isSeal copy b.addr with
  | some f => (.fail f, s)
  | none =>
    match s.meet b.unitRead with
    | (true, s) => (.fail { code := cMemory, check := 0 }, s)
    | (false, s) => s.performBody b

def Stack.regulator (st : Stack) (q : Nat) : Regulator := Sparse.get Regulator.reset st.regs q

/-- The requests of a queue, with their places, that no older request of the queue to one of their units stands before (09 R224). -/
def ready (q : List MPacket) : List (Nat × MPacket) :=
  q.zipIdx.filterMap fun (p, i) =>
    if (q.take i).any fun o => o.body.units.any p.body.units.contains then none else some (i, p)

/-- What a channel may take now: held requests are performed in their order before any that came later (09 Table 09-5), and a region that is being
rewritten holds its requests (R247). -/
def State.offered (s : State) (c : Nat) : List (Nat × MPacket) :=
  let ch := s.chan c
  (ready ch.queue).filter fun e => (decide (ch.held = 0) || decide (e.1 ≤ ch.older)) && (s.region (e.2.body.addr / 2 ^ 21)).state ≠ .rotating

/-- The request that a channel takes at a command opportunity, with its place in the queue (09 R226, NP_CTL): the oldest with tokens, else the
oldest whose regulator does not cap; a reserved slot is offered first to narrow requests within this order. -/
def State.choose (s : State) (c : Nat) : Option (Nat × MPacket) :=
  let st := s.stackOf (c / 32)
  let all := s.offered c
  let pick (p : MPacket → Bool) : Option (Nat × MPacket) :=
    match (if (s.chan c).slot % 16 < st.nshare then all.find? fun e => p e.2 && e.2.body.narrow else none) with
    | some e => some e
    | none => all.find? fun e => p e.2
  match pick fun p => decide (32 ≤ (st.regulator p.quire).tokens) with
  | some e => some e
  | none => pick fun p => !(st.regulator p.quire).cap

/-- Take the request at a place out of a channel's queue. -/
def Chan.take (ch : Chan) (i : Nat) : Chan :=
  let ch := { ch with queue := ch.queue.eraseIdx i }
  if i < ch.older then { ch with older := ch.older - 1 } else { ch with held := ch.held - 1 }

/-- Charge a request to its quire's regulator (09 R225). -/
def Stack.charge (st : Stack) (q n : Nat) : Stack :=
  let r := st.regulator q
  { st with regs := Sparse.set Regulator.reset st.regs q { r with tokens := r.tokens - 32 * n, units := r.units + word n } }

/-- The device's own work reads or writes each of the 8 units of `n` granules from granule `g` on `k` times, under REG16 of the stacks that
hold them (09 R225; log 20). -/
def State.chargeOwn (s : State) (g n k : Nat) : State :=
  (List.range 20).foldl (fun t m => t.setStack m ((t.stackOf m).charge 16
    (8 * k * ((List.range n).filter fun i => s.channelOf (256 * (g + i)) / 32 == m).length))) s

/-- A restripe moves the `n` granules from granule `w` on: each that changes its channel is read, unless that channel is dead, and written
(09 R225, R241, R245). -/
def State.chargeMove (s : State) (w n : Nat) : State :=
  let t : State := { s with mem := { s.mem with wm := w + n } }
  let moved := ((List.range n).map fun i => (s.channelOf (256 * (w + i)), t.channelOf (256 * (w + i)))).filter fun p => p.1 ≠ p.2
  (List.range 20).foldl (fun u m => u.setStack m ((u.stackOf m).charge 16
    (8 * ((moved.filter fun p => p.1 / 32 == m && (s.chan p.1).state ≠ .dead).length + (moved.filter fun p => p.2 / 32 == m).length)))) s

/-- The rate at which a regulator gains tokens: that of its register, and for REG16 that of the engines at work: a restripe at RESTRIPE.share,
a fill at 32, a key sweep at 1 (09 Table 09-9; 13 R332, R342; log 20). -/
def State.regRate (s : State) (m q : Nat) : Nat :=
  let own := (if s.mem.restripe = .running then [s.mem.share] else []) ++
    (if s.quires.any fun e => e.2.use == .scrubbing then [32] else []) ++ (if s.quires.any fun e => e.2.sweep.isSome then [1] else [])
  if q = 16 ∧ own ≠ [] then own.foldl max 0 else ((s.stackOf m).regulator q).rate

/-- A request's units are read and written under its quire's regulator (09 R225; 13 Table 13-7, 14 R354). -/
def State.chargeBody (s : State) (m q : Nat) (b : Body) : State :=
  ((s.setStack m ((s.stackOf m).charge q b.accesses)).count q 4 b.accesses).payEnergy q (512 * b.accesses)

/-- The channel performs request `p` at place `i` of its queue: charged unless it is refused, and answered. A request whose granule has moved
since goes on to its new place instead (09 R242). -/
def State.serve (s : State) (c i : Nat) (p : MPacket) : State :=
  let m := stackOfChan c
  let d := s.channelOf p.body.addr
  if d ≠ c && s.portFull (d / 32) d then s else
  let s := s.setChan c ((s.chan c).take i)
  if d ≠ c then s.enterTailband p else
  let s := if (s.refuses p.quire p.isSeal p.copy p.body.addr).isNone then s.chargeBody m.val p.quire p.body else s
  let (b, s) := s.perform p.quire p.isSeal p.copy p.body
  { s with mesh := s.mesh ++ [{ p with cls := .response, src := .stack m, dst := p.src, body := b }] }

/-- MEMORY_REQUEST: one command opportunity of a channel (09 R224, R226, R234): at throttle level k the first k of every 8 issue;
nothing is served while the channel is quiet or before the memory range is open (01 R29). Before it an error `e` may arise in unit
`u` of the memory (R228). -/
def execMemoryRequest (c : ChannelId) (u : Nat) (e : Ecc) (s : State) : Out :=
  let s := if e = .ok then s else s.strike u e
  let ch := s.chan c.val
  let st := s.stackOf (c.val / 32)
  if !s.mem.isOpen || ch.quiet then .next s
  else
    let t := s.setChan c.val { ch with slot := ch.slot + 1 }
    .next (if st.level ≤ ch.slot % 8 then t
      else match s.choose c.val with
        | none => t
        | some (i, p) => t.serve c.val i p)

/-- The granules that [a, a + n) meets. -/
def granulesOf (a n : Nat) : List Nat := if n = 0 then [] else (List.range ((a + n - 1) / 256 - a / 256 + 1)).map (a / 256 + ·)

/-- A request of an exchange die to [a, a + n) waits: a stack there is stopped, a channel is quiet, or a region is being rewritten (09 R234, R238,
R247). -/
def State.spanWaits (s : State) (a n : Nat) : Bool :=
  !s.mem.isOpen || (granulesOf a n).any fun g =>
    let c := s.channelOf (256 * g)
    (s.stackOf (c / 32)).stopped || (s.chan c).quiet || (s.region (256 * g / 2 ^ 21)).state == .rotating

/-- The first refusal among the granules of [a, a + n) (09 R245, R248). -/
def State.spanRefused (s : State) (q : Nat) (isSeal copy : Bool) (a n : Nat) : Option Fail :=
  (granulesOf a n).findSome? fun g => s.refuses q isSeal copy (256 * g)

/-- Each unit of [a, a + n) is read or written `k` times for a quire (09 R225; 13 Table 13-7, 14 R354). -/
def State.chargeSpan (s : State) (q a n k : Nat) : State :=
  let us := unitsOf a n
  let s := (List.range 20).foldl (fun t m => t.setStack m ((t.stackOf m).charge q
    (k * (us.filter fun u => s.channelOf (32 * u) / 32 == m).length))) s
  (s.count q 4 (k * us.length)).payEnergy q (512 * k * us.length)

/-- An exchange die reads [a, a + n) for a quire: the bytes, or why there are none (09 R225, R229–R231, R248). -/
def State.readSpan (s : State) (q : Nat) (isSeal copy : Bool) (a n : Nat) : Except Fail (List Byte) × State :=
  match s.spanRefused q isSeal copy a n with
  | some f => (.error f, s)
  | none =>
    match (s.chargeSpan q a n 1).meet ((unitsOf a n).contains ·) with
    | (true, s) => (.error { code := cMemory, check := 0 }, s)
    | (false, s) => (.ok (s.bytes a n), s)

/-- An exchange die writes [a, a + n) for a quire; a unit that it covers in part is read first (09 R223, R225, R230, R248). -/
def State.writeSpan (s : State) (q : Nat) (isSeal copy : Bool) (a : Nat) (bs : List Byte) : Option Fail × State :=
  match s.spanRefused q isSeal copy a bs.length with
  | some f => (some f, s)
  | none =>
    match (s.chargeSpan q a bs.length 1).meet fun u => (unitsOf a bs.length).contains u && !unitIn a bs.length u with
    | (true, s) => (some { code := cMemory, check := 0 }, s)
    | (false, s) => (none, s.writeBytes a bs)

/-- REGULATOR_REFILL: `ns` nanoseconds of tokens for a regulator, up to its depth (09 R225): rate × 10 bytes a nanosecond. -/
def execRegulatorRefill (m : StackId) (q : Fin 17) (ns : Nat) (s : State) : Out :=
  let st := s.stackOf m.val
  let r := st.regulator q.val
  let r := { r with tokens := min (r.tokens + 10 * s.regRate m.val q.val * ns) (1024 * r.depth) }
  .next (s.setStack m.val { st with regs := Sparse.set Regulator.reset st.regs q.val r })

end Sys2Proof.Machine
end

