-- ==== Sys2Proof/Machine/Channels.lean ====
section
/-! DEFINITION. What channels and stacks do on their own: refresh, temperature and throttle (09 R233–R235), retraining
(R236–R239), phase tracking (15 R379), patrol scrub (R232), restripe (R240–R246) and dead channels (R245). -/

namespace Sys2Proof.Machine

/-- HBM_REFRESH: per-bank refresh; it goes on whatever the throttle level and changes no state that software sees (09 R217, R234). -/
def execHbmRefresh (c : ChannelId) (s : State) : Out :=
  .next s

/-- Temperature, in quarters of a degree, at which a level is entered (09 Table 09-4). -/
def levelTemp (thr level : Nat) : Nat := if level = 0 then 4 * 105 else 4 * (thr + 7 - level)

/-- The level that a temperature enters. -/
def levelEntered (thr temp : Nat) : Nat :=
  ((List.range 8).find? fun l => decide (levelTemp thr l ≤ temp)).getD 8

/-- Levels are left upward, each only at its temperature less 2 °C (09 R233). -/
def levelLeft (thr temp : Nat) : Nat → Nat → Nat
  | 0, l => l
  | n + 1, l => if l < 8 ∧ temp + 8 ≤ levelTemp thr l then levelLeft thr temp n (l + 1) else l

def nextLevel (thr temp level : Nat) : Nat := levelLeft thr temp 8 (min level (levelEntered thr temp))

/-- A stack is stopped: it performs nothing, so work on a whole region, which lies on every stack, waits (09 R234, 13 Table 13-6). -/
def State.anyStopped (s : State) : Bool := (List.range 20).any fun m => (s.stackOf m).stopped

/-- A running restripe pauses while any stack is stopped (09 R246). -/
def State.pauseRestripe (s : State) : State :=
  let stop := s.anyStopped
  let r := match s.mem.restripe with
    | .running => if stop then RestripeState.paused else .running
    | .paused => if stop then RestripeState.paused else .running
    | r => r
  { s with mem := { s.mem with restripe := r } }

/-- The live channels of a stack whose temperature has changed by more than dtemp since they were trained are due (09 R236). -/
def State.driftDue (s : State) (m : Nat) : State :=
  let st := s.stackOf m
  (List.range 32).foldl (fun s i =>
    let ch := s.chan (32 * m + i)
    if ch.state = .live ∧ 4 * st.dtemp < max ch.tempAt st.temp - min ch.tempAt st.temp then s.setChan (32 * m + i) { ch with due := true }
    else s) s

/-- STACK_TEMP_READ: the hottest core-die reading, in quarters of a degree (09 R233, R234, R236). -/
def execStackTempRead (m : StackId) (temp : BitVec 10) (s : State) : Out :=
  let st := s.stackOf m.val
  let l := nextLevel st.thr temp.toNat st.level
  let st := { st with temp := temp.toNat, level := l, stopped := decide (l = 0), stopms := if l = 0 then st.stopms else 0 }
  .next ((s.setStack m.val st).pauseRestripe.driftDue m.val).watchRisk

/-- PATROL_SCRUB: unit `u`, counted in local addresses of 32 bytes, in which an error `e` may have arisen, is read (09 R229, R230, R232, R246). -/
def execPatrolScrub (m : StackId) (u : Nat) (e : Ecc) (s : State) : Out :=
  let st := s.stackOf m.val
  let a := 32 * u
  .next (if !st.patrolEn || st.stopped || s.memTop ≤ a || s.channelOf a / 32 ≠ m.val then s
    else
      let s := s.setStack m.val { st with patrolAt := u, passes := if u < st.patrolAt then (st.passes + 1) % 65536 else st.passes }
      let s := s.setStack m.val ((s.stackOf m.val).charge 16 1)
      ((if e = .ok then s else s.strike u e).meet (· == u)).2)

/-- Channels that retrain now. -/
def State.retraining (s : State) (l : List Nat) : Nat := (l.filter fun c => (s.chan c).quiet).length

/-- RETRAIN_START: the channel is due, `ms` milliseconds after its last training, and the Spine grants it (09 R236, R237). -/
def execRetrainStart (c : ChannelId) (ms : Nat) (s : State) : Out :=
  let ch := s.chan c.val
  let m := c.val / 32
  let st := s.stackOf m
  .next (if (!ch.due && decide (ms < st.period)) || ch.state ≠ .live || ch.quiet || st.level = 0 || st.stopped ||
      s.retraining ((List.range 32).map (32 * m + ·)) ≥ 1 || s.retraining (List.range 640) ≥ 8 then s
    else s.setChan c.val { ch with state := .retraining, retrain := .quiescing })

/-- RETRAIN_QUIESCE_DONE (09 Table 09-5). -/
def execRetrainQuiesceDone (c : ChannelId) (s : State) : Out :=
  let ch := s.chan c.val
  .next (if ch.retrain = .quiescing then s.setChan c.val { ch with retrain := .training } else s)

/-- RETRAIN_TRAIN_DONE: the margins are met, or the previous settings come back (09 R239; 16 R383, R385). -/
def execRetrainTrainDone (c : ChannelId) (ok : Bool) (s : State) : Out :=
  let ch := s.chan c.val
  .next (if ch.retrain ≠ .training then s
    else if ok then s.setChan c.val { ch with retrain := .resuming, retrains := (ch.retrains + 1) % 65536, fails := 0 }
    else
      let s := s.setChan c.val { ch with retrain := .resuming, fails := satAdd 8 ch.fails 1 }
      let s := (s.alarm .retrainFailed c.val).risk 8
      s.watchRisk)

/-- RETRAIN_RESUME_DONE: held requests are performed in their order before any that arrives later (09 Table 09-5); a channel that has failed twice
becomes a candidate for map-out (16 R385). -/
def execRetrainResumeDone (c : ChannelId) (s : State) : Out :=
  let ch := s.chan c.val
  let m := c.val / 32
  let st := s.stackOf m
  .next (if ch.retrain ≠ .resuming then s
    else
      let mine := (st.held.filter (·.1 == c.val)).map (·.2)
      let s := s.setStack m { st with held := st.held.filter (·.1 ≠ c.val) }
      let s := s.setChan c.val { ch with
        state := if ch.state = .retraining then .live else ch.state, retrain := .running
        queue := ch.queue ++ mine
        older := if ch.held = 0 then ch.queue.length else ch.older, held := ch.held + mine.length, corrAt := ch.corr, tempAt := st.temp, due := false }
      if 2 ≤ ch.fails then s.candidate c.val false else s)

/-- LANE_PHASE_TRACK: the phase of a lane moves one step within ±16; at the end of its range the channel is due (15 R379).
A phase is held in excess of 0 modulo 64. -/
def execLanePhaseTrack (c : ChannelId) (lane : Fin 64) (up : Bool) (s : State) : Out :=
  let ch := s.chan c.val
  let p := signedOf 6 (Sparse.get 0 ch.phases lane.val)
  let q := clampInt (-16) 16 (if up then p + 1 else p - 1)
  .next (s.setChan c.val { ch with phases := Sparse.set 0 ch.phases lane.val (unsignedOf 6 q),
                                   due := ch.due || decide (q.natAbs = 16) })

/-- RESTRIPE_START: the regions that will vanish have become free (09 R244). -/
def execRestripeStart (s : State) : Out :=
  .next (if s.mem.restripe = .waiting then s.tryRestripe s.mem.target else s.nextRestripe)

/-- A restripe is finished (09 R241, R244). -/
def State.endRestripe (s : State) : State :=
  let c := s.mem.target
  let ch := s.chan c
  let s := if ch.state = .dead then s else s.setChan c { ch with state := .mappedOut }
  let n := s.mem.n - 1
  { s with mem := { s.mem with n := n, ctop := capacity n, restripe := .idle } }.nextRestripe.watchRisk

/-- Write zeros to a range, which is then dirty (09 R245, 16 R396); a unit that is written whole gets a new code (09 R228). -/
def State.zeroBytes (s : State) (a n : Nat) : State :=
  { s with mem := { s.mem with
      bytes := Sparse.clear s.mem.bytes a n
      errs := s.mem.errs.filter fun e => !unitIn a n e.1
      dirty := if n = 0 then s.mem.dirty
        else Sparse.set false (Sparse.set false s.mem.dirty (a / 2 ^ 21) true) ((a + n - 1) / 2 ^ 21) true } }
def State.zeroRegion (s : State) (i : Nat) : State := s.zeroBytes (2 ^ 21 * i) (2 ^ 21)

/-- RESTRIPE_BATCH: 4,096 granules move and the watermark passes them (09 R241–R246). What the system code finds in the units that move is met;
those that it cannot correct are written as zeros, as are the granules of a dead channel. -/
def execRestripeBatch (s : State) : Out :=
  .next (if s.mem.restripe ≠ .running then s
    else
      let top := capacity (s.mem.n - 1) * 2 ^ 22
      let w := s.mem.wm
      let w' := min top (w + 4096)
      let dead := (s.chan s.mem.target).state == .dead
      let s := if dead then
          ((List.range (w' - w)).map (w + ·)).foldl (fun s g =>
            if s.channelOf (256 * g) = s.mem.target then s.zeroBytes (256 * g) 256 else s) s
        else s
      let here (u : Nat) : Bool := decide (8 * w ≤ u) && decide (u < 8 * w')
      let bad := s.mem.errs.filter fun e => here e.1 && e.2 == .bad
      let s := bad.foldl (fun s e => s.zeroBytes (32 * e.1) 32) (s.meet here).2
      let s : State := s.chargeMove w (w' - w)
      let s := { s with mem := { s.mem with wm := w' } }
      if w' = top then s.endRestripe else s)

/-- CHANNEL_DEAD: every assigned region is lost, the log ring is zero-filled and its records counted as lost, and a
restripe starts at once, ahead of every candidate (09 R245, 16 R385). -/
def execChannelDead (c : ChannelId) (s : State) : Out :=
  let ch := s.chan c.val
  .next (if ch.state = .dead || ch.state = .mappedOut || ch.state = .untrained then s
    else
      let s := (s.setChan c.val { ch with state := .dead }).alarm .channelDead c.val
      let s := s.mem.regions.foldl (fun s e =>
        if e.2.state = .assigned || e.2.state = .rotating then s.loseRegion e.1
        else if e.2.state = .held then s.zeroBytes (e.1 * 2 ^ 21) (2 ^ 21)
        else s) s
      let s := { s with logLost := s.logLost + s.logRing.length, logRing := [] }
      s.candidate c.val true)

end Sys2Proof.Machine
end

