-- ==== Sys2Proof/Machine/System.lean ====
section
/-! DEFINITION. Exception return, status and event instructions (03 Table 03-12), and what a strand takes at a boundary
(03 R79). -/

namespace Sys2Proof.Machine

/-- The checks of a frame read, part by part (03 R84). -/
def State.checkFrame (s : State) (a : At) : List (Word × Nat) → List (Word × Nat × Xlate) → Paths
  | [], acc => .ok acc.reverse
  | (v, n) :: rest, acc =>
    match s.check a.t (s.auth a) .load v.toNat n false with
    | .fail c k w => .fail c k w v
    | .walk p => .walk p
    | .ok l => s.checkFrame a rest ((v, n, l) :: acc)

/-- The frame [XSP, XSP + 128), cut at 64 B boundaries. -/
def framePieces (xsp : Word) : List (Word × Nat) :=
  let k := 64 - xsp.toNat % 64
  if k = 64 then [(xsp, 64), (xsp + 64, 64)] else [(xsp, k), (xsp + word k, 64), (xsp + word (k + 64), 64 - k)]

/-- xret (03 R84, R87). It writes the registers of the frame and so waits for their scoreboard bits (02 R34); the strand is held until the
frame is read. -/
def execXret (a : At) (f : RF) (s : State) : Out :=
  sysCtl a [f.rd, f.rs1, f.rs2] frameRegs (fun s =>
    let r := s.strand a
    if r.status.bs then
      if r.sb.any (fun e => e.backstop && overlaps e.addr e.bytes.length (backstopFrame a.h) 128) then .wait
      else .go (s.leaveBackstop a)
    else if r.readback then .wait
    else match r.frames with
      | [] => .fault cGate 0 0 0
      | fr :: _ =>
        if !fr.exc || r.status.gdepth = 0 then .fault cGate 0 0 0
        else match s.checkFrame a (framePieces r.xsp) [] with
          | .walk p => .later (s.startWalk a.t p)
          | .fail c k w v => .fault c k w v
          | .ok ps =>
            .go ((s.updStrand a fun r => { r with hold := some .load }).startLoad a .frame 0 128 false (bigParts ps))) s

/-- rdstat. -/
def execRdstat (a : At) (f : RF) (s : State) : Out :=
  sysOp a [f.rs1, f.rs2] [f.rd] (fun s => result s a f.rd (s.strand a).status.word) s

/-- wrstat (03 Table 03-8): hush is ignored while bs = 1; setting precise waits for the strand's vector instructions (R85). -/
def execWrstat (a : At) (f : RF) (s : State) : Out :=
  sysOp a [f.rd, f.rs2] [f.rs1] (fun s =>
    let r := s.strand a
    let v := r.g f.rs1
    if v.getLsbD 1 && ((s.tile a.t).aq ++ (s.tile a.t).mq).any (·.h == a.h) then .wait
    else .done (s.setStrand a { r with status := { r.status with
      hush := if r.status.bs then r.status.hush else v.getLsbD 0
      precise := v.getLsbD 1
      aten := v.extractLsb' 11 5 } })) s

/-- rdcause. -/
def execRdcause (a : At) (f : RF) (s : State) : Out :=
  sysOp a [f.rs1, f.rs2] [f.rd] (fun s => result s a f.rd (s.strand a).cause) s
/-- rdfault. -/
def execRdfault (a : At) (f : RF) (s : State) : Out :=
  sysOp a [f.rs1, f.rs2] [f.rd] (fun s => result s a f.rd (s.strand a).faultaddr) s
/-- rdxsp. -/
def execRdxsp (a : At) (f : RF) (s : State) : Out :=
  sysOp a [f.rs1, f.rs2] [f.rd] (fun s => result s a f.rd (s.strand a).xsp) s

/-- hushset. -/
def execHushset (a : At) (f : RF) (s : State) : Out :=
  sysOp a [f.rs1, f.rs2] [f.rd] (fun s =>
    .done (s.updStrand a fun r =>
      ({ r with status := { r.status with hush := true } }).setG f.rd (flag r.status.hush))) s
/-- hushclr; without effect while bs = 1 (03 Table 03-8). -/
def execHushclr (a : At) (f : RF) (s : State) : Out :=
  sysOp a [f.rd, f.rs1, f.rs2] [] (fun s =>
    .done (s.updStrand a fun r => { r with status := { r.status with hush := r.status.bs && r.status.hush } })) s

/-- rdevt. -/
def execRdevt (a : At) (f : RF) (s : State) : Out :=
  sysOp a [f.rs1, f.rs2] [f.rd] (fun s => result s a f.rd ((s.strand a).evtPend.setWidth 64)) s

/-- Clear pending lines; with line 4 its first failure is forgotten (03 R78, Table 03-11). -/
def Strand.clearEvents (r : Strand) (lines : BitVec 32) : Strand :=
  { r with evtPend := r.evtPend &&& ~~~ lines, line4 := if lines.getLsbD 4 then none else r.line4 }

/-- evclr. -/
def execEvclr (a : At) (f : RF) (s : State) : Out :=
  sysOp a [f.rd, f.rs2] [f.rs1] (fun s =>
    .done (s.updStrand a fun r => r.clearEvents ((r.g f.rs1).setWidth 32))) s
/-- wreven. -/
def execWreven (a : At) (f : RF) (s : State) : Out :=
  sysOp a [f.rd, f.rs2] [f.rs1] (fun s =>
    .done (s.updStrand a fun r => { r with evtEn := (r.g f.rs1).setWidth 32 })) s
/-- wrcmp. -/
def execWrcmp (a : At) (f : RF) (s : State) : Out :=
  sysOp a [f.rd, f.rs2] [f.rs1] (fun s =>
    .done (s.updStrand a fun r => { r with cmp := r.g f.rs1 })) s

/-- INTERVAL_COMPARE_MATCH: time has passed until INTERVAL_COUNT is INTERVAL_CMP; line 0 becomes pending (03 Table 03-11). -/
def execIntervalCompareMatch (a : At) (s : State) : Out :=
  let c := (s.strand a).cmp.toNat
  let i := s.island (islandOf a.t)
  .next ((s.setIsland (islandOf a.t) { i with ticks := max i.ticks c }).updStrand a fun r => r.pend 1)

/-- Entry waits for the scoreboard bits of the registers that the frame holds (03 R81). -/
def Strand.frameClear (r : Strand) (failing : List (BitVec 5)) : Bool :=
  frameRegs.all fun g => !r.busy g || failing.contains g

/-- Take the pending imprecise trap (03 R79, R85): the strand's issued vector instructions have completed first. -/
def State.takeTrap (s : State) (a : At) (p : Trap) : State :=
  let r := s.strand a
  if (s.tile a.t).aq.any (·.h == a.h) || !r.frameClear [] || r.readback then s
  else
    let c : Cause := { Cause.sync cTrap 0 0 with imp := true, multi := p.multi, flags := p.flags.toNat }
    (s.updStrand a fun r => { r with trap := none, late := r.late.filter (· ≠ .trap) }).enter a c p.addr r.pc

/-- Take the failed loads (02 R427): the earliest issued decides the cause, none writes its destination. -/
def State.takeFailedLoads (s : State) (a : At) : State :=
  let r := s.strand a
  let bad := r.loads.filter (·.failed)
  if !r.frameClear (bad.map (·.rd)) || r.readback then s
  else match bad with
    | [] => s.updStrand a fun r => { r with late := r.late.filter (· ≠ .load) }
    | l :: rest =>
      match l.parts.find? (·.failed?.isSome) with
      | none => s
      | some p =>
        let (code, check) := p.failed?.getD (0, 0)
        let s := s.updStrand a fun r =>
          bad.foldl (fun r b => r.setBoard b.rd false)
            { r with loads := r.loads.filter (!·.failed), late := r.late.filter (· ≠ .load) }
        s.enter a { Cause.sync code check 0 with imp := true, multi := !rest.isEmpty } p.va r.pc

/-- Take the lowest-numbered enabled pending line (03 R79, R81, Table 03-10). -/
def State.takeEvent (s : State) (a : At) : State :=
  let r := s.strand a
  match (List.range 32).find? (fun i => r.event.getLsbD i) with
  | none => s
  | some i =>
    if !r.frameClear [] || r.readback then s
    else s.enter a { Cause.sync (0x20 + i) 0 0 with async := true } (if i = 4 then r.line4.getD 0 else 0) r.pc

/-- Take what recurs after the backstop handler has returned (03 R87). -/
def State.takeRecur (s : State) (a : At) (c : Cause) (v : Word) : State :=
  if !(s.strand a).entryClear then s
  else (s.updStrand a fun r => { r with recur := none }).enter a c v (s.strand a).pc

/-- EXCEPTION_ENTRY: what the strand takes at this boundary before its next instruction (03 R79, actions 2 and 3); first of all what recurs
from an entry that escalated (R87). A halt comes first, and nothing is taken between a branch and its slot (02 R40) or while the strand is
held: a vector instruction holds it (04 R98), and qfloor until the Spine's report, where the spec does not say whether a halt or an event is
taken, and the model takes neither (log 96). A parked strand is not at a boundary of an instruction: it takes a delayed load fault or a
pending trap, which the spec does not place there, when it runs again (log 96). -/
def execExceptionEntry (a : At) (s : State) : Out :=
  let r := s.strand a
  .next (
    if r.run ≠ .running || r.hold.isSome || !r.atBoundary || r.haltReq then s
    else if let (some (c, v), false) := (r.recur, r.status.bs) then s.takeRecur a c v
    else match r.late with
      | .trap :: _ => match r.trap with
        | some p => s.takeTrap a p
        | none => s
      | .load :: _ => s.takeFailedLoads a
      | [] => if !r.status.hush && !r.status.bs then s.takeEvent a else s)

end Sys2Proof.Machine
end

