-- ==== Sys2Proof/Machine/Group.lean ====
section
/-! DEFINITION. The group table (11 R287–R290, R303, Table 11-1) and the operands of group, collective and transfer
instructions. -/

namespace Sys2Proof.Machine

/-- One bit of CRC-32 with the IEEE 802.3 polynomial, least significant bit first (log 14). -/
def crcBit (c : BitVec 32) : BitVec 32 := if c.getLsbD 0 then (c >>> 1) ^^^ 0xEDB88320 else c >>> 1
def crcByte (c : BitVec 32) (b : Byte) : BitVec 32 := (List.range 8).foldl (fun c _ => crcBit c) (c ^^^ b.setWidth 32)
/-- CRC-32 of bytes. -/
def crc32 (bs : List Byte) : BitVec 32 := (bs.foldl crcByte (BitVec.allOnes 32)) ^^^ BitVec.allOnes 32

def State.group (s : State) (g : Nat) : Option Group := Sparse.get none s.groups g
def State.setGroup (s : State) (g : Nat) (x : Option Group) : State := { s with groups := Sparse.set none s.groups g x }

def Group.lod (g : Group) (d : Nat) : Nat := g.lo.getD d 0
def Group.nd (g : Group) (d : Nat) : Nat := g.n.getD d 1
/-- n_0 × … × n_(d−1); with d = 8 the member count m (11 R287). -/
def Group.scale (g : Group) (d : Nat) : Nat := ((List.range d).map g.nd).foldl (· * ·) 1
def Group.m (g : Group) : Nat := g.scale 8

/-- The rank of a device in a group; none for a device that is no member (11 R287). -/
def State.rankOf (s : State) (g : Group) (dev : Nat) : Option Nat :=
  let off (d : Nat) : Nat := (s.coord dev d + (s.dim d).size - g.lod d) % (s.dim d).size
  if s.dimStride 8 ≤ dev || (List.range 8).any (fun d => decide (g.nd d ≤ off d)) then none
  else some ((List.range 8).map fun d => off d * g.scale d).sum

/-- The device of a rank (11 R287). -/
def State.memberOf (s : State) (g : Group) (r : Nat) : Nat :=
  ((List.range 8).map fun d => (g.lod d + r / g.scale d % g.nd d) % (s.dim d).size * s.dimStride d).sum

def State.membersOf (s : State) (g : Group) : List Nat := (List.range g.m).map (s.memberOf g)

/-- Bytes 0x40 to 0x7F of an entry. -/
def Group.box (g : Group) : List Byte := (List.range 8).flatMap fun d => leBytes 8 (g.lod d + 2 ^ 20 * g.nd d)
/-- The group signature (11 Table 11-1). -/
def Group.gsig (g : Group) : Nat := (crc32 g.box).toNat % 2 ^ 20

/-- The 128 bytes of entry `n` (11 Table 11-1). -/
def State.groupBytes (s : State) (n : Nat) : List Byte :=
  match s.group n with
  | none => List.replicate 64 0 ++ (List.range 8).flatMap fun _ => leBytes 8 (2 ^ 20)
  | some g =>
    leBytes 8 (n + 2 ^ 12 * g.quire + 2 ^ 16) ++ leBytes 8 g.bound ++ leBytes 8 g.nextseq ++
      leBytes 8 (g.m + 2 ^ 21 * (s.rankOf g s.device.toNat).getD 0 + 2 ^ 41 * natOf (decide (4096 < g.m))) ++
      leBytes 24 g.tiles.toNat ++ leBytes 8 g.gsig ++ g.box

/-- Word `i` of bytes. -/
def wordAt (bs : List Byte) (i : Nat) : Nat := leNat ((bs.drop (8 * i)).take 8)

/-- The entry that 128 bytes describe, with its group number; none when a field is out of place (11 R289). -/
def readGroup (bs : List Byte) : Option (Nat × Group) :=
  let w := wordAt bs
  if !bitOf (w 0) 16 || w 0 / 2 ^ 17 ≠ 0 || w 1 / 2 ^ 32 ≠ 0 || w 2 / 2 ^ 32 ≠ 0 || w 3 / 2 ^ 42 ≠ 0 || w 7 / 2 ^ 20 ≠ 0 ||
      (List.range 8).any (fun d => w (8 + d) / 2 ^ 41 ≠ 0) then none
  else some (w 0 % 2 ^ 12,
    { quire := 0, bound := w 1, nextseq := w 2, tiles := BitVec.ofNat 192 (leNat ((bs.drop 32).take 24))
      lo := (List.range 8).map fun d => bitsOf (w (8 + d)) 0 20
      n := (List.range 8).map fun d => bitsOf (w (8 + d)) 20 21 })

/-- The box fits the geometry, this device is a member, and a tile participates (11 R289). -/
def State.groupFits (s : State) (g : Group) : Bool :=
  ((List.range 8).all fun d =>
    let k := (s.dim d).size
    g.nd d ≠ 0 && decide (g.nd d ≤ k) && decide (g.lod d < k) && ((s.dim d).ring || decide (g.lod d + g.nd d ≤ k))) &&
  (s.rankOf g s.device.toNat).isSome && g.tiles ≠ 0

/-- A collective of the group is in flight here (11 R290). -/
def State.inFlight (s : State) (g : Nat) : Bool := s.colls.any (·.group == g)

def Warrant.hasGroup (w : Warrant) (g : Nat) : Bool := decide (w.firstGroup ≤ g) && decide (g < w.firstGroup + w.groupCount)
def Warrant.hasDevice (w : Warrant) (d : Nat) : Bool := decide (w.firstDevice ≤ d) && decide (d < w.firstDevice + w.deviceCount)

def LoadKind.isOperand : LoadKind → Bool
  | .group .. => true
  | .collective .. => true
  | .transfer .. => true
  | _ => false

/-- The strand is held while an operand in memory is read (11, "Instructions"); nothing of it is served before LOAD_REPLY. -/
def State.startOperand (s : State) (a : At) (kind : LoadKind) (n : Nat) (ps : List (Word × Nat × Xlate)) : State :=
  s.updStrand a fun r =>
    { r with hold := some .load, seq := r.seq + 1
             loads := r.loads ++ [{ kind := kind, rd := 0, len := n, seq := r.seq, isSeal := false, parts := bigParts ps }] }

/-- The held instruction leaves: it faults, or completes. -/
def Strand.dropOperand (r : Strand) : Strand := { r with hold := none, loads := r.loads.filter (!·.kind.isOperand) }
def State.operandFault (s : State) (a : At) (code check wreg : Nat) (addr : Word) : State :=
  (s.updStrand a Strand.dropOperand).raiseAt a code check wreg addr
def State.operandDone (s : State) (a : At) : State := s.updStrand a fun r => r.dropOperand.advance 4
def State.operandIllegal (s : State) (a : At) : State := s.operandFault a cIllegal 0 0 (s.strand a).pc

/-- The first byte of [a, a + n) that no visible valid MEM warrant with the right covers, and the fault there (11 R289, R291). -/
def uncovered (x : Tile) (au : Auth) (need : Need) : Nat → Nat → Nat → Option (Nat × Nat × Nat × Nat)
  | 0, a, _ => some (cAccess, 3, 0, a)
  | k + 1, a, n =>
    if n = 0 then none
    else match checkWarrants x au need a 1 with
      | some (.fail c i w) => some (c, i, w, a)
      | some _ => none
      | none =>
        let top := ((authorising x au need a 1).map Warrant.top).foldl max a
        uncovered x au need k top (a + n - top)

/-- A sector of an operand fails a check: faultaddr names the failing byte, for a warrant fault too (11 R289). -/
def State.sectorFault (s : State) (a : At) (need : Need) (code check wreg : Nat) (v : Word) : State :=
  let byte := (uncovered (s.tile a.t) (s.auth a) need 17 v.toNat 64).map fun u => word u.2.2.2
  s.raiseAt a code check wreg (byte.getD v)

/-- cgset (11 R289). -/
def execCgset (a : At) (f : RF) (s : State) : Out :=
  sysOp a [f.rs2] [f.rs1] (fun s =>
    s.needs a f.rd [4] (some 26) fun w =>
      let va := (s.strand a).g f.rs1
      if va.toNat % 64 ≠ 0 then .fault cAlign 0 0 va
      else match s.checkSectors a .load 2 va [] with
        | .walk p => .later (s.startWalk a.t p)
        | .fail c k w v => .later (s.sectorFault a .load c k w v)
        | .ok ps => .go (s.startOperand a (.group f.rd.toNat w) 128 ps)) s

/-- The operand of cgset has come: its entry is installed, refused, or waits for the group's collectives (11 R289, R290). -/
def State.finishGroup (s : State) (a : At) (wreg : Nat) (w : Warrant) (bs : List Byte) : State :=
  match readGroup bs with
  | none => if w.hasGroup (wordAt bs 0 % 2 ^ 12) then s.operandIllegal a else s.operandFault a cWarrant 3 wreg 0
  | some (n, g) =>
    if !w.hasGroup n then s.operandFault a cWarrant 3 wreg 0
    else if !s.groupFits g || !(s.membersOf g).all w.hasDevice then s.operandIllegal a
    else if s.inFlight n then s
    else (s.setGroup n (some { g with quire := (s.tile a.t).quire.toNat })).operandDone a

/-- cgget (11 Table 11-2): the entry is written after the strand's stores, as a vector store is. -/
def execCgget (a : At) (f : RF) (s : State) : Out :=
  sysOp a [] [f.rs1, f.rs2] (fun s =>
    s.needs a f.rd [4] (some 26) fun w =>
      let r := s.strand a
      let va := r.g f.rs1
      let n := (r.g f.rs2).toNat % 2 ^ 12
      if !w.hasGroup n then wfault f.rd 3
      else if va.toNat % 64 ≠ 0 then .fault cAlign 0 0 va
      else match s.checkSectors a .store 2 va [] with
        | .walk p => .later (s.startWalk a.t p)
        | .fail c k w v => .later (s.sectorFault a .store c k w v)
        | .ok ps =>
          if !r.sb.isEmpty || !ps.all (fun p => (s.tile a.t).sectorRoom p.2.2) then .wait
          else
            let bs := s.groupBytes n
            .done ((ps.zipIdx).foldl (fun s (p, i) => (s.putSector a p.1.toNat p.2.2 ((bs.drop (64 * i)).take 64)).getD s) s)) s

/-- cgclr (11 R290). -/
def execCgclr (a : At) (f : RF) (s : State) : Out :=
  sysOp a [f.rs2] [f.rs1] (fun s =>
    s.needs a f.rd [4] (some 26) fun w =>
      let n := ((s.strand a).g f.rs1).toNat % 2 ^ 12
      if !w.hasGroup n then wfault f.rd 3
      else if s.inFlight n then .wait
      else .done (s.setGroup n none)) s

/-- The image of the group table, restricted to the groups of a quire where one is named (11 R303). -/
def State.groupImage (s : State) (q : Option Nat) : List (Nat × Group) :=
  s.groups.filterMap fun e => match e.2 with
    | none => none
    | some g => if q.isNone || q == some g.quire then some (e.1, g) else none

/-- Byte `i` of the saved image (11 R303). -/
def State.imageBytes (s : State) (q : Option Nat) (off n : Nat) : List Byte :=
  (List.range n).map fun i =>
    let b := off + i
    match (s.groupImage q).find? (fun e => e.1 == b / 128) with
    | none => 0
    | some e => (s.groupBytes e.1).getD (b % 128) 0

/-- Install the valid entries of an image for a quire, as cgset would but for its warrant checks (11 R304). -/
def State.installGroups (s : State) (q : Nat) (es : List (Nat × Group)) : State :=
  es.foldl (fun s e => if s.groupFits e.2 then s.setGroup e.1 (some { e.2 with quire := q }) else s) s

/-- The entries of an image of bytes. -/
def imageGroups (m : Sparse Byte) : List (Nat × Group) :=
  ((List.range 4096).filter fun g => m.any fun e => e.1 / 128 == g).filterMap fun g =>
    (readGroup (Sparse.getList 0 m (128 * g) 128)).map fun e => (g, e.2)

end Sys2Proof.Machine
end

