-- ==== Sys2Proof/Machine/Collective.lean ====
section
/-! DEFINITION. Collectives (11 R291–R301): descriptors, the arithmetic of a combine, the fixed order of combination across tiles and
devices, packets, and how a collective ends. -/

namespace Sys2Proof.Machine

def CollOp.mode (d : CollOp) : FMode := { rm := d.rm, sat := d.sat, ftz := d.ftz }
/-- Bytes that `n` elements have in memory. -/
def CollOp.bytes (d : CollOp) (n : Nat) : Nat := ceilDiv (n * widthOf d.fmt) 8
/-- allreduce, reduce, reduce-scatter (11 Table 11-4). -/
def CollOp.combines (d : CollOp) : Bool := decide (1 ≤ d.op) && decide (d.op ≤ 3)
def CollOp.byLeader (d : CollOp) : Bool := decide (4 ≤ d.op)
/-- Nothing but joins is exchanged (11 Table 11-10). -/
def CollOp.joinsOnly (d : CollOp) : Bool := d.op == 0 || (d.count == 0 && d.op ≠ 6)
def CollOp.halfFloat (d : CollOp) : Bool := d.fmt == 6 || d.fmt == 7

/-- Bytes of an element in transit (11 R295, "Exact-sum", "Collective packets"). -/
def CollOp.transit (d : CollOp) : Nat := if d.comb = 8 then 64 else if d.halfFloat then 4 else widthOf d.fmt / 8
/-- Elements of a chunk of 4,096 bytes (11 R296). -/
def CollOp.perChunk (d : CollOp) : Nat := 4096 / max d.transit 1
def CollOp.chunks (d : CollOp) : Nat := ceilDiv d.count d.perChunk

/-- An element of a source in transit form: exact (11 R295, "Exact-sum"; 05 R138). -/
def CollOp.lift (d : CollOp) (v : Nat) : Nat :=
  if d.comb = 8 then match ffmtOf d.fmt with
    | some F => (Exact.zero.add 480 (-149) (F.decode v)).toNat 480
    | none => 0
  else if d.halfFloat then (convert { rm := 0, sat := false, ftz := false } d.fmt 8 v).1
  else v

/-- The element that is written (11 R295): converted once. -/
def CollOp.lower (d : CollOp) (v : Nat) : Nat :=
  if d.comb = 8 then match ffmtOf d.fmt with
    | some F => ((Exact.ofNat 480 v).out F d.mode (-149)).1.1
    | none => 0
  else if d.halfFloat then (convert d.mode 8 d.fmt v).1
  else v

/-- One combine, the left operand first (11 Table 11-5, R294, R295). -/
def CollOp.combine (d : CollOp) (a b : Nat) : Nat :=
  let w := widthOf d.fmt
  match d.comb, ffmtOf (if d.halfFloat then 8 else d.fmt) with
  | 8, _ => ((Exact.ofNat 480 a).join 480 (Exact.ofNat 480 b)).toNat 480
  | 0, some F => (F.addOp d.mode a b).1
  | 1, some F => (F.minmaxOp d.mode false a b).1
  | 2, some F => (F.minmaxOp d.mode true a b).1
  | 0, none => (a + b) % 2 ^ w
  | 1, none => if signedOf w a < signedOf w b then a else b
  | 2, none => if signedOf w a < signedOf w b then b else a
  | 3, _ => min a b
  | 4, _ => max a b
  | 5, _ => a &&& b
  | 6, _ => a ||| b
  | _, _ => Nat.xor a b

/-- The combiner is one of Table 11-5 for the format. -/
def combinerOk (comb fmt : Nat) : Bool :=
  if comb = 8 then fmt == 8 || fmt == 7
  else if comb ≤ 2 then [3, 4, 6, 7, 8, 9].contains fmt
  else decide (comb ≤ 7) && (fmt == 3 || fmt == 4)

/-- The tree of 11 R294 over values in order. -/
def CollOp.tree (d : CollOp) (xs : List Nat) : Nat := ((treeOf (fun a b => (d.combine a b, 0)) (xs.map some)).1).getD 0

/-- The elements of bytes. -/
def elements (w n : Nat) (bs : List Byte) : List Nat := (List.range n).map fun i => leNat ((bs.drop (w * i)).take w)

/-- A message between Spines (16 Table 16-7). -/
def State.sendSpine (s : State) (dst type : Nat) (payload : List Byte) : State :=
  s.originate { dst := BitVec.ofNat 20 dst, src := s.device, type := BitVec.ofNat 6 type, dquire := 0, squire := 0, hops := 0
                addr := 0, len := 16, status := 0, txn := 0, tile := 0xFF, strand := 0, op := 0, word3 := 0, ecrcOk := true
                payload := payload ++ List.replicate (16 - payload.length) 0 }

def Coll.is (c : Coll) (g seq : Nat) : Bool := c.group == g && c.seq == seq
def State.coll (s : State) (g seq : Nat) : Option Coll := s.colls.find? (·.is g seq)
def State.updColl (s : State) (g seq : Nat) (f : Coll → Coll) : State :=
  { s with colls := s.colls.map fun c => if c.is g seq then f c else c }

/-- The rank of this device in a group. -/
def State.myRank (s : State) (g : Group) : Nat := (s.rankOf g s.device.toNat).getD 0

/-- A collective of which nothing has happened yet. -/
def Coll.fresh (g seq q : Nat) : Coll :=
  { group := g, seq := seq, quire := q, desc := none, issuers := [], arrived := [], own := [], placed := []
    started := false, blocked := false, ending := none }

/-- A sequence number lies in the window of a group (11 R291). -/
def Group.inWindow (e : Group) (seq : Nat) : Bool := decide ((seq + 2 ^ 32 - e.nextseq) % 2 ^ 32 < 4)

/-- The device knows of a collective whose number lies in the window, also before any of its issuers has joined. -/
def State.openColl (s : State) (g seq : Nat) (e : Group) : State :=
  if (s.coll g seq).isSome || !e.inWindow seq then s else { s with colls := s.colls ++ [Coll.fresh g seq e.quire] }

/-- The collective ends here with the first status that this member raises or receives (11 R301). -/
def State.stopColl (s : State) (g seq status rank : Nat) (e : Group) : State :=
  (s.openColl g seq e).updColl g seq fun c => if c.ending.isSome then c else { c with ending := some (status, rank), own := [] }

/-- A condition of 11 R300 ends the collective here, and every other member is told (R301). -/
def State.raiseColl (s : State) (g seq status : Nat) : State :=
  match s.group g with
  | none => s
  | some e =>
    match (s.openColl g seq e).coll g seq with
    | none => s
    | some c =>
      if c.ending.isSome then s
      else
        let r := s.myRank e
        let s := (s.stopColl g seq status r e).alarm .collectiveAborted g
        ((s.membersOf e).filter (· ≠ s.device.toNat)).foldl (fun s d =>
          s.sendSpine d 0x3C (leBytes 2 g ++ leBytes 4 seq ++ leBytes 1 status ++ leBytes 3 r)) s

/-- Send one packet of a collective to a rank; no route ends the collective (11 Table 11-10, R300). -/
def State.sendColl (s : State) (g : Nat) (e : Group) (c : Coll) (rank type chunk : Nat) (bs : List Byte) : State :=
  let dst := s.memberOf e rank
  if (s.routeOf dst).isNone then s.raiseColl g c.seq 3
  else s.originate
    { dst := BitVec.ofNat 20 dst, src := s.device, type := BitVec.ofNat 6 type
      dquire := BitVec.ofNat 4 ((s.peerQuire c.quire dst).getD 0), squire := BitVec.ofNat 4 c.quire, hops := 0
      addr := BitVec.ofNat 64 (g + 2 ^ 12 * c.seq + 2 ^ 44 * e.gsig), len := bs.length, status := 0, txn := 0, tile := 0xFF, strand := 0
      op := 0, word3 := BitVec.ofNat 32 chunk, ecrcOk := true, payload := bs }

/-- Send bytes in chunks of 4,096. -/
def State.sendChunks (s : State) (g : Nat) (e : Group) (c : Coll) (rank type : Nat) (bs : List Byte) : State :=
  (List.range (ceilDiv bs.length 4096)).foldl (fun s k => s.sendColl g e c rank type k ((bs.drop (4096 * k)).take 4096)) s

/-- The status of a page check or of what memory answers (11 Table 11-7). -/
def sourceStatus (f : Fail) : Nat := if f.code = cMemory then 2 else 4

/-- Where one page of an issuer's virtual range lies in memory, or the status that ends the work (11 R291, R300). -/
def State.pageOf (s : State) (t : TileId) (au : Auth) (need : Need) (va n : Nat) : Except Nat Xlate :=
  match s.checkNow t au need va n with
  | .ok l => if l.backstop || l.target == .control then .error 9 else .ok l
  | _ => .error 9

/-- What keeps a collective or a transfer from a piece of memory: it waits for a stopped stack, a quiet channel or a region that is being
rewritten (11 R300, 09 R234, R238, R247), or ends with a status. -/
inductive Hitch where
  | wait
  | status (st : Nat)
deriving DecidableEq, Repr

/-- What reading gives, and the state with what the reads met and cost; unchanged where it waits. -/
abbrev Got (α : Type) := Except Hitch α × State

/-- Go on with what was read; where it must wait, nothing has happened. -/
def Got.andThen {α β : Type} (s : State) (r : Got α) (k : α → State → Got β) : Got β :=
  match r with
  | (.error .wait, _) => (.error .wait, s)
  | (.error (.status e), t) => (.error (.status e), t)
  | (.ok x, t) => match k x t with
    | (.error .wait, _) => (.error .wait, s)
    | r => r

/-- Read a range, page by page (11 R291, R292). -/
def State.gather (s : State) (t : TileId) (au : Auth) : Nat → Nat → Nat → Got (List Byte)
  | 0, _, _ => (.ok [], s)
  | k + 1, va, n =>
    if n = 0 then (.ok [], s)
    else
      let m := min n (65536 - va % 65536)
      match s.pageOf t au .load va m with
      | .error e => (.error (.status e), s)
      | .ok l =>
        if l.target ≠ .memory then (.error (.status 9), s)
        else if s.spanWaits l.addr m then (.error .wait, s)
        else match s.readSpan (s.tile t).quire.toNat false false l.addr m with
          | (.error f, s) => (.error (.status (sourceStatus f)), s)
          | (.ok bs, u) => Got.andThen s (u.gather t au k (va + m) (n - m)) fun rest u => (.ok (bs ++ rest), u)

/-- Write a range, page by page; a refused write is status 0x02 (11 Table 11-7). -/
def State.scatter (s : State) (t : TileId) (au : Auth) : Nat → Nat → List Byte → Got Unit
  | 0, _, _ => (.ok (), s)
  | k + 1, va, bs =>
    if bs.isEmpty then (.ok (), s)
    else
      let m := min bs.length (65536 - va % 65536)
      match s.pageOf t au .store va m with
      | .error e => (.error (.status e), s)
      | .ok l =>
        if l.target ≠ .memory then (.error (.status 9), s)
        else if s.spanWaits l.addr m then (.error .wait, s)
        else match s.writeSpan (s.tile t).quire.toNat false false l.addr (bs.take m) with
          | (some _, s) => (.error (.status 2), s)
          | (none, u) => Got.andThen s (u.scatter t au k (va + m) (bs.drop m)) fun _ u => (.ok (), u)

def pagesFor (n : Nat) : Nat := n / 65536 + 2
def State.readFor (s : State) (i : Issuer) (va n : Nat) : Got (List Byte) := s.gather i.t i.auth (pagesFor n) va n
def State.writeFor (s : State) (i : Issuer) (va : Nat) (bs : List Byte) : Got Unit :=
  s.scatter i.t i.auth (pagesFor bs.length) va bs

/-- Do the same for each of a list; where one must wait, nothing has happened. -/
def Got.each {α β : Type} (f : α → State → Got β) : List α → State → Got (List β)
  | [], s => (.ok [], s)
  | x :: xs, s => Got.andThen s (f x s) fun y u => Got.andThen u (Got.each f xs u) fun ys u => (.ok (y :: ys), u)

/-- Participating tiles by tile rank (11 R288). -/
def Group.parts (g : Group) : List Nat := onesOf g.tiles
/-- The tiles that issue the operation (11 Table 11-4). -/
def Group.issuers (g : Group) (d : CollOp) : List Nat := if d.byLeader then g.parts.take 1 else g.parts

def Coll.of (c : Coll) (t : Nat) : Option Issuer := c.issuers.find? (·.t.val == t)
/-- The issuers whose destinations are written (11 Table 11-3, lead). -/
def Coll.writers (c : Coll) (g : Group) (d : CollOp) : List Issuer :=
  if d.lead || d.byLeader then ((g.parts.take 1).filterMap c.of) else c.issuers

/-- Write a piece of the result at an offset of every writer's destination, and note it as placed. -/
def State.place (s : State) (g : Nat) (e : Group) (c : Coll) (d : CollOp) (key : Nat × Nat) (off : Nat) (bs : List Byte) : State :=
  match Got.each (fun i (s : State) => s.writeFor i (i.dst + off) bs) (c.writers e d) s with
  | (.error .wait, s) => s
  | (.error (.status st), s) => s.raiseColl g c.seq st
  | (.ok _, s) => s.updColl g c.seq fun c => { c with placed := c.placed ++ [key] }

/-- Elements [lo, hi) of the result that this rank or another is to have (11 R294). -/
def CollOp.share (d : CollOp) (m rank : Nat) : Nat × Nat :=
  if d.op = 3 then (rank * (d.count / m), (rank + 1) * (d.count / m))
  else if d.op = 2 then (if rank = d.root then (0, d.count) else (0, 0))
  else (0, d.count)
/-- A rank needs chunk `k` of the result. -/
def CollOp.wants (d : CollOp) (m rank k : Nat) : Bool :=
  let (lo, hi) := d.share m rank
  decide (max lo (k * d.perChunk) < min hi ((k + 1) * d.perChunk))

/-- Place chunk `k` of the result, of which this rank takes its share. -/
def State.placeResult (s : State) (g : Nat) (e : Group) (c : Coll) (d : CollOp) (k : Nat) (vals : List Nat) : State :=
  let (lo, hi) := d.share e.m (s.myRank e)
  let first := max lo (k * d.perChunk)
  let mine := (vals.drop (first - k * d.perChunk)).take (hi - first)
  s.place g e c d (0, k) (d.bytes (first - lo)) (mine.flatMap fun v => leBytes (widthOf d.fmt / 8) (d.lower v))

/-- Something has come for a collective. -/
def State.arrived (s : State) (g seq : Nat) (as : List Arrival) : State :=
  s.updColl g seq fun c => if c.ending.isSome then c else { c with arrived := c.arrived ++ as }

/-- Bytes as data blocks of a rank, in chunks. -/
def dataBlocks (rank : Nat) (bs : List Byte) : List Arrival :=
  (List.range (ceilDiv bs.length 4096)).map fun k => { type := 0x33, rank := rank, chunk := k, bytes := (bs.drop (4096 * k)).take 4096 }

/-- Send chunk `k` of the whole result down to whoever needs it (11 R294). -/
def State.distribute (s : State) (g : Nat) (e : Group) (c : Coll) (d : CollOp) (k : Nat) (vals : List Nat) : State :=
  let bs := vals.flatMap (leBytes d.transit)
  ((List.range e.m).filter fun r => d.wants e.m r k).foldl (fun s r =>
    if r = s.myRank e then s.arrived g c.seq [{ type := 0x31, rank := r, chunk := k, bytes := bs }]
    else s.sendColl g e c r 0x31 k bs) s

/-- What a packet of a type from a rank brought for a chunk. -/
def Coll.got (c : Coll) (type rank chunk : Nat) : Option (List Byte) :=
  (c.arrived.find? fun a => a.type == type && a.rank == rank && a.chunk == chunk).map (·.bytes)
def CollOp.values (d : CollOp) (bs : List Byte) : List Nat := elements d.transit (bs.length / max d.transit 1) bs

/-- Combine what has come from the ranks below this node of the device tree, level by level (11 R294). -/
def Coll.climb (c : Coll) (d : CollOp) (r n : Nat) : Nat → Partial → Partial
  | 0, p => p
  | f + 1, p =>
    let i := r % 4096
    if p.span < n ∧ i % (2 * p.span) = 0 then
      if i + p.span < n then
        match c.got 0x30 (r + p.span) p.chunk with
        | none => p
        | some bs => c.climb d r n f { p with span := 2 * p.span, vals := List.zipWith d.combine p.vals (d.values bs) }
      else c.climb d r n f { p with span := 2 * p.span }
    else p

/-- Move one chunk on its way up: along the tree of its 4,096 ranks, along the chain, and down at the end (11 R294). -/
def State.advanceChunk (s : State) (g : Nat) (e : Group) (c : Coll) (d : CollOp) (p : Partial) : State :=
  let r := s.myRank e
  let i := r % 4096
  let n := min 4096 (e.m - (r - i))
  let p := c.climb d r n 14 p
  let drop (s : State) : State := s.updColl g c.seq fun c => { c with own := c.own.filter (·.chunk ≠ p.chunk) }
  let keep (s : State) : State := s.updColl g c.seq fun c => { c with own := c.own.map fun o => if o.chunk = p.chunk then p else o }
  if p.span < n ∧ i % (2 * p.span) ≠ 0 then
    (drop s).sendColl g e c (r - p.span) 0x30 p.chunk (p.vals.flatMap (leBytes d.transit))
  else if p.span < n then keep s
  else
    let acc := if r < 4096 then some p.vals
      else (c.got 0x32 (r - 4096) p.chunk).map fun bs => List.zipWith d.combine (d.values bs) p.vals
    match acc with
    | none => keep s
    | some v =>
      if r + 4096 < e.m then (drop s).sendColl g e c (r + 4096) 0x32 p.chunk (v.flatMap (leBytes d.transit))
      else (drop s).distribute g e c d p.chunk v

def State.others (s : State) (e : Group) : List Nat := (List.range e.m).filter (· ≠ s.myRank e)

/-- The dispatch table of an all-to-all: offset and length for each rank (11 R297). -/
def tableRows (m : Nat) (bs : List Byte) : List (Nat × Nat) :=
  (List.range m).map fun q => (leNat ((bs.drop (16 * q)).take 8), leNat ((bs.drop (16 * q + 8)).take 4))

/-- The device's contribution is what was read; while it must wait, or where it has failed, it is not made. -/
def State.withRead {α : Type} (s : State) (g seq : Nat) (r : Got α) (k : α → State → State) : State :=
  match r with
  | (.error .wait, _) => s
  | (.error (.status st), t) => t.raiseColl g seq st
  | (.ok x, t) => k x t

/-- This device makes its contribution once every issuer has joined (11 R294, R298, Table 11-4). -/
def State.contribute (s : State) (g : Nat) (e : Group) (c : Coll) (d : CollOp) : State :=
  let begun (s : State) : State := s.updColl g c.seq fun c => { c with started := true }
  if d.joinsOnly then (s.others e).foldl (fun s r => s.sendColl g e c r 0x35 0 []) (begun s)
  else if d.combines then
    s.withRead g c.seq (Got.each (fun i (s : State) => s.readFor i i.src (d.bytes d.count)) ((e.issuers d).filterMap c.of) s) fun srcs s =>
      let rows := srcs.map (elements (widthOf d.fmt / 8) d.count)
      let dev := (List.range d.count).map fun k => d.tree (rows.map fun row => d.lift (row.getD k 0))
      (begun s).updColl g c.seq fun c => { c with own := (List.range d.chunks).map fun k =>
        { chunk := k, span := 1, vals := (dev.drop (k * d.perChunk)).take d.perChunk } }
  else match c.issuers with
    | [] => begun s
    | i :: _ =>
      if d.op = 6 then
        s.withRead g c.seq (s.readFor i i.table (16 * e.m)) fun bs s =>
          let row := leBytes 8 i.recvmax ++ (tableRows e.m bs).flatMap fun x => leBytes 4 x.2
          let s := (s.others e).foldl (fun s r => s.sendChunks g e c r 0x34 row) (begun s)
          s.arrived g c.seq [{ type := 0x34, rank := s.myRank e, chunk := 0, bytes := row }]
      else if d.op = 4 ∧ s.myRank e ≠ d.root then begun s
      else
        s.withRead g c.seq (s.readFor i i.src (d.bytes d.count)) fun bs s =>
          let s := (s.others e).foldl (fun s r => s.sendChunks g e c r 0x33 bs) (begun s)
          s.arrived g c.seq (dataBlocks (s.myRank e) bs)

/-- The lengths that rank `q` announced, with its capacity, once all of them have come (11 R298; the form of the payload is log 15). -/
def Coll.lengths (c : Coll) (m q : Nat) : Option (Nat × List Nat) :=
  let row := ((List.range (ceilDiv (8 + 4 * m) 4096 + 1)).flatMap fun k => (c.got 0x34 q k).getD []).take (8 + 4 * m)
  if row.length < 8 + 4 * m then none else some (leNat (row.take 8), elements 4 m (row.drop 8))

/-- All the members' lengths. -/
def Coll.matrix (c : Coll) (m : Nat) : Option (List (Nat × List Nat)) := (List.range m).mapM (c.lengths m)

/-- Bytes that rank `r` sends to rank `q`. -/
def lenFrom (x : List (Nat × List Nat)) (r q : Nat) : Nat := ((x.getD r (0, [])).2).getD q 0
/-- Where rank r's block starts in rank q's destination (11 R298). -/
def blockStart (x : List (Nat × List Nat)) (r q : Nat) : Nat := ((List.range r).map fun j => lenFrom x j q).sum

/-- The second phase of an all-to-all: the capacities hold everywhere and the blocks go, or every member ends it (11 R298). -/
def State.sendBlocks (s : State) (g : Nat) (e : Group) (c : Coll) : State :=
  match c.matrix e.m, c.issuers with
  | some x, i :: _ =>
    if c.blocked then s
    else if (List.range e.m).any fun q => decide ((x.getD q (0, [])).1 < blockStart x e.m q) then s.raiseColl g c.seq 7
    else
      let blocks : Got (List (Nat × List Byte)) := Got.andThen s (s.readFor i i.table (16 * e.m)) fun tb s =>
        Got.each (fun p (s : State) => Got.andThen s (s.readFor i (i.src + p.1.1) p.1.2) fun bs s => (.ok (p.2, bs), s)) (tableRows e.m tb).zipIdx s
      s.withRead g c.seq blocks fun bs s =>
        bs.foldl (fun s p =>
          if p.1 = s.myRank e then s.arrived g c.seq (dataBlocks p.1 p.2)
          else s.sendChunks g e c p.1 0x33 p.2) (s.updColl g c.seq fun c => { c with blocked := true })
  | _, _ => s

/-- Offset of a data block in the destination (11 Table 11-4, R298); none until it is known. -/
def Coll.blockAt (c : Coll) (d : CollOp) (m me : Nat) (a : Arrival) : Option Nat :=
  if d.op = 4 then some (4096 * a.chunk)
  else if d.op = 5 then some (a.rank * d.bytes d.count + 4096 * a.chunk)
  else if !c.blocked then none
  else (c.matrix m).map fun x => blockStart x a.rank me + 4096 * a.chunk

/-- Place what has come and is not yet placed. -/
def State.placeArrivals (s : State) (g : Nat) (e : Group) (c : Coll) (d : CollOp) : State :=
  c.arrived.foldl (fun s a =>
    if d.combines then
      if a.type = 0x31 ∧ !c.placed.contains (0, a.chunk) ∧ d.wants e.m (s.myRank e) a.chunk then
        s.placeResult g e c d a.chunk (d.values a.bytes)
      else s
    else if a.type = 0x33 ∧ !c.placed.contains (a.rank, a.chunk) then
      match c.blockAt d e.m (s.myRank e) a with
      | none => s
      | some off => s.place g e c d (a.rank, a.chunk) off a.bytes
    else s) s

/-- Act on a collective that is described and has not ended. -/
def State.onColl (s : State) (g seq : Nat) (k : Coll → CollOp → State) : State :=
  match s.coll g seq with
  | none => s
  | some c => match c.desc with
    | none => s
    | some d => if c.ending.isSome then s else k c d

/-- Go on with the collective that the group has reached (11 R291: in seq order). -/
def State.advanceColl (s : State) (g : Nat) : State :=
  match s.group g with
  | none => s
  | some e =>
    let s := s.onColl g e.nextseq fun c d =>
      if !c.started && (e.issuers d).all fun t => (c.of t).isSome then s.contribute g e c d else s
    let s := s.onColl g e.nextseq fun c d =>
      if !c.started then s
      else if d.combines && !d.joinsOnly then c.own.foldl (fun s p => s.onColl g e.nextseq fun c _ => s.advanceChunk g e c d p) s
      else if d.op = 6 then s.sendBlocks g e c
      else s
    s.onColl g e.nextseq fun c d => if c.started && !d.joinsOnly then s.placeArrivals g e c d else s

/-- The collective has done everything on this device (11 R293, R294, R298). -/
def State.collDone (s : State) (e : Group) (c : Coll) (d : CollOp) : Bool :=
  let me := s.myRank e
  let all (r n : Nat) : Bool := (List.range (ceilDiv n 4096)).all fun k => c.placed.contains (r, k)
  c.started &&
    (if d.joinsOnly then (s.others e).all fun r => (c.got 0x35 r 0).isSome
     else if d.combines then c.own.isEmpty && (List.range d.chunks).all fun k => !d.wants e.m me k || c.placed.contains (0, k)
     else if d.op = 4 then all d.root (d.bytes d.count)
     else if d.op = 5 then (List.range e.m).all fun r => all r (d.bytes d.count)
     else c.blocked && match c.matrix e.m with
       | none => false
       | some x => (List.range e.m).all fun r => all r (lenFrom x r me))

/-- Write a completion record; line 3 becomes pending, where that is asked for, once the record has been performed (11 R293, Table 11-6). A record
on another device is written by a request of its own (R302). One that cannot be written is left out, and line 3 with it. None: it must wait. -/
def State.completion (s : State) (t : TileId) (h : StrandId) (au : Auth) (nt : Bool) (caddr status rank tag : Nat) : Option State :=
  let bs := leBytes 8 (status + 2 ^ 8 * rank + 2 ^ 32 * tag)
  let q := (s.tile t).quire
  match s.pageOf t au .store caddr 8 with
  | .error _ => some s
  | .ok l =>
    if l.target = .remote then
      let dev := bitsOf l.addr 44 20
      if (s.routeOf dev).isNone then some s
      else
        let (txn, s) := s.takeTag
        some { s.originate { dst := BitVec.ofNat 20 dev, src := s.device, type := 4
                             dquire := BitVec.ofNat 4 ((s.peerQuire q.toNat dev).getD 0), squire := q, hops := 0
                             addr := BitVec.ofNat 64 l.addr, len := 8, status := 0, txn := BitVec.ofNat 16 txn, tile := 0xFF, strand := 0, op := 0
                             word3 := 0, ecrcOk := true, payload := bs } with
               records := s.records ++ [{ txn := txn, t := t, h := h, nt := nt }] }
    else if s.spanWaits l.addr 8 then none
    else match s.writeSpan q.toNat false false l.addr bs with
      | (some _, s) => some s
      | (none, s) => some (if nt then s.updTile t fun x => x.updStrand h fun r => r.pend 8 else s)

/-- Bytes of an issuer's destination that the collective may write. -/
def CollOp.extent (d : CollOp) (m me : Nat) (i : Issuer) : Nat :=
  if d.op = 6 then i.recvmax
  else if d.op = 5 then m * d.bytes d.count
  else if d.combines then d.bytes ((d.share m me).2 - (d.share m me).1)
  else d.bytes d.count

/-- The destination of an aborted collective is undefined (11 R301; log 9): free bytes, where it can be written at all; where a receive capacity
was exceeded nothing has been written (R298). -/
def State.scribble (s : State) (i : Issuer) (n : Nat) : State :=
  let f := s.free
  match State.writeFor { s with free := s.free + n } i i.dst ((List.range n).map fun k => Config.abortedByte (f + k)) with
  | (.ok _, s) => s
  | (.error _, s) => s

/-- The received lengths go into the table of an all-to-all (11 R297). -/
def State.writeLengths (s : State) (e : Group) (c : Coll) : Got Unit :=
  match c.matrix e.m, c.issuers with
  | some x, i :: _ =>
    Got.andThen s (Got.each (fun r (s : State) => s.writeFor i (i.table + 16 * r + 12) (leBytes 4 (lenFrom x r (s.myRank e)))) (List.range e.m) s)
      fun _ s => (.ok (), s)
  | _, _ => (.ok (), s)

/-- The records of all issuers of a collective; none: one of them must wait. -/
def State.completions (s : State) (status rank seq : Nat) : List Issuer → Option State
  | [] => some s
  | i :: is => (s.completion i.t i.h i.auth i.nt i.caddr status rank seq).bind fun s => s.completions status rank seq is

/-- A collective leaves with its records, and its group goes on to the next (11 R293, R301). -/
def State.leaveColl (s : State) (g : Nat) (e : Group) (c : Coll) (status rank : Nat) : State :=
  match s.completions status rank c.seq c.issuers with
  | none => s
  | some s =>
    let s := s.count c.quire 9 1
    let s : State := { s with colls := s.colls.filter (!·.is g c.seq) }
    (s.setGroup g (some { e with nextseq := (e.nextseq + 1) % 2 ^ 32 })).advanceColl g

/-- The collective that the group has reached ends: results or undefined contents, records, nextseq (11 R293, R301). -/
def State.endColl (s : State) (g : Nat) : State :=
  match s.group g with
  | none => s
  | some e => match s.coll g e.nextseq with
    | none => s
    | some c =>
      if c.issuers.isEmpty then s
      else match c.ending, c.desc with
        | some (status, rank), some d =>
          let s := if status = 7 then s else c.issuers.foldl (fun s i => s.scribble i (d.extent e.m (s.myRank e) i)) s
          s.leaveColl g e c status rank
        | some (status, rank), none => s.leaveColl g e c status rank
        | none, none => s
        | none, some d =>
          if !s.collDone e c d then s
          else s.withRead g c.seq (if d.op = 6 then s.writeLengths e c else (.ok (), s)) fun _ s => s.leaveColl g e c 0 0

/-- COLLECTIVE_END: the collective that the group has reached goes on where it had to wait, and ends when it can. -/
def execCollectiveEnd (g : GroupId) (s : State) : Out := .next ((s.advanceColl g.val).endColl g.val)

/-- COLLECTIVE_BOUND_EXPIRY: no chunk for the group's bound (11 R300). -/
def execCollectiveBoundExpiry (g : GroupId) (s : State) : Out :=
  .next (match s.group g.val with
    | none => s
    | some e => if e.bound = 0 then s else s.raiseColl g.val e.nextseq 6)

/-- Take a member's end of a collective over from its Spine (11 R301), also where nothing of the collective has happened here yet. -/
def State.abortColl (s : State) (g seq status rank : Nat) : State :=
  match s.group g with
  | none => s
  | some e => s.stopColl g seq status rank e

/-- ABORT (16 Table 16-7, type 0x3C). -/
def execAbort (group : GroupId) (seq : BitVec 32) (status : BitVec 8) (rank : BitVec 20) (s : State) : Out :=
  .next (if status = 0 then s else s.abortColl group.val seq.toNat status.toNat rank.toNat)

/-- The first fault among the ranges of a descriptor. -/
def State.uncoveredIn (s : State) (a : At) (rs : List (Need × Nat × Nat)) : Option (Nat × Nat × Nat × Nat) :=
  let x := s.tile a.t
  rs.findSome? fun r => uncovered x (s.auth a) r.1 17 r.2.1 r.2.2

/-- The descriptor of a collective that 64 bytes spell: group, seq, operation and issuer (11 Table 11-3); none when a reserved
field is not zero. -/
def State.readColl (s : State) (a : At) (bs : List Byte) : Option (Nat × Nat × CollOp × Issuer) :=
  let w := wordAt bs
  let bit := bitOf (w 0)
  if w 0 / 2 ^ 31 ≠ 0 || w 1 / 2 ^ 52 ≠ 0 || w 4 / 2 ^ 40 ≠ 0 || w 7 / 2 ^ 40 ≠ 0 then none
  else some (bitsOf (w 0) 0 12, bitsOf (w 1) 0 32,
    { op := bitsOf (w 0) 12 4, fmt := bitsOf (w 0) 16 4, comb := bitsOf (w 0) 20 4, rm := bitsOf (w 0) 24 3, sat := bit 27
      ftz := bit 28, lead := bit 30, root := bitsOf (w 1) 32 20, count := w 4 },
    { t := a.t, h := a.h, auth := s.auth a, src := w 2, dst := w 3, caddr := w 5, table := w 6
      recvmax := w 7, nt := bit 29 })

/-- The descriptor keeps Tables 11-3 to 11-5 for a group (11 R291, R297). -/
def CollOp.ok (d : CollOp) (i : Issuer) (m : Nat) : Bool :=
  decide (d.op ≤ 6) && decide (d.rm ≤ 4) && i.caddr % 8 == 0 &&
  (if d.op = 2 ∨ d.op = 4 then decide (d.root < m) else d.root == 0) &&
  (if d.op = 6 then decide (m ≤ 4096) else i.table == 0 && i.recvmax == 0) &&
  (if d.op = 0 then d.count == 0 && d.comb == 0
   else if d.combines then combinerOk d.comb d.fmt && (d.op ≠ 3 || d.count % m == 0)
   else d.comb == 0 && widthOf d.fmt ≠ 0 && (widthOf d.fmt ≠ 4 || d.count % 2 == 0))

/-- The blocks that an all-to-all sends, by its table, which is read for this where it can be (11 R291, R297). -/
def State.blockRanges (s : State) (i : Issuer) (m : Nat) : List (Need × Nat × Nat) :=
  match (s.readFor i i.table (16 * m)).1 with
  | .ok bs => ((tableRows m bs).filter (·.2 ≠ 0)).map fun r => (Need.load, i.src + r.1, r.2)
  | .error _ => []

/-- The ranges that must be covered, with the right each needs (11 R291). -/
def CollOp.ranges (d : CollOp) (i : Issuer) (m me : Nat) : List (Need × Nat × Nat) :=
  let n := d.bytes d.count
  let src := if d.op = 0 ∨ d.op = 6 ∨ (d.op = 4 ∧ me ≠ d.root) then [] else [(Need.load, i.src, n)]
  let dst := if d.op = 0 then [] else [(Need.store, i.dst, d.extent m me i)]
  let tab := if d.op = 6 then [(Need.load, i.table, 16 * m), (Need.store, i.table, 16 * m)] else []
  src ++ dst ++ [(.store, i.caddr, 8)] ++ tab

/-- Collectives and transfers of a tile in flight (11 R291). -/
def State.tileWork (s : State) (t : TileId) : Nat :=
  ((s.colls.flatMap (·.issuers)).filter (·.t == t)).length + (s.transfers.filter (·.t == t)).length

/-- The device has 256 collectives in flight (11 R291). -/
def State.collsFull (s : State) : Bool := decide (256 ≤ (s.colls.filter (!·.issuers.isEmpty)).length)

/-- The issuer joins its collective; one that disagrees with the others ends it (11 R291, Table 11-7). -/
def State.join (s : State) (g seq : Nat) (d : CollOp) (i : Issuer) : State :=
  let s := match s.group g with | some e => s.openColl g seq e | none => s
  match s.coll g seq with
  | none => s
  | some c =>
    let s := s.updColl g seq fun c =>
      { c with issuers := c.issuers ++ [i], desc := some (c.desc.getD d), quire := (s.tile i.t).quire.toNat }
    if (c.desc.isSome && c.desc ≠ some d) || (c.of i.t.val).isSome then s.raiseColl g seq 5 else s.advanceColl g

/-- ccol (11 R289, R291): the strand is held while its descriptor is read. -/
def execCcol (a : At) (f : RF) (s : State) : Out :=
  sysOp a [f.rs2] [f.rs1] (fun s =>
    s.needs a f.rd [4] (some 24) fun w =>
      match s.checkFrame a (halves ((s.strand a).g f.rs1) 64) [] with
      | .walk p => .later (s.startWalk a.t p)
      | .fail c k w v => .fault c k w v
      | .ok ps => .go (s.startOperand a (.collective f.rd.toNat w) 64 ps)) s

/-- The rank that a held group's completion records name: that of the device first known lost; where a hold message told of the hold
before any loss was known, no rule names it (16 R402; log 10). -/
def State.lostRank (s : State) (e : Group) (h : GroupHold) : Nat × State :=
  match h.lost with
  | d :: _ => ((s.rankOf e d).getD 0, s)
  | [] => let (f, s) := s.takeFree; (Config.openValue 25 f % 2 ^ 20, s)

/-- The descriptor of a ccol has come (11 R289, R291; 16 R402 for a held group). -/
def State.finishColl (s : State) (a : At) (wreg : Nat) (w : Warrant) (bs : List Byte) : State :=
  match s.readColl a bs with
  | none => s.operandIllegal a
  | some (g, seq, d, i) =>
    if !w.hasGroup g then s.operandFault a cWarrant 3 wreg 0
    else match s.group g with
      | none => s.operandIllegal a
      | some e =>
        if !d.ok i e.m || !(e.issuers d).contains a.t.val then s.operandIllegal a
        else match s.uncoveredIn a (d.ranges i e.m (s.myRank e) ++ if d.op = 6 then s.blockRanges i e.m else []) with
          | some (c, k, x, v) => s.operandFault a c k x (word v)
          | none =>
            match Sparse.get none s.survive.holds g with
            | some h =>
              let (r, s) := s.lostRank e h
              match s.completion a.t a.h i.auth i.nt i.caddr 3 r seq with
              | none => s
              | some s => s.operandDone a
            | none =>
              if !e.inWindow seq then
                match s.completion a.t a.h i.auth i.nt i.caddr 5 (s.myRank e) seq with
                | none => s
                | some s => s.operandDone a
              else if 8 ≤ s.tileWork a.t || s.collsFull then s
              else (s.operandDone a).join g seq d i

/-- THERMAL_STOP_BOUND: the stop has lasted stopbound milliseconds: an alarm, and the collectives of the device end (09 R235, 11 R300; 16 R383). -/
def execThermalStopBound (m : StackId) (s : State) : Out :=
  let st := s.stackOf m.val
  .next (if !st.stopped then s
    else
      let s := ((s.setStack m.val { st with stopms := min 65535 (max st.stopms st.stopbound) }).alarm .stopBound m.val).risk 64
      s.colls.foldl (fun s c => s.raiseColl c.group c.seq 1) s)

end Sys2Proof.Machine
end

