-- ==== Sys2Proof/Machine/Transfer.lean ====
section
/-! DEFINITION. The transfer engines (11 R302, Table 11-11). -/

namespace Sys2Proof.Machine

/-- xstart: the strand is held while its descriptor is read (11 R289, R302). -/
def execXstart (a : At) (f : RF) (s : State) : Out :=
  sysOp a [f.rs2] [f.rs1] (fun s =>
    s.needs a f.rd [4] (some 25) fun w =>
      match s.checkFrame a (halves ((s.strand a).g f.rs1) 64) [] with
      | .walk p => .later (s.startWalk a.t p)
      | .fail c k w v => .fault c k w v
      | .ok ps => .go (s.startOperand a (.transfer f.rd.toNat w) 64 ps)) s

/-- The transfer that 64 bytes describe (11 Table 11-11); none when they break it. -/
def State.readTransfer (s : State) (a : At) (w : Warrant) (bs : List Byte) : Option Transfer :=
  let v := wordAt bs
  if bitsOf (v 0) 1 31 ≠ 0 || v 3 = 0 || v 3 / 2 ^ 40 ≠ 0 || v 4 % 8 ≠ 0 || v 5 ≠ 0 || v 6 ≠ 0 || v 7 ≠ 0 then none
  else
    let x := s.tile a.t
    some { id := 0, t := a.t, h := a.h, quire := x.quire.toNat, auth := s.auth a, fd := w.firstDevice, fdc := w.deviceCount
           src := v 1, dst := v 2, len := v 3, done := 0, caddr := v 4, tag := bitsOf (v 0) 32 32, nt := bitOf (v 0) 0, asked := [], ending := none }

def State.setTransfer (s : State) (x y : Transfer) : State :=
  { s with transfers := s.transfers.map fun z => if z.id = x.id then y else z }

/-- The device lies in the warrant's device range (11 R302). -/
def Transfer.mayReach (x : Transfer) (dev : Nat) : Bool := decide (x.fd ≤ dev) && decide (dev < x.fd + x.fdc)

/-- The record of a transfer that has ended is written, and the transfer leaves (11 R293, R302); while its record must wait it stays. A record on a
device outside the warrant's range is not written. -/
def State.recordTransfer (s : State) (x : Transfer) (status : Nat) : State :=
  let far : Bool := match s.pageOf x.t x.auth .store x.caddr 8 with
    | .ok l => l.target == .remote && !x.mayReach (bitsOf l.addr 44 20)
    | .error _ => false
  match (if far then some s else s.completion x.t x.h x.auth x.nt x.caddr status 0 x.tag) with
  | none => s
  | some s =>
    let s := s.count x.quire 9 1
    { s with transfers := s.transfers.filter (·.id ≠ x.id) }

/-- A transfer ends with a status (11 R302). -/
def State.endTransfer (s : State) (x : Transfer) (status : Nat) : State :=
  (s.setTransfer x { x with ending := some status, asked := [] }).recordTransfer { x with ending := some status, asked := [] } status

/-- A transfer that ends with status 0x04 as it is accepted: both its ends lie on other devices, or one of them, or its record, on a device
outside the warrant's range (11 R302). -/
def State.deniedTransfer (s : State) (x : Transfer) : Bool :=
  let dev (need : Need) (va : Nat) : Option Nat := match s.pageOf x.t x.auth need va 1 with
    | .ok l => if l.target == .remote then some (bitsOf l.addr 44 20) else none
    | .error _ => none
  let ends := [dev .load x.src, dev .store x.dst, dev .store x.caddr]
  ((dev .load x.src).isSome && (dev .store x.dst).isSome) || ends.any fun d => match d with | some d => !x.mayReach d | none => false

/-- The descriptor of an xstart has come (11 R302). -/
def State.finishTransfer (s : State) (a : At) (w : Warrant) (bs : List Byte) : State :=
  match s.readTransfer a w bs with
  | none => s.operandIllegal a
  | some x =>
    match s.uncoveredIn a [(.load, x.src, x.len), (.store, x.dst, x.len), (.store, x.caddr, 8)] with
    | some (c, k, i, v) => s.operandFault a c k i (word v)
    | none =>
      if 8 ≤ s.tileWork a.t || s.collsFull || 64 ≤ s.transfers.length then s
      else
        let s := s.operandDone a
        let (id, s) := s.takeTag
        let x := { x with id := id }
        let s := { s with transfers := s.transfers ++ [x] }
        if s.deniedTransfer x then s.endTransfer x 4 else s

/-- Bytes of the piece at the transfer's place: within 4,096 bytes of either side (11 R302). -/
def Transfer.piece (x : Transfer) : Nat :=
  min (x.len - x.done) (min (4096 - (x.src + x.done) % 4096) (4096 - (x.dst + x.done) % 4096))

/-- `n` bytes have moved; after the last the transfer ends. -/
def State.pieceMoved (s : State) (x : Transfer) (n : Nat) : State :=
  let y := { x with done := x.done + n, asked := [] }
  let s := s.setTransfer x y
  if y.done = y.len then s.endTransfer y 0 else s

/-- Ask another device for a piece, or send it one (10 Table 10-6, types 0x04 and 0x05). -/
def State.askPiece (s : State) (x : Transfer) (type addr n : Nat) (bs : List Byte) : State :=
  let dev := bitsOf addr 44 20
  if !x.mayReach dev then s.endTransfer x 4
  else if (s.routeOf dev).isNone then s.endTransfer x 3
  else
    let (tag, s) := s.takeTag
    (s.setTransfer x { x with asked := [tag] }).originate
      { dst := BitVec.ofNat 20 dev, src := s.device, type := BitVec.ofNat 6 type
        dquire := BitVec.ofNat 4 ((s.peerQuire x.quire dev).getD 0), squire := BitVec.ofNat 4 x.quire, hops := 0
        addr := BitVec.ofNat 64 addr, len := n, status := 0, txn := BitVec.ofNat 16 tag, tile := 0xFF, strand := 0, op := 0, word3 := 0
        ecrcOk := true, payload := bs }

/-- Write a piece into this device's memory: it waits, fails, or moves (09 Table 09-3; 11 R300, R302). -/
def State.landPiece (s : State) (x : Transfer) (m : Xlate) (bs : List Byte) : State :=
  if s.spanWaits m.addr bs.length then s
  else match s.writeSpan x.quire false false m.addr bs with
    | (some _, s) => s.endTransfer x 2
    | (none, s) => s.pieceMoved x bs.length

/-- TRANSFER_PIECE_DONE: the next piece of transfer `k` moves, or is asked for; a transfer that has ended leaves once its record can be written
(11 R302). A piece waits while its memory does (09 R234). -/
def execTransferPieceDone (k : Nat) (s : State) : Out :=
  .next (match s.transfers[k]? with
    | none => s
    | some x =>
      let n := x.piece
      if let some st := x.ending then s.recordTransfer x st
      else if !x.asked.isEmpty then s
      else match s.pageOf x.t x.auth .load (x.src + x.done) n, s.pageOf x.t x.auth .store (x.dst + x.done) n with
        | .ok l, .ok m =>
          if l.target = .remote ∧ m.target = .remote then s.endTransfer x 4
          else if l.target = .remote then s.askPiece x 5 l.addr n []
          else if s.spanWaits l.addr n || (m.target = .memory && s.spanWaits m.addr n) then s
          else match s.readSpan x.quire false false l.addr n with
            | (.error f, s) => s.endTransfer x (sourceStatus f)
            | (.ok bs, s) => if m.target = .remote then s.askPiece x 4 m.addr n bs else s.landPiece x m bs
        | _, _ => s.endTransfer x 9)

/-- The status of a transfer whose remote request was answered with a failure (10 Table 10-7, 11 Table 11-7). -/
def remoteStatus (st : Nat) : Nat := if st = 4 then 2 else if st = 5 then 3 else 4

/-- The answer to the write of a completion record: line 3, once the record has been performed (11 R293). -/
def State.recordAnswer (s : State) (c : Record) (p : SPacket) : State :=
  let s := { s with records := s.records.erase c }
  if c.nt ∧ p.status = 0 then s.updTile c.t fun x => x.updStrand c.h fun r => r.pend 8 else s

/-- The answer to a request of a transfer engine, or to the write of a completion record (11 R293, R302). A piece whose memory waits when it comes
is asked for again. -/
def State.transferAnswer (s : State) (p : SPacket) : State :=
  match s.records.find? (fun c => c.txn % 65536 == p.txn.toNat) with
  | some c => s.recordAnswer c p
  | none =>
  match s.transfers.find? (fun x => x.asked.any fun t => t % 65536 == p.txn.toNat) with
  | none => s
  | some x =>
    if p.status ≠ 0 then s.endTransfer x (remoteStatus p.status.toNat)
    else if p.type = 0x24 then s.pieceMoved x x.piece
    else
      let n := x.piece
      match s.pageOf x.t x.auth .store (x.dst + x.done) n with
      | .error st => s.endTransfer x st
      | .ok m =>
        if m.target ≠ .memory then s.endTransfer x 4
        else if s.spanWaits m.addr n then s.setTransfer x { x with asked := [] }
        else s.landPiece x m (p.payload.take n)

end Sys2Proof.Machine
end

