-- ==== Sys2Proof/Machine/Link.lean ====
section
/-! DEFINITION. Splice ports (10): frames, retry and credits, packets at their destination, training and drain. -/

namespace Sys2Proof.Machine

/-- Blocks of a receive pool (10 Table 10-4). -/
def poolSize (p : Nat) : Nat := match p / 2 with | 0 => 2048 | 1 => 3072 | 2 => 2560 | _ => 512
def poolOf (lane : Nat) (cls : Bool) : Nat := 2 * lane + natOf cls
/-- Blocks of a packet (10 R267). -/
def blocksOf (p : SPacket) : Nat := ceilDiv (32 + p.payload.length) 64

/-- Credit for a pool at the peer (10 R264), all modulo 4,096. -/
def Port.credit (x : Port) (p : Nat) : Nat :=
  (poolSize p + Sparse.get 0 x.freedByPeer p + 4096 - Sparse.get 0 x.sentBlocks p % 4096) % 4096

/-- The freed count that a frame shows for a pool; until bring-up has completed pools 0 to 5 show no credit (10 R266, log 16). -/
def State.shownFreed (s : State) (x : Port) (p : Nat) : Nat :=
  if p < 6 && !s.splice.ready then 4096 - poolSize p else Sparse.get 0 x.freed p % 4096

/-- The packet in hand of a lane. -/
def Port.inHand (x : Port) (lane : Nat) : Option OutPacket := x.outq.find? fun o => laneOf o.pkt.type.toNat == lane
def Port.partOf (x : Port) (lane : Nat) : Nat := Sparse.get 0 x.part lane

/-- The lane has a block and a credit for it; lanes 0 to 2 wait until the peer has shown its counts (log 16). -/
def Port.canSend (x : Port) (lane : Nat) : Bool :=
  match x.inHand lane with
  | none => false
  | some o => (x.granted || lane == 3) && decide (0 < x.credit (poolOf lane o.cls))

/-- The lane that sends the next block (10 R265). -/
def Port.pickLane (x : Port) : Option (Fin 4) :=
  if x.canSend 3 then some 3
  else ((if 0 < x.partOf x.rr then [x.rr] else []) ++ [(x.rr + 1) % 3, (x.rr + 2) % 3, x.rr % 3]).find? x.canSend |>.map (Fin.ofNat 4)

/-- The next block of a lane's packet, and the port after it (10 R265, Table 10-3). -/
def Port.takeBlock (x : Port) (lane : Fin 4) : Option (Block × Port) :=
  (x.inHand lane.val).map fun o =>
    let k := x.partOf lane.val
    let last := decide (blocksOf o.pkt ≤ k + 1)
    let pool := poolOf lane.val o.cls
    ({ vl := lane, cls := o.cls, start := k == 0, stop := last, packet := if last then some o.pkt else none },
     { x with
        outq := if last then x.outq.erase o else x.outq
        part := Sparse.set 0 x.part lane.val (if last then 0 else k + 1)
        rr := if lane.val < 3 then lane.val else x.rr
        sentBlocks := Sparse.set 0 x.sentBlocks pool ((Sparse.get 0 x.sentBlocks pool + 1) % 4096) })

/-- Up to `n` blocks for a frame. -/
def Port.fill : Nat → Port → List Block × Port
  | 0, x => ([], x)
  | n + 1, x =>
    match x.pickLane.bind x.takeBlock with
    | none => ([], x)
    | some (b, y) => let (bs, z) := y.fill n; (b :: bs, z)

/-- A port that carries frames: up, up at half width or draining, and not in live retraining (10 Table 10-9, R283). -/
def Port.carries (x : Port) : Bool := (x.isUp || x.state == .draining) && !x.live

/-- The frame a port puts on its lanes (10 Table 10-2). -/
def State.frame (s : State) (x : Port) (fseq : BitVec 16) (idle : Bool) (bs : List Block) : FrameOut :=
  { fseq := fseq, aseq := x.rxSeq, nak := x.naking, idle := idle, close := x.closing, keyid := x.keyid, counter := x.counter
    credit := (List.range 8).map (s.shownFreed x), blocks := bs }

/-- A draining port closes once it has sent what it holds, and goes off when both ends have set close in a frame and its replay buffer is
acknowledged (10 R284, steps 3 to 5). -/
def Port.settle (x : Port) : Port :=
  if x.state ≠ .draining then x
  else
    let x := { x with closing := x.closing || x.outq.isEmpty }
    if x.closeSent && x.peerClose && x.replay.isEmpty then { x with state := .off } else x

/-- A frame goes out on the lanes; it shows the peer whether the port is closing. -/
def Port.emit (x : Port) (f : FrameOut) : Port := { x with tx := some f, counter := x.counter + 1, closeSent := x.closeSent || f.close }

/-- Live retraining begins (10 R283; 16 Table 16-2). -/
def State.startLive (s : State) (p : Nat) : State :=
  let x := s.port p
  if !x.isUp || x.live then s
  else (s.setPort p { x with live := true, retrains := (x.retrains + 1) % 65536 }).risk 2

/-- FRAME_SEND (10 R259–R262, R264, R265): a resend first, then up to 25 blocks, or an idle frame. -/
def execFrameSend (p : PortId) (s : State) : Out :=
  let x := s.port p.val
  .next (if !x.carries || decide (2 ^ 32 - 1 ≤ x.counter) then s
    else
      let idle : State := s.setPort p.val (x.emit (s.frame x x.txSeq true [])).settle
      match x.resend.bind fun q => x.replay.find? (·.fseq == q) with
      | some f =>
        let n := f.resent + 1
        let rest := (x.replay.dropWhile (·.fseq ≠ f.fseq)).drop 1
        let s := s.setPort p.val { (x.emit (s.frame x f.fseq false f.blocks)) with
          replay := x.replay.map fun g => if g.fseq = f.fseq then { g with resent := n } else g
          resend := rest.head?.map (·.fseq), retry := satAdd 16 x.retry 1 }
        if 8 ≤ n then s.startLive p.val else s
      | none =>
        if 512 ≤ x.replay.length then idle
        else match Port.fill 25 x with
          | ([], _) => idle
          | (bs, y) =>
            let q := x.txSeq + 1
            let z := Port.emit { y with txSeq := q, replay := y.replay ++ [{ fseq := q, blocks := bs, resent := 0 }] } (s.frame x q false bs)
            s.setPort p.val z.settle)

/-- The blocks of a packet that is consumed or passed on are free again (10 R264). -/
def State.freeBlocks (s : State) (p : Nat) (pool n : Nat) : State :=
  let x := s.port p
  s.setPort p { x with freed := Sparse.set 0 x.freed pool ((Sparse.get 0 x.freed pool + n) % 4096) }

def State.countBad (s : State) : State := { s with splice := { s.splice with badErr := satAdd 16 s.splice.badErr 1 } }

/-- A type that Table 10-6 or 11-10 assigns. -/
def typeOk (t : Nat) : Bool :=
  decide (1 ≤ t ∧ t ≤ 5) || decide (0x21 ≤ t ∧ t ≤ 0x25) || decide (0x30 ≤ t ∧ t ≤ 0x35) || t == 0x38 || decide (0x3C ≤ t ∧ t ≤ 0x3F)

/-- A packet that cannot go on is dropped; a request is answered with status 5, here where it is this device's own (10 R270, R274). -/
def State.dropPacket (s : State) (pk : SPacket) : State :=
  if !isRequest pk then s
  else
    let r := replyTo s.device pk 5 []
    if pk.src ≠ s.device then s.originate r else if pk.tile = 0xFF then s.transferAnswer r else s.answerRemote r

/-- A packet without a route (10 R270). -/
def State.noRoute (s : State) (pk : SPacket) : State :=
  { s with splice := { s.splice with noroute := satAdd 16 s.splice.noroute 1 } }.dropPacket pk

/-- A packet that has come on port `p` for another device goes on (10 R270, R272, R274). -/
def State.passOn (s : State) (p : Nat) (cls : Bool) (pk : SPacket) : State :=
  if s.splice.hoplimit < pk.hops + 1 then
    { s with splice := { s.splice with hoplimErr := satAdd 16 s.splice.hoplimErr 1 } }.dropPacket pk
  else match s.routeOf pk.dst.toNat with
    | none => s.noRoute pk
    | some out => s.enqueue out (some p) cls { pk with hops := pk.hops + 1 }

/-- The oldest packet of a lane that waits on a port. -/
def Port.head (x : Port) (lane : Nat) : Option OutPacket := x.inq.find? fun o => laneOf o.pkt.type.toNat == lane

/-- The packets behind one that has left its lane go on, up to the next for this device (10 R275). -/
def State.flowOn (s : State) (p lane : Nat) : Nat → State
  | 0 => s
  | n + 1 =>
    match (s.port p).head lane with
    | none => s
    | some o =>
      if o.pkt.dst = s.device then s
      else (((s.setPort p { s.port p with inq := (s.port p).inq.erase o }).freeBlocks p (poolOf lane o.cls) (blocksOf o.pkt)).passOn p o.cls o.pkt).flowOn
        p lane n

/-- A whole packet has come on a port, in a lane and a class (10 R267, R268, R270, R274). What is for this device waits in its
pool, and what follows it on its lane behind it (R275); a Spine message is handed to the Spine, for which it is a command of its own. Of packets
of another type or on another lane those of the request types are answered. -/
def State.arrive (s : State) (p : Nat) (lane : Nat) (cls : Bool) (pk : SPacket) : State :=
  let free (s : State) : State := s.freeBlocks p (poolOf lane cls) (blocksOf pk)
  if pk.dst = s.device then
    if !pk.ecrcOk then free { s with splice := { s.splice with ecrcErr := satAdd 16 s.splice.ecrcErr 1 } }
    else if !typeOk pk.type.toNat || laneOf pk.type.toNat ≠ lane then
      let s := (free s).countBad
      if isRequest pk then s.originate (replyTo s.device pk 6 []) else s
    else if 0x3C ≤ pk.type.toNat then free s
    else
      let s := s.count pk.dquire.toNat 6 pk.payload.length
      let s := s.payEnergy pk.dquire.toNat (36 * pk.payload.length)
      let x := s.port p
      s.setPort p { x with inq := x.inq ++ [{ pkt := pk, cls := cls, inp := some p }] }
  else if ((s.port p).head lane).isSome then
    s.setPort p { s.port p with inq := (s.port p).inq ++ [{ pkt := pk, cls := cls, inp := some p }] }
  else (free s).passOn p cls pk

/-- Collectives with packets in a port (11 R300). -/
def Port.collectives (x : Port) : List (Nat × Nat) :=
  let ps := x.outq.map (·.pkt) ++ x.replay.flatMap fun f => f.blocks.filterMap (·.packet)
  (ps.filter fun q => laneOf q.type.toNat == 2).map fun q => (bitsOf q.addr.toNat 0 12, bitsOf q.addr.toNat 12 32)

/-- A port fails (10 R285): its replay buffer is abandoned, its queued packets are routed again as they came (R272), the Spine is told. -/
def State.failPort (s : State) (p : Nat) (why : Nat) : State :=
  let x := s.port p
  let s := s.setPort p { x with
    state := .failed, why := why, live := false, replay := [], resend := none, outq := [], part := []
    abandon := satAdd 16 x.abandon x.replay.length }
  let s := x.outq.foldl (fun s o =>
    match s.routeOf o.pkt.dst.toNat with
    | some out => s.enqueue out o.inp o.cls o.pkt
    | none => s.noRoute o.pkt) s
  let s := x.collectives.foldl (fun s c => s.raiseColl c.1 c.2 3) s
  (s.alarm .portFailed p).watchRisk

/-- What the acknowledgement and credits of a good frame change (10 R260, R264). -/
def Port.acknowledge (x : Port) (fr : Frame) : Port :=
  let rest := match x.replay.findIdx? (·.fseq == fr.aseq) with
    | some i => x.replay.drop (i + 1)
    | none => x.replay
  let resend := match x.resend with
    | none => none
    | some q => if rest.any (·.fseq == q) then some q else rest.head?.map (·.fseq)
  let first := fr.nak && x.nakAt ≠ some fr.aseq
  { x with
    replay := rest
    resend := if first then rest.head?.map (·.fseq) else resend
    nakAt := if fr.nak then some fr.aseq else none
    freedByPeer := Sparse.setList 0 x.freedByPeer 0 (fr.credit.map (·.toNat))
    granted := true, peerKeyid := fr.keyid, rxIndex := x.rxIndex + natOf (fr.keyid != x.peerKeyid)
    peerClose := x.peerClose || fr.close
    state := if fr.close && x.isUp then .draining else x.state }

/-- Accept the blocks of a frame in order (10 R260). -/
def State.acceptBlocks (s : State) (p : Nat) (bs : List Block) : State :=
  bs.foldl (fun s b => match b.packet with
    | some pk => if b.stop then s.arrive p b.vl.val b.cls pk else s
    | none => s) s

/-- The keys of both directions at their indexes (10 R262, 13 R339): direction 0 is from the lower device to the higher. -/
def Port.rekey (x : Port) (self : Nat) : Port :=
  let dir := natOf (decide (x.peer < self))
  let at' (i d : Nat) : LinkKey := let v := Config.agreedKey x.secret (2 * i + d); { key := BitVec.ofNat 256 v, salt := BitVec.ofNat 32 (v / 2 ^ 256) }
  { x with txKey := at' x.txIndex dir, rxKey := at' x.rxIndex (1 - dir) }

/-- FRAME_RECEIVE (10 R259, R260): decoded, checked, and accepted or discarded. -/
def execFrameReceive (p : PortId) (fr : Frame) (s : State) : Out :=
  let x := s.port p.val
  let x := if x.carries then { x with fec := satAdd 32 x.fec fr.fixed } else x
  .next (if !x.carries then s
    else if !fr.fecOk then s.setPort p.val { x with uncorr := satAdd 16 x.uncorr 1, naking := true }
    else if !fr.crcOk then s.setPort p.val { x with crcfail := satAdd 16 x.crcfail 1, naking := true }
    else if !fr.tagOk then
      (s.setPort p.val { x with tagfail := satAdd 16 x.tagfail 1 }).failPort p.val 6 |>.alarm .tagForged p.val
    else
      let x := (x.acknowledge fr).rekey s.device.toNat
      let s := if fr.idle then s.setPort p.val x
        else if fr.fseq = x.rxSeq + 1 then
          (s.setPort p.val { x with rxSeq := fr.fseq, naking := false }).acceptBlocks p.val fr.blocks
        else s.setPort p.val { x with naking := true }
      s.setPort p.val (s.port p.val).settle)

/-- RETRY_TIMEOUT (10 R260). -/
def execRetryTimeout (p : PortId) (s : State) : Out :=
  let x := s.port p.val
  .next (if x.carries then s.setPort p.val { x with resend := x.replay.head?.map (·.fseq) } else s)

/-- SPLICE_KEY_CHANGE: the next key index, with a fresh frame counter (10 R262, 13 R339). -/
def execSpliceKeyChange (p : PortId) (s : State) : Out :=
  let x := s.port p.val
  .next (if x.carries then s.setPort p.val (Port.rekey { x with keyid := !x.keyid, txIndex := x.txIndex + 1, counter := 0 } s.device.toNat) else s)

/-- Take the oldest packet of a sort for this device that waits on a port; what waited behind it on its lane goes on (10 R275). -/
def State.consume (s : State) (p : Nat) (want : SPacket → Bool) : Option (SPacket × State) :=
  let x := s.port p
  (x.inq.find? fun o => o.pkt.dst == s.device && want o.pkt).map fun o =>
    let lane := laneOf o.pkt.type.toNat
    (o.pkt, ((s.setPort p { x with inq := x.inq.erase o }).freeBlocks p (poolOf lane o.cls) (blocksOf o.pkt)).flowOn p lane x.inq.length)

def copyFlag (p : SPacket) : Bool :=
  (p.type == 4 || p.type == 5) && p.word3.getLsbD 0

/-- Type, length, alignment and bounds of a request (10 R278 step 1). -/
def formOk (self : DeviceId) (p : SPacket) : Bool :=
  let a := p.addr.toNat
  let n := p.len
  let within (size : Nat) : Bool := a / size == (a + n - 1) / size
  bitsOf a 44 20 == self.toNat &&
  match p.type.toNat with
  | 1 => decide (1 ≤ n ∧ n ≤ 256) && within 256
  | 2 => decide (1 ≤ n ∧ n ≤ 256) && within 256 && p.payload.length == n
  | 3 => p.payload.length == 16 && amoOk p.op.toNat && a % amoSize p.op.toNat == 0
  | 4 => decide (1 ≤ n ∧ n ≤ 4096) && within (2 ^ 21) && p.payload.length == n
  | 5 => decide (1 ≤ n ∧ n ≤ 4096) && within (2 ^ 21)
  | _ => false

/-- The two ends of a copy (10 R279; 16 R395, R404): the copy quire here holds the copies of the sender's quire, or the sender's copy quire holds
those of the quire here, or of the one that a RESTORE here puts in place. -/
def State.copyPair (s : State) (p : SPacket) : Bool :=
  let q := s.quire p.dquire.toNat
  let src := p.src.toNat
  q.copyOf == some (src, p.squire.toNat) ||
    (q.use ≠ .free && q.copyOf.isNone && s.survive.partner == some src && q.copyNum == some p.squire.toNat) ||
    (match s.survive.restoring with
     | some r => r.device == src && r.copyNum == p.squire.toNat && (match r.copies with | c :: _ => c.quire == p.dquire | [] => false)
     | none => false)

/-- The local address and length of what a remote request reads or writes. -/
def remoteSpan (p : SPacket) : Nat × Nat := (bitsOf p.addr.toNat 0 44, if p.type = 3 then amoTarget p.op.toNat else p.len)

/-- The status of a refusal (10 Table 10-7). -/
def refusalStatus (f : Fail) : Nat := if f.code = cRegion then 1 else if f.code = cSeal then 2 else 4

/-- Perform a request that has passed steps 1 to 3 of 10 R278: its status and data. -/
def State.performRemote (s : State) (p : SPacket) : Nat × List Byte × State :=
  let q := p.dquire.toNat
  let (a, n) := remoteSpan p
  let r := s.region (a / 2 ^ 21)
  if r.quire == q && (r.state = .scrubbing || (s.quire q).use = .drained) then (7, [], s)
  else if p.type = 2 ∨ p.type = 4 then
    match s.writeSpan q false (copyFlag p) a p.payload with
    | (some f, s) => (refusalStatus f, [], s)
    | (none, s) => (0, [], s)
  else match s.readSpan q false (copyFlag p) a n with
    | (.error f, s) => (refusalStatus f, [], s)
    | (.ok bs, s) =>
      if p.type = 3 then
        let r := amoApply p.op.toNat bs (word (wordAt p.payload 0)) (word (wordAt p.payload 1))
        (0, leBytes 8 (leNat r.2), (s.chargeSpan q a n 1).writeBytes a r.1)
      else (0, bs, s)

/-- The checks of 10 R278 in their order, and the request performed. -/
def State.remoteAnswer (s : State) (p : SPacket) : Nat × List Byte × State :=
  if !formOk s.device p then (6, [], s)
  else if !(if copyFlag p = true then s.copyPair p else s.hasRight p.dquire.toNat p.src.toNat p.squire.toNat) then (3, [], s)
  else if s.memTop < (remoteSpan p).1 + (remoteSpan p).2 then (1, [], s)
  else s.performRemote p

/-- Bytes of a checkpoint have come to its copy quire; after the last the partner answers committed, and releases regions that
the checkpoint supersedes: which, the copies' own metadata says (16 R398 step 5; log 17). -/
def State.copyArrived (s : State) (q n : Nat) : State :=
  let x := s.quire q
  match x.incoming, x.copyOf with
  | some c, some (dev, src) =>
    let got := c.got + n
    if got < 2 ^ 21 * c.fresh.length then s.setQuire q { x with incoming := some { c with got := got } }
    else
      let s := s.setQuire q { x with incoming := none, number := c.number }
      let (f, s) := s.takeFree
      let old := s.mem.regions.filter fun r =>
        r.2.state == .assigned && r.2.quire == q && !c.fresh.contains r.1 && bitOf (Config.openValue 17 (f + 2 ^ 32 * r.1)) 0
      let s := old.foldl (fun s r => s.setRegion r.1 { r.2 with state := .scrubbing }) s
      s.sendSpine dev 0x3F ([2, BitVec.ofNat 8 src] ++ leBytes 2 0 ++ leBytes 4 c.number ++ leBytes 4 c.fresh.length)
  | _, _ => s

/-- The oldest request that waits on a port is held with the memory that it names: a stopped stack, a quiet channel, a region that is being
rewritten (09 R234, R238, R247). -/
def State.remoteHeld (s : State) (p : Nat) : Bool :=
  match (s.port p).inq.find? fun o => o.pkt.dst == s.device && isRequest o.pkt with
  | none => false
  | some o => s.spanWaits (remoteSpan o.pkt).1 (remoteSpan o.pkt).2

/-- REMOTE_REQUEST: the oldest request that waits on a port is checked, performed and answered (10 R278–R280). -/
def execRemoteRequest (p : PortId) (s : State) : Out :=
  .next (if s.remoteHeld p.val then s else match s.consume p.val isRequest with
    | none => s
    | some (k, s) =>
      let (st, data, s) := s.remoteAnswer k
      let s := if st = 0 ∧ k.type = 4 ∧ copyFlag k then s.copyArrived k.dquire.toNat k.len else s
      s.originate (replyTo s.device k st data))

def isResponse (p : SPacket) : Bool := decide (0x21 ≤ p.type.toNat ∧ p.type.toNat ≤ 0x25)

/-- REMOTE_WRITE_RESPONSE: the oldest response that waits on a port reaches its tile or transfer engine (10 R280, 11 R302). -/
def execRemoteWriteResponse (p : PortId) (s : State) : Out :=
  .next (match s.consume p.val isResponse with
    | none => s
    | some (k, s) => if k.tile = 0xFF then s.transferAnswer k else s.answerRemote k)

/-- Set an event line of a strand (03 R82). -/
def State.signal (s : State) (tile strand line : Nat) : State :=
  if tile < 192 then
    s.updTile (Fin.ofNat 192 tile) fun x => x.updStrand (Fin.ofNat 8 strand) fun r => r.pend (1#32 <<< line)
  else s

/-- EVENT_SIGNAL_PACKET (03 R82, 10 Table 10-6). -/
def execEventSignalPacket (p : PortId) (s : State) : Out :=
  .next (match s.consume p.val (·.type == 0x38) with
    | none => s
    | some (k, s) =>
      let w := wordAt k.payload 0
      s.signal (bitsOf w 0 8) (bitsOf w 8 3) (bitsOf w 11 5))

/-- esignal (03 R82): after the store condition, here or over the control lane. -/
def execEsignal (a : At) (f : RF) (s : State) : Out :=
  sysOp a [f.rd, f.rs2] [] (fun s =>
    s.needs a f.rs1 [5] (some 24) fun w =>
      let s := s.sendMerges a
      if !(s.tile a.t).storesDone a.h then .later s
      else
        let dev := w.field 64 20
        if dev = s.device.toNat then .done (s.signal (w.field 32 8) (w.field 40 3) (w.field 43 5))
        else .done (s.originate
          { dst := BitVec.ofNat 20 dev, src := s.device, type := 0x38
            dquire := BitVec.ofNat 4 ((s.peerQuire (s.tile a.t).quire.toNat dev).getD 0), squire := (s.tile a.t).quire, hops := 0
            addr := 0, len := 8, status := 0, txn := 0, tile := BitVec.ofNat 8 a.t.val, strand := BitVec.ofNat 3 a.h.val, op := 0
            word3 := 0, ecrcOk := true, payload := leBytes 8 (w.field 32 16) })) s

/-- COLLECTIVE_PACKET: the oldest collective packet that waits on a port is checked and used (11 R299). A number outside the window ends the
collective that the group has reached. -/
def execCollectivePacket (p : PortId) (s : State) : Out :=
  .next (match s.consume p.val fun k => laneOf k.type.toNat == 2 with
    | none => s
    | some (k, s) =>
      let g := bitsOf k.addr.toNat 0 12
      let seq := bitsOf k.addr.toNat 12 32
      match s.group g with
      | none => s.countBad
      | some x => match s.rankOf x k.src.toNat with
        | none => s.countBad
        | some r =>
          if !x.inWindow seq then s.raiseColl g x.nextseq 5
          else if !s.hasRight k.dquire.toNat k.src.toNat k.squire.toNat then s.raiseColl g seq 4
          else if bitsOf k.addr.toNat 44 20 ≠ x.gsig then s.raiseColl g seq 5
          else ((s.openColl g seq x).arrived g seq
            [{ type := k.type.toNat, rank := r, chunk := k.word3.toNat, bytes := k.payload }]).advanceColl g)

/-- Training begins (10 R282). -/
def Port.train (x : Port) : Port :=
  { Port.reset with
    en := x.en, halfok := x.halfok, rto := x.rto, drainto := x.drainto, dim := x.dim, minus := x.minus, member := x.member
    fec := x.fec, uncorr := x.uncorr, retry := x.retry, crcfail := x.crcfail, tagfail := x.tagfail, retrains := x.retrains
    abandon := x.abandon, inq := x.inq, state := .training }

/-- PORT_ENABLE: en := 1 trains a port that is off or failed (10 R282). -/
def State.enablePort (s : State) (p : Nat) : State :=
  let x := s.port p
  if x.state = .off ∨ x.state = .failed then s.setPort p (Port.train { x with en := true }) else s.setPort p { x with en := true }
def execPortEnable (p : PortId) (s : State) : Out := .next (s.enablePort p.val)

/-- LANE_ADAPTATION_DONE: both halves, or the other one where halfok permits (10 R282). -/
def execLaneAdaptationDone (p : PortId) (lowOk highOk : Bool) (s : State) : Out :=
  let x := s.port p.val
  .next (if x.state ≠ .training || x.step ≠ .adaptation then s
    else if (lowOk && highOk) || ((lowOk || highOk) && x.halfok) then
      s.setPort p.val { x with lowOk := lowOk, highOk := highOk, highHalf := highOk && !lowOk, step := .alignment }
    else s.failPort p.val 1)

/-- ALIGNMENT_DONE (10 R282). -/
def execAlignmentDone (p : PortId) (ok : Bool) (s : State) : Out :=
  let x := s.port p.val
  .next (if x.state ≠ .training || x.step ≠ .alignment then s
    else if ok then s.setPort p.val { x with step := .keys } else s.failPort p.val 2)

/-- The neighbour that PORT_CFG implies for a member port (10 R269); none beyond the end of a line. -/
def State.neighbour (s : State) (x : Port) : Option Nat :=
  let k := (s.dim x.dim).size
  let c := s.coord s.device.toNat x.dim
  let dev (c' : Nat) : Nat := s.device.toNat - c * s.dimStride x.dim + c' * s.dimStride x.dim
  if (s.dim x.dim).ring then some (dev (if x.minus then (c + k - 1) % k else (c + 1) % k))
  else if x.minus then (if c = 0 then none else some (dev (c - 1)))
  else if c + 1 < k then some (dev (c + 1)) else none

/-- The place of port `p` among the members of its bundle (10 R269, R271). -/
def State.memberSlot (s : State) (p : Nat) : Nat :=
  ((List.range p).filter fun q => (s.port q).member && (s.port q).dim == (s.port p).dim && (s.port q).minus == (s.port p).minus).length

/-- The peer's port is the one that member port `p` must be cabled to: the member of the same place in the neighbour's opposite bundle (10 R269). -/
def State.cabledRight (s : State) (p : Nat) (o : PeerOffer) : Bool :=
  let x := s.port p
  s.neighbour x == some o.device.toNat && o.dim == x.dim && o.minus != x.minus && o.slot == s.memberSlot p

/-- The security version that a Splice peer must have (13 R339, Table 13-5). -/
def State.peerSvn (s : State) : Nat := (s.flash.owners.getLast?.map (·.peersvn)).getD 0

/-- KEY_EXCHANGE_DONE: identities and keys; the counts start at zero and the port is up (10 R264, R282; 13 R339). -/
def execKeyExchangeDone (p : PortId) (o : PeerOffer) (s : State) : Out :=
  let x := s.port p.val
  .next (if x.state ≠ .training || x.step ≠ .keys then s
    else if !o.chainOk || decide (o.svn < s.peerSvn) then s.failPort p.val 4
    else if x.member && !s.cabledRight p.val o then s.failPort p.val 3
    else
      let (f, s) := s.takeFree
      s.setPort p.val (Port.rekey { x with
        state := if x.lowOk && x.highOk then .up else .half
        peer := o.device.toNat, pport := o.port.val, incarnation := o.incarnation.toNat, secret := f, txIndex := 0, rxIndex := 0, counter := 0 }
        s.device.toNat))

/-- PORT_RETRAIN_REQUEST (10 R283). -/
def execPortRetrainRequest (p : PortId) (s : State) : Out := .next (s.startLive p.val)
/-- ADAPTATION_LOSS (15 R380, 10 R283). -/
def execAdaptationLoss (p : PortId) (s : State) : Out := .next (s.startLive p.val)

/-- LIVE_RETRAIN_DONE: the replay buffer resends, or the port fails: for retry where a frame had been resent 8 times (10 R261, R283). -/
def execLiveRetrainDone (p : PortId) (ok : Bool) (s : State) : Out :=
  let x := s.port p.val
  .next (if !x.live then s
    else if ok then s.setPort p.val { x with
      live := false, resend := x.replay.head?.map (·.fseq), replay := x.replay.map fun f => { f with resent := 0 } }
    else s.failPort p.val (if x.replay.any (8 ≤ ·.resent) then 5 else 1))

/-- PORT_DISABLE: en := 0 drains a port that is up (10 R284); one in training or failed goes off. -/
def State.disablePort (s : State) (p : Nat) : State :=
  let x := s.port p
  if x.isUp then s.setPort p (Port.settle { x with en := false, state := .draining, live := false })
  else if x.state = .draining then s.setPort p { x with en := false }
  else s.setPort p { x with en := false, state := .off }
def execPortDisable (p : PortId) (s : State) : Out := .next (s.disablePort p.val)

/-- PORT_DRAIN_TIMEOUT: what remains is abandoned and counted in frames (10 R284). -/
def execPortDrainTimeout (p : PortId) (s : State) : Out :=
  let x := s.port p.val
  let left := x.replay.length + ceilDiv ((x.outq.map fun o => blocksOf o.pkt).sum) 25
  .next (if x.state ≠ .draining then s
    else (s.setPort p.val { x with
      state := .off, outq := [], part := [], replay := [], resend := none, abandon := satAdd 16 x.abandon left }).alarm .portAbandoned p.val)

/-- SPLICE_CONNECTOR_MATED: a failed port trains again (17 R414). -/
def execSpliceConnectorMated (p : PortId) (s : State) : Out :=
  let x := s.port p.val
  .next (if x.state = .failed ∧ x.en then s.setPort p.val x.train else s)

end Sys2Proof.Machine
end

