-- ==== Sys2Proof/Machine/Host.lean ====
section
/-! DEFINITION. The gateway of the command protocol (12 R306–R317): sessions, the request window, stored replies, roles, what a quire's
state permits, and the two phases of a reply. -/

namespace Sys2Proof.Machine

/-- Status codes, 12 Table 12-3. -/
abbrev stOk : Nat := 0x0000
abbrev stPending : Nat := 0x0001
abbrev stDraining : Nat := 0x0002
abbrev stNotReady : Nat := 0x0100
abbrev stBusy : Nat := 0x0101
abbrev stDenied : Nat := 0x0200
abbrev stBadSession : Nat := 0x0201
abbrev stBadParam : Nat := 0x0300
abbrev stNoResource : Nat := 0x0301
abbrev stPolicy : Nat := 0x0302
abbrev stFailed : Nat := 0x0400
abbrev stLost : Nat := 0x0401

/-- What a command answers: at once; in two phases with the second still to come; or in two phases one after the other (12 R313). -/
inductive Res where
  | done (status : Nat) (tlvs : List Tlv) (s : State)
  | pend (status : Nat) (tlvs : List Tlv) (w : Wait) (s : State)
  | both (first : Nat) (ftlvs : List Tlv) (status : Nat) (tlvs : List Tlv) (s : State)

/-- The detail TLV of a reply that is not OK (12 R309). -/
def detail (n : Nat) : List Tlv := if n = 0 then [] else [{ type := 0xF0, vals := [n] }]

/-- The stage byte (15 R369). -/
def State.stageByte (s : State) : Nat := s.boot.stage + 8 * s.boot.reason
/-- Bring-up has completed (15 R367). -/
def State.isReady (s : State) : Bool := s.boot.stage == 7

def State.setSession (s : State) (id : Nat) (x : Option Session) : State :=
  { s with net := { s.net with sessions := Sparse.set none s.net.sessions id x } }

/-- A packet is discarded and counted (12 R311, Table 12-17). -/
def State.dropPkt (s : State) (e : Nat) : State := s.setEth e { s.eth e with drop := satAdd 16 (s.eth e).drop 1 }

/-- A tag that fails is counted (12 R321, Table 12-17). -/
def State.badTag (s : State) (e : Nat) : State := s.setEth e { s.eth e with tagfail := satAdd 16 (s.eth e).tagfail 1 }

/-- The port that a reply leaves by: the one its request came on, else as a notice (12 R306, R324). -/
def State.replyPort (s : State) (x : Session) (e : Nat) : Nat :=
  if (s.eth e).isUp || (s.eth e).state == .draining then e else (s.noticePort x).getD e

/-- Send a reply to a request that came from `src` on port `e`; a final one joins the 16 that the session keeps (12 R306, R311). A closed
session's replies are discarded (R315). -/
def State.reply (s : State) (id seq op phase status : Nat) (tlvs : List Tlv) (e src : Nat) : State :=
  match s.session id with
  | none => s
  | some x =>
    let o := s.replyPort x e
    let r : Reply := { session := id, seq := seq, opcode := op, phase := phase, status := status, tlvs := tlvs, clear := false
                       port := o, dest := if o = e then src else x.dest o, most := x.maxPayload }
    let final := phase == 1 || (status ≠ stPending && status ≠ stDraining) || !(s.net.requests.any fun q => q.session == id && q.seq == seq)
    let s := s.send (.reply r)
    if final then s.setSession id (some { x with stored := (x.stored ++ [r]).drop ((x.stored.length + 1) - 16) }) else s

/-- A reply in the clear, to a packet that no key decrypts (12 R308); 1,280 bytes are the least payload that a host may declare (R310). -/
def State.replyClear (s : State) (c : Hdr) (op status : Nat) (tlvs : List Tlv) : State :=
  s.send (.reply { session := 0, seq := c.seq, opcode := op, phase := 0, status := status, tlvs := tlvs, clear := true, port := c.port.val
                   dest := c.source, most := 1280 })

/-- The final reply of a request that waited, and its place among the outstanding ones is free (12 R312, R313). -/
def State.finish (s : State) (r : Request) (status : Nat) (tlvs : List Tlv) : State :=
  { s with net := { s.net with requests := s.net.requests.erase r } }.reply r.session r.seq r.opcode 1 status tlvs r.port r.source

/-- Finish every request that waits for something. -/
def State.finishWhere (s : State) (p : Wait → Bool) (status : Nat) (tlvs : List Tlv) : State :=
  (s.net.requests.filter fun r => p r.wait).foldl (fun s r => s.finish r status tlvs) s

def State.outstanding (s : State) (id : Nat) : Nat := (s.net.requests.filter (·.session == id)).length

/-- A bulk transfer ends: with done, or with an abort packet, and with the phase 1 reply of its command (12 R323). -/
def State.endBulk (s : State) (b : Bulk) (status det : Nat) (tlvs : List Tlv) : State :=
  let s : State := { s with net := { s.net with bulks := s.net.bulks.filter (·.xid ≠ b.xid) } }
  let s := s.send (if status = stOk then .done b.xid else .abort b.xid status det)
  s.finishWhere (· == .bulk b.xid) status (tlvs ++ detail det)

/-- A session ends: its transfers are cancelled and its subscriptions end; what has begun runs on without a reply (12 R315, R323). -/
def State.closeSession (s : State) (id : Nat) : State :=
  let s := s.setSession id none
  let s := (s.net.bulks.filter (·.session == id)).foldl (fun s b => s.endBulk b stLost 0 []) s
  { s with net := { s.net with subs := s.net.subs.filter (·.session ≠ id) } }

/-- Commands that any session may issue (12 R315). -/
def anyOp (op : Nat) : Bool := op ∈ [0x0001, 0x0002, 0x0003, 0x0004, 0x0005, 0x0100, 0x0501, 0x0A03]
/-- Commands of the device owner and the quire owner alike (12 Tables 12-5 to 12-15). -/
def bothOp (op : Nat) : Bool :=
  op ∈ [0x0103, 0x0201, 0x0203, 0x0205, 0x0304, 0x0305, 0x0500, 0x0502, 0x0604, 0x0705, 0x0802, 0x0900, 0x0901]
/-- Commands of the quire owner alone. -/
def quireOnlyOp (op : Nat) : Bool :=
  op ∈ [0x0300, 0x0301, 0x0302, 0x0303, 0x0400, 0x0401, 0x0402, 0x0403, 0x0404, 0x0601, 0x0602, 0x0605, 0x0904]
/-- Commands processed before bring-up has completed (12 R316). -/
def earlyOp (op : Nat) : Bool :=
  op ∈ [0x0001, 0x0002, 0x0003, 0x0004, 0x0005, 0x0100, 0x0501, 0x0A00, 0x0A01, 0x0A02, 0x0A03]
/-- Commands that name the quire of the header whoever issues them. -/
def quireOp (op : Nat) : Bool := quireOnlyOp op || op ∈ [0x0201, 0x0202, 0x0203, 0x0204, 0x0205, 0x0500, 0x0502, 0x0604]
/-- The queries of 16 R413. -/
def queryOp (op : Nat) : Bool :=
  op ∈ [0x0201, 0x0103, 0x0502, 0x0604, 0x0601, 0x0500, 0x0802, 0x0904, 0x0403, 0x0304, 0x0301]
/-- Every opcode of Tables 12-5 to 12-15. -/
def knownOp (op : Nat) : Bool :=
  anyOp op || bothOp op || quireOnlyOp op ||
    op ∈ [0x0006, 0x0007, 0x0008, 0x0009, 0x0101, 0x0102, 0x0104, 0x0105, 0x0200, 0x0202, 0x0204, 0x0600, 0x0603, 0x0606, 0x0607,
          0x0700, 0x0701, 0x0702, 0x0703, 0x0704, 0x0706, 0x0800, 0x0801, 0x0803, 0x0902, 0x0903, 0x0A00, 0x0A01, 0x0A02]

/-- The role permits the command (12 R315, R317). -/
def Role.permits (r : Role) (op quire : Nat) : Bool :=
  anyOp op || (match r with
    | .noRole => false
    | .owner => !quireOnlyOp op
    | .quire q => (bothOp op || quireOnlyOp op) && q == quire)

/-- What the state of the quire named has to say (12 R312; 13 R333; 16 R398, R413). -/
def State.quireGate (s : State) (r : Role) (op quire : Nat) : Option Nat :=
  let x := s.quire quire
  let owner := match r with | .quire _ => true | _ => false
  if 16 ≤ quire || (x.use == .free && !(op == 0x0201 && x.discarding)) then some stDenied
  else if x.use = .free then none
  else if x.use = .scrubbing then (if op = 0x0201 then none else some (if owner then stDenied else stBusy))
  else if x.use = .draining && !queryOp op then some stDraining
  else if x.use = .drained && !queryOp op && op ≠ 0x0204 then some stDraining
  else match s.survive.freeze with
    | some f => if f.quire == quire && !queryOp op && op ≠ 0x0203 && op ≠ 0x0204 && op ≠ 0x0303 then some stBusy else none
    | none => none

/-- A request TLV of a command's table: whether it must be there, and the lengths that fit it: `lo` to `hi` by steps (12 R309, R428). -/
structure TlvSpec where
  type : Nat
  need : Bool
  lo : Nat
  hi : Nat
  step : Nat

/-- A required TLV of one length, an optional one, and one of any length in a range. -/
def TlvSpec.must (t n : Nat) : TlvSpec := ⟨t, true, n, n, 1⟩
def TlvSpec.may (t n : Nat) : TlvSpec := ⟨t, false, n, n, 1⟩
def TlvSpec.span (t lo hi step : Nat) : TlvSpec := ⟨t, true, lo, hi, step⟩
def TlvSpec.mayspan (t lo hi step : Nat) : TlvSpec := ⟨t, false, lo, hi, step⟩

/-- B1 to B5 from a type on (12 Table 12-8): an address with its UDP port is 6 or 18 bytes. -/
def bulkSpecs (t : Nat) : List TlvSpec :=
  [.may t 2, .may (t + 1) 2, .may (t + 2) 1, .mayspan (t + 3) 6 18 12, .mayspan (t + 4) 6 18 12]

open TlvSpec in
/-- The request TLVs of a command (12 Tables 12-4 to 12-15); the lengths of values that the tables do not size are log 104. -/
def tlvSpecs (op : Nat) : List TlvSpec :=
  match op with
  | 0x0001 => [must 1 48, must 2 97, must 3 1568, must 4 2]
  | 0x0002 => [must 1 1, span 2 1 65535 1, must 3 48, must 4 384, must 5 16224]
  | 0x0004 => [must 1 97, must 2 1568]
  | 0x0005 => [span 1 0 64 1]
  | 0x0007 | 0x0103 | 0x0203 | 0x0304 | 0x0305 | 0x0502 | 0x0600 | 0x0603 => [must 1 4]
  | 0x0008 => [must 1 1, may 2 17, may 3 5, may 4 2, may 5 1, may 6 1, may 7 2, may 8 2]
  | 0x0009 => [must 1 1, must 2 1]
  | 0x0104 | 0x0105 => [must 1 8]
  | 0x0200 => [must 1 24, span 2 8 65528 8, mayspan 3 8 65528 8, must 4 3, must 5 2, may 6 4, mayspan 7 9 72 9, span 8 1 65535 1, must 9 48]
  | 0x0202 => [may 1 3, may 2 2, mayspan 3 0 72 9, mayspan 4 8 65528 8]
  | 0x0300 => [must 1 1, must 2 8, must 3 8, may 4 48] ++ bulkSpecs 5
  | 0x0301 => [must 1 8, span 2 4 8 4]
  | 0x0302 => [must 1 8, span 2 0 65535 1]
  | 0x0303 => [must 1 1, must 2 8, must 3 8] ++ bulkSpecs 4
  | 0x0400 => [must 1 24, must 2 1, must 3 8]
  | 0x0401 => [must 1 24, must 2 1]
  | 0x0402 | 0x0403 => [must 1 24]
  | 0x0404 => [must 1 1, must 2 1, must 3 1]
  | 0x0500 => [must 1 48]
  | 0x0602 => [span 1 4 8 4]
  | 0x0605 => [span 1 4 65532 4]
  | 0x0606 | 0x0703 | 0x0802 | 0x0901 | 0x0904 => [must 1 2]
  | 0x0700 => [must 1 4, must 2 40, may 3 2]
  | 0x0701 => [must 1 1, mayspan 2 1 4 1, mayspan 3 1 4 1, mayspan 4 1 4 1, mayspan 5 1 4 1, mayspan 6 1 4 1, mayspan 7 1 4 1]
  | 0x0702 => [must 1 2, must 2 1]
  | 0x0704 => [span 1 1 65535 1]
  | 0x0705 => bulkSpecs 1
  | 0x0706 => must 1 1 :: bulkSpecs 2
  | 0x0800 => [mayspan 1 1 8 1, mayspan 2 1 8 1, mayspan 3 1 8 1, may 4 32]
  | 0x0900 => [must 1 1, span 2 6 18 12]
  | 0x0902 => [must 1 8, must 2 4]
  | 0x0903 => [may 1 1]
  | 0x0A00 => span 1 4 8 4 :: bulkSpecs 2
  | 0x0A02 => [must 1 1]
  | _ => []

/-- A TLV is at fault: its type is unknown and critical, or its length does not fit its type (12 R309). -/
def badTlv (l : List TlvSpec) (t : TlvHead) : Bool :=
  match l.find? fun x => x.type == t.type % 2 ^ 15 with
  | none => decide (2 ^ 15 ≤ t.type)
  | some x => decide (t.len < x.lo) || decide (x.hi < t.len) || decide ((t.len - x.lo) % x.step ≠ 0)

/-- The type of the first TLV that is at fault, or else of one that is missing (12 R309, R428). -/
def defectOf (c : Hdr) (op : Nat) : Option Nat :=
  match c.tlvs.find? (badTlv (tlvSpecs op)) with
  | some t => some t.type
  | none => ((tlvSpecs op).find? fun x => x.need && !c.tlvs.any fun t => t.type % 2 ^ 15 == x.type).map (·.type)

/-- The packet has the magic number, and its UDP payload the length that its header gives (12 R307). -/
def packetOk (c : Hdr) : Bool := c.magic == 0x4B5A && c.udp == 32 + c.plen + (if c.clear then 0 else 16)

/-- What is answered before a command is looked at (12 R309, R312, R315–R317; 13 R333). -/
def State.gate (s : State) (r : Role) (c : Hdr) (op : Nat) : Option (Nat × List Tlv) :=
  let scrubbed := match r with | .quire q => (s.quire q).use == .scrubbing && !(op ∈ [0x0201, 0x0005, 0x0100, 0x0003]) | _ => false
  let names := quireOp op || (match r with | .quire _ => !anyOp op | _ => false)
  if !s.isReady && !earlyOp op then some (stNotReady, [])
  else if !knownOp op then some (stBadParam, [])
  else if scrubbed || !r.permits op c.quire then some (stDenied, [])
  else match defectOf c op with
    | some t => some (stBadParam, [{ type := 0xF1, vals := [t] }])
    | none => if names then (s.quireGate r op c.quire).map fun st => (st, []) else none

/-- A command runs, and its first reply goes out. -/
def State.runCommand (s : State) (c : Hdr) (op : Nat) (r : Res) : State :=
  match r with
  | .done st tlvs s => s.reply c.session c.seq op 0 st tlvs c.port.val c.source
  | .pend st tlvs w s =>
    let q : Request := { session := c.session, seq := c.seq, opcode := op, port := c.port.val, source := c.source, wait := w }
    { s with net := { s.net with requests := s.net.requests ++ [q] } }.reply c.session c.seq op 0 st tlvs c.port.val c.source
  | .both a ft b tlvs s =>
    let q : Request := { session := c.session, seq := c.seq, opcode := op, port := c.port.val, source := c.source, wait := .restore }
    ({ s with net := { s.net with requests := s.net.requests ++ [q] } }.reply c.session c.seq op 0 a ft c.port.val c.source).finish q b tlvs

def Session.accept (x : Session) (seq : Nat) : Session :=
  let high := max x.high seq
  { x with high := high, seen := (seq :: x.seen).filter fun n => decide (high < n + 64) }

/-- A request that repeats an accepted number (12 R311). -/
def State.repeated (s : State) (x : Session) (c : Hdr) (op : Nat) : State :=
  if !c.retry then s.dropPkt c.port.val
  else match x.stored.find? (·.seq == c.seq) with
    | some r => s.send (.reply { r with port := c.port.val, dest := c.source })
    | none =>
      if s.net.requests.any fun q => q.session == c.session && q.seq == c.seq then
        s.send (.reply { session := c.session, seq := c.seq, opcode := op, phase := 0, status := stPending, tlvs := [], clear := false,
                         port := c.port.val, dest := c.source, most := x.maxPayload })
      else s.dropPkt c.port.val

/-- An accepted request: refused by the gateway, or run (12 R311, R312). -/
def State.accepted (s : State) (c : Hdr) (op : Nat) (run : State → Session → Res) : State :=
  match s.session c.session with
  | none => s
  | some x =>
    if c.version ≠ 1 then s.reply c.session c.seq op 0 stBadParam [] c.port.val c.source
    else if 16 ≤ s.outstanding c.session then s.reply c.session c.seq op 0 stBusy [] c.port.val c.source
    else match s.gate x.role c op with
      | some (st, tlvs) => s.reply c.session c.seq op 0 st tlvs c.port.val c.source
      | none => s.runCommand c op (run s x)

/-- The session's last request came by this packet (12 R306). -/
def Session.heard (x : Session) (c : Hdr) : Session :=
  let isA := decide (c.port.val / 4 = 0)
  { x with port := c.port.val, source := c.source
           sourceA := if isA then some c.source else x.sourceA, sourceB := if isA then x.sourceB else some c.source }

/-- The number has been accepted before: it is in the window, its reply is stored, or its command still runs (12 R311). -/
def State.acceptedSeq (s : State) (x : Session) (c : Hdr) : Bool :=
  x.seen.contains c.seq || (x.stored.any (·.seq == c.seq)) || s.net.requests.any fun q => q.session == c.session && q.seq == c.seq

/-- One part of a message joins those that have come before it; whether the message is now whole (12 R310). A message of more than 256 KiB is
discarded. -/
def State.joinPart (s : State) (c : Hdr) (op : Nat) : Bool × State :=
  if c.part = 0 && !c.more then (true, s)
  else
    let mine (h : HeldMessage) : Bool := h.session == c.session && h.seq == c.seq && h.opcode == op && h.source == c.source
    let h := (s.net.held.find? mine).getD { session := c.session, seq := c.seq, opcode := op, source := c.source, got := [], last := none }
    let h := { h with got := if h.got.any (·.1 == c.part) then h.got else (c.part, c.plen) :: h.got, last := if c.more then h.last else some c.part }
    let t : State := { s with net := { s.net with held := s.net.held.filter fun o => !mine o } }
    if 2 ^ 18 < (h.got.map (·.2)).sum then (false, t.dropPkt c.port.val)
    else if h.last.any fun n => (List.range (n + 1)).all fun i => h.got.any (·.1 == i) then (true, t)
    else (false, { t with net := { t.net with held := t.net.held ++ [h] } })

/-- A request packet comes on a port (12 R306–R317; 15 Table 15-1): checked, decrypted, joined with the other parts of its message, and accepted
or answered. A number that reaches 0xFFFF_FF00 closes the session (R314). -/
def State.command (s : State) (c : Hdr) (op : Nat) (run : State → Session → Res) : State :=
  if !(s.eth c.port.val).isUp || !s.spineUp || decide (s.boot.stage < 3) then s
  else if !packetOk c || c.clear then s.dropPkt c.port.val
  else match s.session c.session with
    | none => s.replyClear c op stBadSession []
    | some x =>
      if !(c.epoch == x.epoch || (x.graced && c.epoch + 1 == x.epoch)) then s.replyClear c op stBadSession []
      else if !c.tagOk then s.badTag c.port.val
      else match (s.setSession c.session (some (x.heard c))).joinPart c op with
        | (false, s) => s
        | (true, s) =>
          if 0xFFFFFF00 ≤ c.seq then (s.reply c.session c.seq op 0 stBadSession [] c.port.val c.source).closeSession c.session
          else if s.acceptedSeq x c then s.repeated x c op
          else if c.seq + 64 ≤ x.high then s.dropPkt c.port.val
          else (s.setSession c.session (some ((x.heard c).accept c.seq))).accepted c op run

/-- UNKNOWN_OPCODE: BAD_PARAM (12 R313, Table 12-3). -/
def execUnknownOpcode (c : Hdr) (op : BitVec 16) (s : State) : Out :=
  .next (s.command c op.toNat fun s _ => .done stBadParam [] s)

/-- COMMAND_PACKET_DISCARD: counted in ETH_ERR, without a reply (12 R307, R311, R321, Tables 12-1, 12-17). -/
def execCommandPacketDiscard (e : EthId) (why : DiscardWhy) (s : State) : Out :=
  let x := s.eth e.val
  .next (if !x.isUp then s
    else match why with
      | .fcs => s.setEth e.val { x with fcs := satAdd 16 x.fcs 1 }
      | .tag => s.setEth e.val { x with tagfail := satAdd 16 x.tagfail 1 }
      | _ => s.dropPkt e.val)

/-- MESSAGE_PART_TIMEOUT: the parts of a message that is not whole after 1 s are discarded (12 R310). -/
def execMessagePartTimeout (session seq : Nat) (s : State) : Out :=
  .next { s with net := { s.net with held := s.net.held.filter fun h => !(h.session == session && h.seq == seq) } }

/-- Entries of a reply as TLVs of one type, as many to each as its length holds (12 R310). -/
def pages (type per : Nat) : Nat → List Nat → List Tlv
  | 0, _ => []
  | k + 1, vs => if vs.length ≤ per then [{ type := type, vals := vs }] else { type := type, vals := vs.take per } :: pages type per k (vs.drop per)

end Sys2Proof.Machine
end

