-- ==== Sys2Proof/Machine/Registers.lean ====
section
/-! DEFINITION. The values of the registers of control space (01 R8–R10, Tables 01-5 to 01-11; 02 Tables 02-10, 02-11; 03 Tables 03-15, 03-16;
05 Table 05-8; 06 Tables 06-10 to 06-12; 07 Tables 07-2, 07-10; 08 Tables 08-4 to 08-6; 09 Tables 09-9, 09-10; 10 Table 10-11;
12 Table 12-17; 14 Table 14-4; 15 Table 15-4; 16 Tables 16-3, 16-5). What no table places reads zero (R9). -/

namespace Sys2Proof.Machine

def Island.rateWord (i : Island) : Word := word (i.rate % 2 ^ 16 + 2 ^ 16 * (i.mv % 2 ^ 10) + 2 ^ 32 * (i.planseq % 2 ^ 16))
def Delay.word (d : Delay) : Word :=
  Sys2Proof.word (d.step % 256 + 2 ^ 8 * (d.margin % 256) + 2 ^ 16 * (d.longer % 2 ^ 16) + 2 ^ 32 * (d.shorter % 2 ^ 16) + 2 ^ 48 * natOf d.limit)

/-- TILE_IDENT (01 Table 01-6); `arrays` is present once the manufacturing record is applied (15 R373). -/
def State.tileIdent (s : State) (t : TileId) : Word :=
  let arrays := if s.boot.record.isSome then (if s.grade768 then 15 else 7) else 0
  word (t.val + 2 ^ 8 * islandOf t + 2 ^ 12 * dieOf t + 2 ^ 16 * (t.val % 16) + 2 ^ 20 * (t.val / 16) + 2 ^ 24 * arrays)

def RunState.code : RunState → Nat
  | .running => 0 | .parked => 1 | .halted => 2 | .stopped => 3

/-- A load or atomic of the strand still awaits data: one whose failure has come awaits none (02 Table 02-10). -/
def Strand.awaits (r : Strand) : Bool := r.loads.any fun l => l.parts.any (·.isOpen)

/-- STRAND_CTL (02 Table 02-10). -/
def Strand.ctlWord (r : Strand) : Word :=
  word (r.run.code + 4 * natOf r.awaits + 8 * natOf r.lineBuf.isSome + 16 * (min r.sb.length 8))

/-- The registers of a strand block, by offset. -/
def Strand.reg (r : Strand) (off : Nat) : Word :=
  match off with
  | 0x00 => r.ctlWord
  | 0x08 => (r.pc.setWidth 48).setWidth 64
  | 0x40 => r.xsp
  | 0x48 => r.xvec
  | 0x50 => r.status.word
  | 0x58 => r.cause
  | 0x60 => r.faultaddr
  | 0x68 => r.evtPend.setWidth 64
  | 0x70 => r.evtEn.setWidth 64
  | 0x78 => r.cmp
  | 0x80 => r.gspill
  | 0x88 => r.bsCause.setWidth 64
  | 0x90 => r.bsAddr
  | 0x98 => r.bsCount.setWidth 64
  | 0xA0 => r.wxLo
  | 0xA8 => (r.wx >>> 64).setWidth 64
  | 0xB0 => r.tfault
  | 0xB8 => r.tfaultIa.setWidth 64
  | 0xC0 => r.stepRec
  | 0xC8 => r.stepPos
  | _ => 0

/-- ARRAY_STATE (06 Table 06-10). -/
def State.arrayState (s : State) (t : TileId) : Word :=
  let x := s.tile t
  let one (i : Nat) : Nat := if i = 3 ∧ !s.grade768 then 3 else if x.arrOff.getLsbD i then 0 else if x.hold then 2 else 1
  let fed := (x.tq.filter fun o => o.begun && decide (0 < x.rowsFed o)).length
  let w := match x.weights with
    | none => 0
    | some w => 2 ^ 32 * w.fmt + 2 ^ 36 * w.sparse + 2 ^ 38 * natOf w.mx + 2 ^ 39 * natOf w.uns
  word (one 0 + 4 * one 1 + 16 * one 2 + 64 * one 3 + 2 ^ 8 * (fed % 256) + 2 ^ 16 * (x.wcur % 2 ^ 16) + w)

/-- A register of the tile control block that holds its value by itself; BEAT_COUNT and INTERVAL_COUNT are read by `ctlTile`. -/
def State.tileReg (s : State) (t : TileId) (off : Nat) : Word :=
  let x := s.tile t
  let i := s.island (islandOf t)
  if 0x1000 ≤ off ∧ off < 0x1800 then (x.strand (Fin.ofNat 8 ((off - 0x1000) / 0x100))).reg (off % 0x100)
  else if 0x1840 ≤ off ∧ off < 0x1880 then
    let w := Sparse.get 0 x.bw ((off - 0x1840) / 16)
    if off % 16 = 0 then w.setWidth 64 else (w >>> 64).setWidth 64
  else if 0x20100 ≤ off ∧ off < 0x20180 then x.pfState ((off - 0x20100) / 8)
  else match off with
    | 0x0000 => s.tileIdent t
    | 0x0008 => word x.beats
    | 0x0010 => word i.ticks
    | 0x0018 => i.ringCal
    | 0x0020 => i.rateWord
    | 0x0028 => x.delay.word
    | 0x0030 => x.notice
    | 0x1800 => x.bsBase
    | 0x1808 => x.bsPhys
    | 0x1810 => word (x.floor.toNat + 2 ^ 16 * x.quire.toNat + 2 ^ 20 * natOf x.assigned)
    | 0x1818 => x.ptRoot
    | 0x10000 => x.cfg
    | 0x10100 => x.flags.setWidth 64
    | 0x10200 => s.arrayState t
    | 0x10208 => word (natOf x.hold + 2 * natOf x.smooth)
    | 0x10210 => word x.wgen
    | 0x10218 => word x.wcur
    | 0x20000 => x.tsCtl
    | 0x20008 => word (x.tsCorr + 2 ^ 16 * x.tsUncorr + 2 ^ 32 * natOf x.tsFail)
    | 0x20010 => word x.tsAddr
    | 0x30000 => word x.egBal
    | 0x30008 => word (x.egRefill + 2 ^ 32 * x.egCap)
    | 0x30010 => word (natOf x.egStarved + 2 ^ 16 * x.egWaits)
    | 0x30018 => x.egSpent
    | 0x30020 => word (x.egDummy / 330)
    | _ => 0

def ChanState.code : ChanState → Nat
  | .live => 0 | .retraining => 1 | .source => 2 | .mappedOut => 3 | .dead => 4 | .untrained => 7
def RestripeState.code : RestripeState → Nat
  | .idle => 0 | .running => 1 | .waiting => 2 | .paused => 3
def RegionState.code : RegionState → Nat
  | .free => 0 | .assigned => 1 | .lost => 2 | .scrubbing => 3 | .rotating => 4 | .condemned => 5 | .held => 6

def Stack.tempWord (st : Stack) : Word := word (st.temp + 2 ^ 10 * st.level + 2 ^ 32 * st.stopms)
def Mem.ilCfg (m : Mem) : Word := word (m.n + 2 ^ 10 * m.ctop)
def Mem.restripeWord (m : Mem) : Word := word (m.restripe.code + 4 * m.target + 2 ^ 12 * m.oldidx + 2 ^ 22 * m.share)

/-- CHMAPk (09 Table 09-9). -/
def State.chmapWord (s : State) (k : Nat) : Word :=
  let m := chmapWithout s.mem.removed
  word (((List.range 4).map fun i => 2 ^ (16 * i) * (m.getD (4 * k + i) 0x3FF)).sum)

/-- A register of a Tailband (09 Tables 09-9, 09-10). -/
def State.stackReg (s : State) (m : StackId) (off : Nat) : Word :=
  let st := s.stackOf m.val
  if 0x1000 ≤ off ∧ off < 0x1200 then
    let ch := s.chan (32 * m.val + (off - 0x1000) / 16)
    if off % 16 = 0 then word (ch.state.code + 2 ^ 16 * (ch.retrains % 2 ^ 16) + 2 ^ 32 * (ch.fails % 256))
    else word (ch.corr + 2 ^ 32 * ch.uncorr + 2 ^ 48 * ch.odecc)
  else if 0x2000 ≤ off ∧ off < 0x2110 then
    let r := st.regulator ((off - 0x2000) / 16)
    if off % 16 = 0 then word (r.rate + 2 ^ 9 * natOf r.cap + 2 ^ 16 * r.depth) else r.units
  else if 0x10000 ≤ off ∧ off < 0x10500 then s.chmapWord ((off - 0x10000) / 8)
  else if 0x100000 ≤ off ∧ off < 0x100000 + 8 * 638976 then
    let r := s.region ((off - 0x100000) / 8)
    word (r.state.code + 8 * r.quire + 128 * natOf r.isSeal + 256 * natOf r.gen)
  else match off with
    | 0x0000 => word (m.val + 32 * dieOfStack m.val + 128 * ((chmapWithout s.mem.removed).filter fun c => c / 32 == m.val).length)
    | 0x0008 => st.tempWord
    | 0x0010 => word (st.thr + 2 ^ 16 * st.stopbound)
    | 0x0018 => word (st.period + 2 ^ 16 * st.dtemp + 2 ^ 24 * st.errthr)
    | 0x3000 => word (st.nshare + 16 * natOf st.close)
    | 0x3008 => word (st.patrolPeriod + 2 ^ 16 * natOf st.patrolEn + 2 ^ 32 * st.passes)
    | 0x3010 => word (st.errAddr / 32 * 32 + 2 ^ 44 * st.errChan)
    | 0x4000 => s.mem.ilCfg
    | 0x4008 => s.mem.restripeWord
    | 0x4010 => word s.mem.wm
    | _ => 0

def PortState.code : PortState → Nat
  | .off => 0 | .training => 1 | .up => 2 | .half => 3 | .draining => 4 | .failed => 5
def Port.stateWord (x : Port) : Word :=
  word (x.state.code + 8 * natOf x.highHalf + 16 * x.why + 2 ^ 8 * x.peer + 2 ^ 28 * x.pport)
def Port.errWord (x : Port) : Word := word (x.fec + 2 ^ 32 * x.uncorr + 2 ^ 48 * x.retry)
def Port.err2Word (x : Port) : Word := word (x.crcfail + 2 ^ 16 * x.tagfail + 2 ^ 32 * x.retrains + 2 ^ 48 * x.abandon)

/-- A register of Splice control (10 Table 10-11). -/
def State.spliceReg (s : State) (off : Nat) : Word :=
  let p := s.splice
  if 0x100 ≤ off ∧ off < 0x140 then
    let d := s.dim ((off - 0x100) / 8)
    word (d.size + 2 ^ 21 * natOf d.ring)
  else if 0x10000 ≤ off ∧ off < 0x20000 then
    let x := s.port ((off - 0x10000) / 0x1000)
    match off % 0x1000 with
    | 0x00 => word (natOf x.en + 4 * natOf x.halfok + 2 ^ 8 * x.rto + 2 ^ 24 * x.drainto)
    | 0x08 => word (x.dim + 8 * natOf x.minus + 16 * natOf x.member)
    | 0x10 => x.stateWord
    | 0x18 => x.errWord
    | 0x20 => x.err2Word
    | _ => 0
  else if 0x20000 ≤ off ∧ off < 0x22000 then
    let o := Sparse.get Ovr.reset p.ovr ((off - 0x20000) / 8)
    word (o.first + 2 ^ 20 * o.count + 2 ^ 41 * o.port + 2 ^ 45 * natOf o.valid)
  else if 0x30000 ≤ off ∧ off < 0x30800 ∧ off % 16 = 0 then
    let r := Sparse.get Right.reset s.rights ((off - 0x30000) / 16)
    word (r.first + 2 ^ 20 * r.count + 2 ^ 41 * r.peer + 2 ^ 45 * natOf r.valid)
  else match off with
    | 0x00 => word (s.device.toNat + 2 ^ 20 * natOf p.ready)
    | 0x08 => word p.hoplimit
    | 0x10 => word (p.ecrcErr + 2 ^ 16 * p.badErr + 2 ^ 32 * p.noroute + 2 ^ 48 * p.hoplimErr)
    | _ => 0

def EthState.code : EthState → Nat
  | .off => 0 | .training => 1 | .up => 2 | .draining => 4 | .failed => 5
def Eth.stateWord (x : Eth) : Word := word (x.state.code + 8 * natOf x.pfc)
def Eth.ctlWord (x : Eth) : Word := word (natOf x.en + 2 * x.cmdpcp + 16 * x.bulkpcp + 128 * x.vlan)
def Eth.errWord (x : Eth) : Word := word (x.fcs + 2 ^ 16 * x.tagfail + 2 ^ 32 * x.drop + 2 ^ 48 * x.undeliv)

/-- A register of Ethernet control (12 Table 12-17). -/
def State.ethReg (s : State) (off : Nat) : Word :=
  if 8 ≤ off / 0x1000 then 0
  else match off % 0x1000 with
    | 0x00 => (s.eth (off / 0x1000)).ctlWord
    | 0x08 => (s.eth (off / 0x1000)).stateWord
    | 0x10 => (s.eth (off / 0x1000)).errWord
    | _ => 0

/-- A read of control space (01 Table 01-11); the words of the Spine mailbox are the Spine's own and read zero (log 18). -/
def State.ctlRead (s : State) (a : Nat) : Word :=
  let a := a / 8 * 8
  if 0xF0000000000 ≤ a ∧ a ≤ 0xF00BFFFFFFF then s.tileReg (Fin.ofNat 192 ((a - 0xF0000000000) / 2 ^ 24)) (a % 2 ^ 24)
  else if 0xF4000000000 ≤ a ∧ a ≤ 0xF4013FFFFFF then s.stackReg (Fin.ofNat 20 ((a - 0xF4000000000) / 2 ^ 24)) (a % 2 ^ 24)
  else if 0xF6000000000 ≤ a ∧ a ≤ 0xF6000FFFFFF then s.spliceReg (a % 2 ^ 24)
  else if 0xF7000000000 ≤ a ∧ a ≤ 0xF7000FFFFFF then s.ethReg (a % 2 ^ 24)
  else 0

/-- Time has passed on a tile's counters before a load of one of them is served (01 R20, R22; log 5). -/
def State.timeFor (s : State) (a : Nat) : State :=
  if 0xF0000000000 ≤ a ∧ a ≤ 0xF00BFFFFFFF then
    let t : TileId := Fin.ofNat 192 ((a - 0xF0000000000) / 2 ^ 24)
    if a % 2 ^ 24 = 8 then (s.readBeats t).2 else if a % 2 ^ 24 = 0x10 then (s.readTicks t).2 else s
  else s

end Sys2Proof.Machine
end

