-- ==== Sys2Proof/Machine/Session.lean ====
section
/-! DEFINITION. The session, status and telemetry commands, and the Ethernet ports (12 R305, R314–R316, R320, R324, Tables 12-5, 12-6,
12-14, 12-17; 16 R408–R410). -/

namespace Sys2Proof.Machine

/-- The digests of the running firmware: the ROM constant and the four components (13 Table 13-10; log 7). -/
def FwSlot.five (f : FwSlot) : List Nat := Config.openValue 11 0 :: f.digests
def State.slot (s : State) : FwSlot := if s.boot.slot then s.flash.slot1 else s.flash.slot0
def natBytes (ns : List Nat) (w : Nat) : List Byte := ns.flatMap (leBytes w)
/-- The alias certificate's digest of the firmware (13 Table 13-4, fw). -/
def State.fwDigest (s : State) : Nat := Config.sha384 (natBytes s.slot.five 48)

def State.serialIndex (s : State) : Nat := (s.boot.record.map (·.serialIndex)).getD 0

/-- The device chain: type, device, svn and fw of its three certificates (13 R337). -/
def State.chain (s : State) : List Nat :=
  [1, 0, 0, 0, 2, s.serialIndex, 0, 0, 3, s.serialIndex, s.slot.svn, s.fwDigest]

/-- The transcript hash of an exchange (12 R314): over the parameters of the request and of its reply but the signatures. -/
def transcriptOf (ns : List Nat) (nonce : List Byte) : Nat := Config.sha384 (nonce ++ natBytes ns 48)

/-- The keys of a session, in the order of its labels (12 R314). -/
def sessionKeys (secrets : List Nat) (h : Nat) : List Nat := (List.range 4).map (Config.hkdf secrets h)

/-- HELLO, in the clear (12 R314–R316; 15 Table 15-1). -/
def State.helloOn (s : State) (c : Hdr) (p : HelloReq) : State :=
  if !(s.eth c.port.val).isUp || !s.spineUp then s
  else if !packetOk c || !c.clear then s.dropPkt c.port.val
  else if s.boot.stage < 3 then s.replyClear c 1 stNotReady [{ type := 0xF0, vals := [s.stageByte] }]
  else match s.joinPart c 1 with
  | (false, s) => s
  | (true, s) => match defectOf c 1 with
    | some t => s.replyClear c 1 stBadParam [{ type := 0xF1, vals := [t] }]
    | none =>
      if c.version ≠ 1 ∨ p.maxPayload < 1280 ∨ 8972 < p.maxPayload ∨ p.nonce.length ≠ 48 then s.replyClear c 1 stBadParam []
      else if 64 ≤ (s.net.sessions.filter (·.2.isSome)).length then s.replyClear c 1 stNoResource []
      else
        let id := s.net.nextSession
        let (f, s) := s.takeFree
        let nonce := Config.drbgKey f
        let pub := Config.exchange 0 p.hostKey f
        let ct := Config.exchange 1 p.kemKey f
        let secrets := [Config.exchange 2 p.hostKey f, Config.exchange 3 p.kemKey f]
        let h := transcriptOf ([p.hostKey, p.kemKey, p.maxPayload, id, nonce, pub, ct] ++ s.chain) p.nonce
        let x : Session := { role := .noRole, epoch := 0, graced := false, high := 0, seen := [], stored := [], port := c.port.val
                             source := c.source, sourceA := none, sourceB := none, maxPayload := p.maxPayload, transcript := h
                             secrets := secrets, keys := sessionKeys secrets h, old := [] }
        let s : State := { s with net := { s.net with nextSession := id + 1 } }.setSession id (some (x.heard c))
        s.replyClear c 1 stOk [{ type := 0x81, vals := [id] }, { type := 0x82, vals := [nonce] }, { type := 0x83, vals := [pub] },
          { type := 0x84, vals := [ct] }, { type := 0x85, vals := s.chain }, { type := 0x86, vals := [Config.aliasSignature 0 h] },
          { type := 0x87, vals := [Config.aliasSignature 1 h] }]
def execHello (c : Hdr) (p : HelloReq) (s : State) : Out := .next (s.helloOn c p)

def State.setRole (s : State) (id : Nat) (r : Role) : State :=
  match s.session id with
  | none => s
  | some x => s.setSession id (some { x with role := r })

/-- The owner record in force (13 R340). -/
def State.owner (s : State) : OwnerRecord := s.flash.owners.getLast?.getD deliveredOwner

/-- Whether the keys are those of the role asked for (12 R315). -/
def State.keysFit (s : State) (c : Hdr) (p : AuthReq) : Bool :=
  p.rsaOk && p.slhOk &&
    (if p.role = 0 then s.owner.rsaKey == p.rsaKey && s.owner.slhKey == p.slhKey
     else
       let q := s.quire c.quire
       decide (c.quire < 16) && q.use ≠ .free && q.use ≠ .scrubbing && q.copyOf.isNone && q.rsaKey == p.rsaKey && q.slhKey == p.slhKey)

/-- AUTH (12 R315): both signatures, over the transcript and the session ID. -/
def execAuth (c : Hdr) (p : AuthReq) (s : State) : Out :=
  .next (s.command c 0x0002 fun s _ =>
    if 1 < p.role then .done stBadParam [] s
    else if s.keysFit c p then
      .done stOk [{ type := 0x81, vals := [p.role] }] (s.setRole c.session (if p.role = 0 then .owner else .quire c.quire))
    else .done stDenied [] (s.setRole c.session .noRole))

/-- CLOSE: the reply goes out, and the session ends (12 R315). -/
def execClose (c : Hdr) (s : State) : Out :=
  let s := s.command c 0x0003 fun s _ => .done stOk [] s
  .next (match s.session c.session with
    | some x => if x.stored.any fun r => r.seq == c.seq && r.opcode == 3 && r.status == 0 then s.closeSession c.session else s
    | none => s)

/-- REKEY: the exchange again, with the old secrets behind the new ones (12 R314). -/
def execRekey (c : Hdr) (p : RekeyReq) (s : State) : Out :=
  .next (s.command c 0x0004 fun s x =>
    let (f, s) := s.takeFree
    let pub := Config.exchange 0 p.hostKey f
    let ct := Config.exchange 1 p.kemKey f
    let e := (x.epoch + 1) % 65536
    let h := transcriptOf [p.hostKey, p.kemKey, pub, ct, e] []
    let secrets := [Config.exchange 2 p.hostKey f, Config.exchange 3 p.kemKey f] ++ x.secrets
    .done stOk [{ type := 0x81, vals := [pub] }, { type := 0x82, vals := [ct] }, { type := 0x83, vals := [e] }]
      (match s.session c.session with
       | none => s
       | some y => s.setSession c.session
          (some { y with epoch := e, graced := true, transcript := h, secrets := secrets, keys := sessionKeys secrets h, old := x.keys })))

/-- SESSION_IDLE_TIMEOUT, SESSION_REKEY_TIMEOUT: the session is closed (12 R314, R315). -/
def execSessionIdleTimeout (session : Nat) (s : State) : Out := .next (s.closeSession session)
def execSessionRekeyTimeout (session : Nat) (s : State) : Out := .next (s.closeSession session)
/-- EPOCH_GRACE_EXPIRY (12 R314). -/
def execEpochGraceExpiry (session : Nat) (s : State) : Out :=
  .next (match s.session session with
    | none => s
    | some x => s.setSession session (some { x with graced := false, old := [] }))

/-- The Spine in service: 0 on XD0, 1 on XD1 (12 Table 12-5). -/
def State.spineNow (s : State) : Nat := natOf s.spine.primary

/-- PING. -/
def execPing (c : Hdr) (echo : List Byte) (s : State) : Out :=
  .next (s.command c 0x0005 fun s _ =>
    if 64 < echo.length then .done stBadParam [] s
    else .done stOk [{ type := 0x81, vals := echo.map (·.toNat) }, { type := 0x82, vals := [s.spineNow] }] s)

def Role.code : Role → Nat × Nat
  | .noRole => (0xFF, 0xFF) | .owner => (0, 0xFF) | .quire q => (1, q)

/-- SESSIONS: ID, role, quire, last port and outstanding count of each. -/
def execSessions (c : Hdr) (s : State) : Out :=
  .next (s.command c 0x0006 fun s _ =>
    .done stOk (s.net.sessions.filterMap fun e => e.2.map fun x =>
      ({ type := 0x81, vals := [e.1, x.role.code.1, x.role.code.2, x.port, s.outstanding e.1] } : Tlv)) s)

/-- EVICT (12 R315); an unknown ID is out of range (log 19). -/
def execEvict (c : Hdr) (id : Nat) (s : State) : Out :=
  .next (s.command c 0x0007 fun s _ =>
    if (s.session id).isNone then .done stBadParam [] s else .done stOk [] (s.closeSession id))

def State.netRecord (s : State) (e : Nat) : NetRecord := Sparse.get NetRecord.reset s.flash.net e

/-- NETCFG: the network record in flash, and what the port takes from it (12 R305, Table 12-5). -/
def execNetcfg (c : Hdr) (p : NetCfgReq) (s : State) : Out :=
  .next (s.command c 0x0008 fun s _ =>
    let big (o : Option Nat) (m : Nat) : Bool := match o with | some v => decide (m < v) | none => false
    let bigP (o : Option (Nat × Nat)) (m : Nat) : Bool := match o with | some v => decide (m < v.2) | none => false
    if 7 < p.port || bigP p.ipv6 128 || bigP p.ipv4 32 || big p.vlan 4095 || big p.cmdpcp 7 || big p.bulkpcp 7 || big p.cmdUdp 65535 ||
        big p.bulkUdp 65535 then .done stBadParam [] s
    else
      let r := s.netRecord p.port
      let r : NetRecord :=
        { ipv6 := match p.ipv6 with | some v => some v | none => r.ipv6
          ipv4 := match p.ipv4 with | some v => some v | none => r.ipv4
          vlan := p.vlan.getD r.vlan, cmdpcp := p.cmdpcp.getD r.cmdpcp, bulkpcp := p.bulkpcp.getD r.bulkpcp
          cmdUdp := p.cmdUdp.getD r.cmdUdp, bulkUdp := p.bulkUdp.getD r.bulkUdp }
      let s : State := { s with flash := { s.flash with net := Sparse.set NetRecord.reset s.flash.net p.port r } }
      .done stOk [] (s.setEth p.port { s.eth p.port with vlan := r.vlan, cmdpcp := r.cmdpcp, bulkpcp := r.bulkpcp }))

def State.ethStates (s : State) : List Tlv :=
  [{ type := 0x81, vals := (List.range 8).map fun e => (s.eth e).state.code }]

/-- ETH_CTL.en := 1 trains a port that is off or failed (12 Table 12-17). -/
def State.enableEth (s : State) (e : Nat) : State :=
  let x := s.eth e
  s.setEth e { x with en := true, state := if x.state = .off ∨ x.state = .failed then .training else x.state }
/-- ETH_CTL.en := 0 drains a port that is up (12 R324). -/
def State.disableEth (s : State) (e : Nat) : State :=
  let x := s.eth e
  s.setEth e { x with en := false, state := if x.state = .up ∨ x.state = .draining then .draining else .off }
def execEthPortEnable (e : EthId) (s : State) : Out := .next (s.enableEth e.val)
def execEthPortDisable (e : EthId) (s : State) : Out := .next (s.disableEth e.val)

def EthState.moving (x : EthState) : Bool := x == .training || x == .draining

/-- The phase 1 replies of NETPORT whose ports have all settled (12 R324). -/
def State.settleEth (s : State) : State :=
  s.net.requests.foldl (fun s r => match r.wait with
    | .eth ports enable =>
      if ports.any fun e => (s.eth e).state.moving then s
      else s.finish r (if enable && !ports.all (fun e => (s.eth e).isUp) then stFailed else stOk) s.ethStates
    | _ => s) s

/-- NETPORT (12 R324). A port already in a transition is busy (R312). -/
def execNetport (c : Hdr) (mask : BitVec 8) (enable : Bool) (s : State) : Out :=
  .next (s.command c 0x0009 fun s _ =>
    let ports := onesOf mask
    if ports.any fun e => (s.eth e).state.moving then .done stBusy [] s
    else if !enable && !((List.range 8).any fun e => !ports.contains e && (s.eth e).en) then .done stPolicy [] s
    else
      let s := ports.foldl (fun s e => if enable then s.enableEth e else s.disableEth e) s
      let first := if enable then stPending else stDraining
      if ports.any fun e => (s.eth e).state.moving then .pend first s.ethStates (.eth ports enable) s
      else .both first s.ethStates stOk s.ethStates s)

/-- ETH_PORT_DRAINED: an empty queue turns a draining port off (12 R324). -/
def execEthPortDrained (e : EthId) (s : State) : Out :=
  let x := s.eth e.val
  .next (if x.state = .draining then (s.setEth e.val { x with state := .off, pfc := false }).settleEth else s)

/-- ETH_PORT_TRAINED (12 R324). -/
def execEthPortTrained (e : EthId) (ok : Bool) (s : State) : Out :=
  let x := s.eth e.val
  .next (if x.state ≠ .training then s
    else if ok then (s.setEth e.val { x with state := .up }).settleEth
    else ((s.setEth e.val { x with state := .failed }).alarm .ethPortFailed e.val).settleEth)

/-- ETH_LINK_DROP: the port trains again (15 R380). -/
def execEthLinkDrop (e : EthId) (s : State) : Out :=
  let x := s.eth e.val
  .next (if x.state = .up then s.setEth e.val { x with state := .training, pfc := false } else s)

/-- The link-local address formed from a MAC address by the modified EUI-64 rule (15 R367). -/
def linkLocal (mac : Nat) : Nat :=
  0xFE80 * 2 ^ 112 + Nat.xor (mac / 2 ^ 24 % 2 ^ 24 * 2 ^ 40 + 0xFFFE * 2 ^ 24 + mac % 2 ^ 24) (2 ^ 57)

/-- The addresses of a port (12 R305; without a record, the link-local address). -/
def State.addr6 (s : State) (e : Nat) : Option Nat :=
  match (s.netRecord e).ipv6, (s.netRecord e).ipv4 with
  | some a, _ => some a.1
  | none, none => some (linkLocal (s.eth e).mac)
  | none, some _ => none
def State.addr4 (s : State) (e : Nat) : Option Nat := (s.netRecord e).ipv4.map (·.1)

/-- ICMP_ECHO: an echo request to the port's own address is answered; options, extension headers and fragments are discarded (12 Table 12-1). -/
def execIcmpEcho (e : EthId) (p : NetPacket) (s : State) : Out :=
  .next (if !(s.eth e.val).isUp then s
    else if !p.plain then s.dropPkt e.val
    else if (if p.v6 then s.addr6 e.val else s.addr4 e.val) = some p.target then s.send (.echo e.val p.source p.bytes)
    else s)

/-- ARP_REQUEST (12 Table 12-1). -/
def execArpRequest (e : EthId) (p : NetPacket) (s : State) : Out :=
  .next (if (s.eth e.val).isUp && s.addr4 e.val == some p.target then s.send (.arp e.val p.source p.target (s.eth e.val).mac) else s)

/-- NEIGHBOUR_DISCOVERY: a solicitation of the port's address is answered (12 Table 12-1). -/
def execNeighbourDiscovery (e : EthId) (p : NetPacket) (s : State) : Out :=
  .next (if !(s.eth e.val).isUp then s
    else if !p.plain then s.dropPkt e.val
    else if s.addr6 e.val = some p.target then s.send (.neighbour e.val p.source p.target (s.eth e.val).mac)
    else s)

def State.assignedMask (s : State) : Nat := ((List.range 16).map fun q => if (s.quire q).use = .free then 0 else 2 ^ q).sum

/-- STATUS (12 Table 12-6; 15 R369). -/
def execStatus (c : Hdr) (s : State) : Out :=
  .next (s.command c 0x0100 fun s _ =>
    .done stOk [{ type := 0x81, vals := [s.stageByte] }, { type := 0x82, vals := [natOf s.isReady] },
      { type := 0x83, vals := [natOf (!s.grade768)] }, { type := 0x84, vals := [s.device.toNat] },
      { type := 0x85, vals := s.slot.svn :: s.slot.digests }, { type := 0x86, vals := [s.spineNow] }, { type := 0x87, vals := [s.assignedMask] }] s)

def FeedState.code : FeedState → Nat
  | .main => 0 | .switching => 1 | .backup => 2 | .single => 3 | .lost => 4 | .off => 7

def State.feedInfo (s : State) (f : Feed) : FeedInfo := Sparse.get FeedInfo.reset s.power.info f.ctorIdx

/-- What HEALTH says of an island: 0 it runs, 1 its arrays drain, 2 it is off (14 R359). -/
def State.islandState (s : State) (i : Nat) : Nat :=
  if !(s.island i).isStopped then 0
  else if allTiles.all fun t => islandOf t ≠ i || !(s.tile t).assigned || (List.range s.arrays).all (s.tile t).arrOff.getLsbD then 2 else 1

/-- HEALTH (12 Table 12-6; 13 R330, 14 R359, 16 R383, R412). TLVs 0x87 to 0x89 are the discards still outstanding, the tiles that drain and the
islands (log 19). -/
def execHealth (c : Hdr) (s : State) : Out :=
  .next (s.command c 0x0101 fun s _ =>
    .done stOk [{ type := 0x81, vals := [s.riskNow] },
      { type := 0x82, vals := (List.range 20).map fun m => (s.stackOf m).tempWord.toNat },
      { type := 0x83, vals := [s.mem.ilCfg.toNat, s.mem.restripeWord.toNat, s.mem.wm] },
      { type := 0x84, vals := (List.range 16).map fun p => (s.port p).stateWord.toNat },
      { type := 0x85, vals := (List.range 8).map fun e => (s.eth e).stateWord.toNat },
      { type := 0x86, vals := [s.power.state.code, natOf (s.feedInfo .main).good, natOf (s.feedInfo .backup).good] },
      { type := 0x87, vals := (List.range 16).filter fun q => (s.quire q).discarding },
      { type := 0x88, vals := (allTiles.filter fun t => (s.tile t).use ≠ .normal).map fun t => 256 * (s.tile t).use.ctorIdx + t.val },
      { type := 0x89, vals := (List.range 16).map s.islandState }] s)

/-- INVENTORY (12 Table 12-6). -/
def execInventory (c : Hdr) (s : State) : Out :=
  .next (s.command c 0x0102 fun s _ =>
    match s.boot.record with
    | none => .done stFailed [] s
    | some r => .done stOk [{ type := 0x81, vals := [r.grade, r.serialIndex] }, { type := 0x82, vals := r.arrays },
        { type := 0x83, vals := r.serial.map (·.toNat) }, { type := 0x84, vals := r.macs }] s)

/-- LOSTLIST from an index, in address order; the quire's own regions for a quire owner (12 Table 12-6; 16 R386). With its TLVs' heads and the
more TLV, 65,530 entries of four bytes fill 256 KiB (R310). -/
def execLostlist (c : Hdr) (first : Nat) (s : State) : Out :=
  .next (s.command c 0x0103 fun s x =>
    let all := s.lost.mergeSort (fun a b => decide (a ≤ b))
    let own := match x.role with | .quire q => all.filter fun i => (s.region i).quire == q | _ => all
    let page := 65530
    .done stOk (pages 0x81 16383 5 ((own.drop first).take page) ++ [{ type := 0x82, vals := [natOf (decide (first + page < own.length))] }]) s)

/-- ALARMS: the records whose last occurrence is at or after a sequence number (12 Table 12-6; 16 R408). -/
def execAlarms (c : Hdr) (n : Nat) (s : State) : Out :=
  .next (s.command c 0x0104 fun s _ =>
    .done stOk (s.alarms.filterMap fun e => e.2.bind fun r =>
      if n ≤ r.last then some ({ type := 0x81, vals := [e.1, r.count, r.first, r.last] } : Tlv) else none) s)

/-- ALARMACK (16 R408). -/
def execAlarmack (c : Hdr) (n : Nat) (s : State) : Out :=
  .next (s.command c 0x0105 fun s _ =>
    .done stOk [] { s with alarms := s.alarms.filter fun e => match e.2 with | some r => decide (n < r.last) | none => false })

/-- SUBSCRIBE (12 Table 12-14). -/
def execSubscribe (c : Hdr) (classes : BitVec 8) (dest : Nat) (s : State) : Out :=
  .next (s.command c 0x0900 fun s _ =>
    if 8 ≤ classes.toNat then .done stBadParam [] s
    else
      let id := s.net.nextSub
      .done stOk [{ type := 0x81, vals := [id] }]
        { s with net := { s.net with nextSub := (id + 1) % 65536, subs := s.net.subs ++ [{ id := id, session := c.session, classes := classes, dest := dest }] } })

/-- UNSUBSCRIBE: a subscription of this session. -/
def execUnsubscribe (c : Hdr) (id : Nat) (s : State) : Out :=
  .next (s.command c 0x0901 fun s _ =>
    if s.net.subs.any fun b => b.id == id && b.session == c.session then
      .done stOk [] { s with net := { s.net with subs := s.net.subs.filter fun b => !(b.id == id && b.session == c.session) } }
    else .done stBadParam [] s)

/-- Records that the log ring of 256 MiB holds, each of 256 bytes (16 R409). -/
def ringRecords : Nat := 2 ^ 20

/-- LOGREAD: whole records of 256 bytes within the byte limit, from a number or the oldest retained, and the loss count (16 R409); 1,023 records
fill 256 KiB (12 R310). -/
def execLogread (c : Hdr) (first limit : Nat) (s : State) : Out :=
  .next (s.command c 0x0902 fun s _ =>
    let rs := (s.logRing.filter fun r => decide (first ≤ r.seq)).take (min (limit / 256) 1023)
    let s := rs.foldl (fun s r => s.chargeOwn (r.seq % ringRecords) 1 1) s
    let s : State := { s with logRead := rs.foldl (fun n r => max n (r.seq + 1)) s.logRead }
    .done stOk (pages 0x81 (3 * 255) 5 (rs.flatMap fun r => [r.seq, r.kind.number, r.arg]) ++ [{ type := 0x82, vals := [s.logLost] }]) s)

/-- EXPORTCFG (12 R320, R428). -/
def execExportcfg (c : Hdr) (share : Option Nat) (s : State) : Out :=
  .next (s.command c 0x0903 fun s _ =>
    if 255 < share.getD 16 then .done stBadParam [] s
    else .done stOk [] { s with net := { s.net with share := share.getD 16 } })

/-- A trace record: dropped and counted while the log queue is more than half full or a log notice waits, else noticed (16 R410). -/
def State.trace (s : State) (n : Nat) : State :=
  if 2048 < s.logQ.length ∨ s.net.waiting.any (·.cls == 1) then { s with traceLost := s.traceLost + 1 }
  else s.notify { cls := 2, quire := none, about := n, tlvs := [{ type := 0x81, vals := [n] }] }

/-- LOG_RECORD_WRITE: the oldest queued record is written to the ring; a record that it overwrites undelivered is a loss. Its log notice goes to
the device owner's subscriptions (16 R409). The write is what the model traces (log 95), and notices that wait leave as the share allows. -/
def execLogRecordWrite (s : State) : Out :=
  .next (if s.boot.stage < 5 then s
    else match s.logQ with
    | [] => s.exportNow
    | r :: rest =>
      let over1 := decide (ringRecords ≤ s.logRing.length)
      let lostOne := over1 && (match s.logRing.head? with | some o => decide (s.logRead ≤ o.seq) | none => false)
      let ring := if over1 then s.logRing.drop 1 else s.logRing
      let s : State := { s with logQ := rest, logRing := ring ++ [r], logLost := s.logLost + natOf lostOne }
      (((s.chargeOwn (r.seq % ringRecords) 1 1).notify
        { cls := 1, quire := none, about := r.seq, tlvs := [{ type := 0x81, vals := [r.seq, r.kind.number, r.arg] }] }).trace r.seq).exportNow)

end Sys2Proof.Machine
end

