-- ==== Sys2Proof/Machine/Bulk.lean ====
section
/-! DEFINITION. Commands on a quire's memory, and bulk transfers (12 R317, R319, R321–R323, Tables 12-8, 12-16; 13 R348; 11 R303, R304;
15 R381). -/

namespace Sys2Proof.Machine

/-- What a command answers when memory fails it: a lost region or an uncorrectable unit, or a region not the quire's (12 R317, R323). -/
def failStatus (f : Fail) : Nat × Nat := if f.code = cMemory then (stFailed, 3) else (stDenied, 0)

/-- Write bytes region by region under the quire's regulator; the first region that refuses ends the work (12 R317). -/
def State.hostWrite (s : State) (q : Nat) : Nat → Nat → List Byte → Option (Nat × Nat) × State
  | 0, _, _ => (none, s)
  | k + 1, a, bs =>
    if bs.isEmpty then (none, s)
    else
      let m := min bs.length (2 ^ 21 - a % 2 ^ 21)
      match s.writeSpan q false false a (bs.take m) with
      | (some f, s) => (some (failStatus f), s)
      | (none, s) => s.hostWrite q k (a + m) (bs.drop m)
def regionsIn (n : Nat) : Nat := n / 2 ^ 21 + 2

/-- READ (12 R317, Table 12-8). -/
def execRead (c : Hdr) (addr len : Nat) (s : State) : Out :=
  .next (s.command c 0x0301 fun s _ =>
    if 65536 < len then .done stBadParam [] s
    else match s.readSpan c.quire false false addr len with
      | (.error f, s) => .done (failStatus f).1 (detail (failStatus f).2) s
      | (.ok bs, s) => .done stOk (pages 0x81 65535 2 (bs.map (·.toNat))) s)

/-- WRITE (12 R317, Table 12-8). -/
def execWrite (c : Hdr) (addr : Nat) (bytes : List Byte) (s : State) : Out :=
  .next (s.command c 0x0302 fun s _ =>
    if 65536 < bytes.length then .done stBadParam [] s
    else match s.hostWrite c.quire (regionsIn bytes.length) addr bytes with
      | (some (st, d), s) => .done st (detail d) s
      | (none, s) => .done stOk [] s)

def Bulk.chunks (b : Bulk) : Nat := ceilDiv b.len b.chunk
/-- Bytes of chunk `k`; the last may be shorter (12 R322). -/
def Bulk.chunkLen (b : Bulk) (k : Nat) : Nat := min b.chunk (b.len - k * b.chunk)
/-- The first chunk not received (12 Table 12-16, word). -/
def Bulk.word (b : Bulk) : Nat := ((List.range b.chunks).find? fun k => !b.got.contains k).getD b.chunks
def Bulk.complete (b : Bulk) : Bool := b.word == b.chunks

def State.setBulk (s : State) (b : Bulk) : State :=
  { s with net := { s.net with bulks := s.net.bulks.map fun o => if o.xid = b.xid then b else o } }
def State.bulk (s : State) (xid : Nat) : Option Bulk := s.net.bulks.find? (·.xid == xid)

/-- Load entries of a measurement log, and all entries of kinds 0 to 4 (13 R348). -/
def Quire.loads (q : Quire) : Nat := (q.log.filter fun e => e.kind == 1 || e.kind == 2).length
def Quire.entries (q : Quire) : Nat := (q.log.filter (·.kind ≠ 5)).length
/-- There is room for one more entry of kinds 0 to 4. -/
def Quire.room (q : Quire) : Bool := decide (q.entries < 4096)

/-- Loads of kinds 0 and 1 of a quire that are still open: each will need an entry. -/
def State.openLoads (s : State) (q : Nat) : Nat :=
  (s.net.bulks.filter fun b => b.quire == q && (match b.use with | .load k _ => decide (k ≤ 1) | _ => false)).length

/-- The bytes that the device sends for a chunk, read afresh under the quire's regulator (12 R322). -/
def State.chunkBytes (s : State) (b : Bulk) (k : Nat) : Except Fail (List Byte) × State :=
  let n := b.chunkLen k
  match b.use with
  | .groups q => (.ok (s.imageBytes q (k * b.chunk) n), s)
  | _ => s.readSpan b.quire false false (b.addr + k * b.chunk) n

/-- The use of a transfer is the memory of its quire. -/
def BulkUse.inMemory : BulkUse → Bool
  | .memory | .load .. => true
  | _ => false

/-- The memory of a chunk is held: its stack is stopped, its channel is quiet, or its region is being rewritten (09 R234, R237, R247). -/
def State.chunkWaits (s : State) (b : Bulk) (k : Nat) : Bool := b.use.inMemory && s.spanWaits (b.addr + k * b.chunk) (b.chunkLen k)

/-- The host's address for the network of a port: B4 or B5, or the session's source there (12 Table 12-8). -/
def Bulk.dest (b : Bulk) (e : Nat) : Option Nat := if e / 4 = 0 then b.hostA else b.hostB

/-- The port of a chunk: round-robin by its index over the up ports of the mask whose network has an address for the host (12 R322). -/
def State.chunkPort (s : State) (b : Bulk) (k : Nat) : Option Nat :=
  let ps := (onesOf b.mask).filter fun e => (s.eth e).isUp && (b.dest e).isSome
  if ps.isEmpty then none else ps[k % ps.length]?

/-- Send chunk `k` under an attempt number; a failed read aborts the transfer (12 R322, R323). A chunk whose port the peer pauses (Table 12-1), or
whose memory is held, stays to be sent. -/
def State.sendChunk (s : State) (xid k attempt : Nat) : State :=
  match s.bulk xid with
  | none => s
  | some b => match s.chunkPort b k with
    | none => s
    | some e =>
      if (s.eth e).pfc || s.chunkWaits b k then s
      else match s.chunkBytes b k with
        | (.error f, s) => s.endBulk b (failStatus f).1 (failStatus f).2 []
        | (.ok bs, s) =>
          (s.setBulk { b with sent := Sparse.set 0 b.sent k (attempt + 1), missed := Sparse.set 0 b.missed k 0 }).send
            (.data xid k attempt e ((b.dest e).getD 0) bs)

/-- Chunks never sent go out while no more than the window is unacknowledged (12 R322). -/
def State.pump (s : State) (xid : Nat) : State :=
  match s.bulk xid with
  | none => s
  | some b =>
    if !b.fromDevice then s
    else
      let open1 := (b.sent.filter fun e => !b.got.contains e.1).length
      (((List.range b.chunks).filter fun k => Sparse.get 0 b.sent k = 0 && !b.got.contains k).take (b.window - open1)).foldl
        (fun s k => s.sendChunk xid k 0) s

/-- Open a transfer for a command (12 R322, R323): the parameters, the limits of 32 and 256, and what phase 0 answers. -/
def State.openBulk (s : State) (c : Hdr) (x : Session) (quire : Nat) (use : BulkUse) (fromDevice : Bool) (addr len : Nat)
    (p : BulkParams) : Res :=
  let chunk := p.chunk.getD 8192
  let window := p.window.getD 1024
  if chunk < 1024 || 8192 < chunk || chunk % 1024 ≠ 0 || window < 16 || 4096 < window || len = 0 ||
      (fromDevice && decide (x.maxPayload < chunk + 48)) then .done stBadParam [] s
  else if 32 ≤ (s.net.bulks.filter (·.session == c.session)).length || 256 ≤ s.net.bulks.length then .done stNoResource [] s
  else
    let xid := s.net.nextXid
    let b : Bulk := { xid := xid, session := c.session, quire := quire, use := use, fromDevice := fromDevice, addr := addr, len := len
                      chunk := chunk, window := window, mask := p.mask.getD 0xFF, hostA := p.hostA.or x.sourceA, hostB := p.hostB.or x.sourceB
                      got := [], sent := [], missed := [], unacked := 0, serial := 0, data := [] }
    let s : State := { s with net := { s.net with nextXid := xid + 1, bulks := s.net.bulks ++ [b] } }
    .pend stPending [{ type := 0x81, vals := [xid] }] (.bulk xid) s

/-- A command that opens a transfer; the device's own chunks follow the phase 0 reply. -/
def State.bulkCommand (s : State) (c : Hdr) (op : Nat) (run : State → Session → Res) : State :=
  let xid := s.net.nextXid
  (s.command c op run).pump xid

/-- LOAD (12 R319; 13 R348). -/
def execLoad (c : Hdr) (p : LoadReq) (s : State) : Out :=
  .next (s.bulkCommand c 0x0300 fun s x =>
    let q := s.quire c.quire
    let n := s.openLoads c.quire
    if 2 < p.kind then .done stBadParam [] s
    else if p.kind < 2 ∧ p.digest.isNone then .done stBadParam [{ type := 0xF1, vals := [4] }] s
    else if p.kind < 2 ∧ (2048 ≤ q.loads + n ∨ 4096 ≤ q.entries + n) then .done stNoResource [] s
    else s.openBulk c x c.quire (.load p.kind p.digest) false p.addr p.len p.bulk)

/-- BULKOPEN (12 R322); a frozen quire is not written (16 R398). -/
def execBulkopen (c : Hdr) (p : BulkReq) (s : State) : Out :=
  .next (s.bulkCommand c 0x0303 fun s x =>
    let frozen := match s.survive.freeze with | some f => f.quire == c.quire | none => false
    if frozen && !p.fromDevice then .done stBusy [] s
    else s.openBulk c x c.quire .memory p.fromDevice p.addr p.len p.bulk)

/-- GROUPSAVE: the image of 512 KiB (11 R303). -/
def execGroupsave (c : Hdr) (b : BulkParams) (s : State) : Out :=
  .next (s.bulkCommand c 0x0705 fun s x =>
    let q := match x.role with | .quire q => some q | _ => none
    s.openBulk c x c.quire (.groups q) true 0 (2 ^ 19) b)

/-- GROUPRESTORE (11 R304): the image comes by a bulk transfer and is installed at its end, and stays staged for the next bring-up (15 R375;
log 69); one at a time for a quire (12 R312). -/
def execGrouprestore (c : Hdr) (quire : Nat) (b : BulkParams) (s : State) : Out :=
  .next (s.bulkCommand c 0x0706 fun s x =>
    if 16 ≤ quire then .done stBadParam [] s
    else if s.net.bulks.any fun o => !o.fromDevice && o.use == .groups (some quire) then .done stBusy [] s
    else match s.quireGate x.role 0x0706 quire with
      | some st => .done st [] s
      | none => s.openBulk c x quire (.groups (some quire)) false 0 (2 ^ 19) b)

/-- Change the slot that the activation pointer does not name (15 R381). -/
def State.setInactive (s : State) (f : FwSlot) : State :=
  if s.flash.pointer then { s with flash := { s.flash with slot0 := f } } else { s with flash := { s.flash with slot1 := f } }

/-- FWSTAGE: the slot is invalid while it is written (15 R381); one at a time (12 R312). -/
def execFwstage (c : Hdr) (len : Nat) (image : FwImage) (b : BulkParams) (s : State) : Out :=
  .next (s.bulkCommand c 0x0A00 fun s x =>
    if s.net.bulks.any fun o => match o.use with | .firmware _ => true | _ => false then .done stBusy [] s
    else match s.openBulk c x 0xFF (.firmware image) false 0 len b with
    | .pend st tlvs w s =>
      .pend st tlvs w ({ s with flash := { s.flash with staged := none, verified := false } }.setInactive { FwSlot.reset with valid := false })
    | r => r)

/-- BULKSTATUS: state 1, open, and the chunks acknowledged (12 Table 12-8). -/
def execBulkstatus (c : Hdr) (xid : Nat) (s : State) : Out :=
  .next (s.command c 0x0304 fun s _ =>
    match s.bulk xid with
    | none => .done stBadParam [] s
    | some b =>
      if b.session ≠ c.session then .done stDenied [] s
      else .done stOk [{ type := 0x81, vals := [1] }, { type := 0x82, vals := [b.got.length] }] s)

/-- BULKCANCEL (12 R323). -/
def execBulkcancel (c : Hdr) (xid : Nat) (s : State) : Out :=
  .next (s.command c 0x0305 fun s _ =>
    match s.bulk xid with
    | none => .done stBadParam [] s
    | some b => if b.session ≠ c.session then .done stDenied [] s else .done stOk [] (s.endBulk b stFailed 2 []))

/-- Acknowledge what has been performed (12 R322). -/
def State.acknowledge (s : State) (xid : Nat) (e : Nat) : State :=
  match s.bulk xid with
  | none => s
  | some b =>
    let w := b.word
    let bits : BitVec 256 := BitVec.ofNat 256 (((List.range 256).map fun j => if b.got.contains (w + 1 + j) then 2 ^ j else 0).sum)
    (s.setBulk { b with unacked := 0, serial := b.serial + 1 }).send (.ack xid b.serial w bits e)

/-- Every byte of a transfer to the device is there (12 R319, R323; 11 R304; 15 R381). -/
def State.wholeBulk (s : State) (b : Bulk) : State :=
  match b.use with
  | .memory => s.endBulk b stOk 0 []
  | .load kind want =>
    let d := Config.sha384 (Sparse.getList 0 b.data 0 b.len)
    let tlv : List Tlv := [{ type := 0x82, vals := [d] }]
    if 2 ≤ kind then s.endBulk b stOk 0 tlv
    else if want ≠ some d then s.endBulk b stFailed 1 tlv
    else
      (s.updQuire b.quire fun q => { q with log := q.log ++ [{ kind := kind + 1, addr := b.addr, len := b.len, digest := d }] }).endBulk b stOk 0 tlv
  | .groups q =>
    let es := (imageGroups b.data).map fun e => (e.1, { e.2 with quire := q.getD 0 })
    let s := s.installGroups (q.getD 0) es
    { s with flash := { s.flash with groups := es } }.endBulk b stOk 0 []
  | .firmware image =>
    let good := image.owner.isNone && image.formOk && image.keyOk && image.rsaOk && image.slhOk && image.partsOk
    (({ s with flash := { s.flash with staged := some image, verified := false } } : State).setInactive
      { valid := good, svn := image.svn, digests := image.digests }).endBulk b stOk 0 []

/-- Take the bytes of a chunk to where they go. -/
def State.landChunk (s : State) (b : Bulk) (k : Nat) (bs : List Byte) : Option (Nat × Nat) × State :=
  let keep (s : State) : State := match s.bulk b.xid with
    | none => s
    | some o => s.setBulk { o with data := Sparse.setList 0 o.data (k * b.chunk) bs }
  match b.use with
  | .memory => s.hostWrite b.quire (regionsIn bs.length) (b.addr + k * b.chunk) bs
  | .load _ _ =>
    let (e, s) := s.hostWrite b.quire (regionsIn bs.length) (b.addr + k * b.chunk) bs
    (e, keep s)
  | _ => (none, keep s)

/-- A chunk of a transfer to the device is performed, noted, and acknowledged after every 32 (12 R322). -/
def State.performChunk (s : State) (b : Bulk) (p : BulkData) : State :=
  let e := p.port.val
  let fresh := !b.got.contains p.chunk
  match if fresh then s.landChunk b p.chunk p.bytes else (none, s) with
  | (some (st, d), s) => s.endBulk b st d []
  | (none, s) => match s.bulk p.xid with
    | none => s
    | some b =>
      let b := { b with got := if fresh then p.chunk :: b.got else b.got, unacked := b.unacked + 1 }
      let s := s.setBulk b
      if b.complete then (s.acknowledge b.xid e).wholeBulk b
      else if 32 ≤ b.unacked then s.acknowledge b.xid e else s

/-- A chunk whose memory is held waits, and the bulk priority of its port is paused (12 Table 12-1; log 105). -/
def State.takeChunk (s : State) (p : BulkData) : State :=
  match s.bulk p.xid with
  | none => s
  | some b =>
    if b.fromDevice || b.session ≠ p.session || decide (b.chunks ≤ p.chunk) || p.bytes.length ≠ b.chunkLen p.chunk then s
    else if s.chunkWaits b p.chunk && !b.got.contains p.chunk then
      let first := !s.net.chunks.any fun o => o.port == p.port
      let s : State := { s with net := { s.net with chunks := s.net.chunks ++ [p] } }
      if first then s.send (.pfc p.port.val true) else s
    else s.performChunk b p

/-- Every chunk that waited is taken again; a port for which none waits any more is resumed. -/
def State.retryChunks (s : State) : State :=
  let ps := s.net.chunks
  let s := ps.foldl (fun s p => s.takeChunk p) { s with net := { s.net with chunks := [] } }
  ((ps.map (·.port.val)).dedup.filter fun e => !s.net.chunks.any fun o => o.port.val == e).foldl (fun s e => s.send (.pfc e false)) s

/-- BULK_DATA (12 R322). -/
def execBulkData (p : BulkData) (s : State) : Out :=
  .next (if !(s.eth p.port.val).isUp then s
    else if !p.tagOk then s.badTag p.port.val
    else s.takeChunk p)

/-- BULK_ACK_TIMER: 50 µs after a chunk that is not yet acknowledged (12 R322). The chunks that waited for memory are taken first. -/
def execBulkAckTimer (xid : Nat) (s : State) : Out :=
  let s := s.retryChunks
  .next (match s.bulk xid with
    | none => s
    | some b => match s.session b.session with
      | none => s
      | some x => if b.fromDevice || b.unacked = 0 then s else s.acknowledge xid ((s.noticePort x).getD x.port))

/-- A chunk is sent again, with the next attempt number (12 R322). -/
def State.resendChunk (s : State) (xid k : Nat) : State :=
  match s.bulk xid with
  | none => s
  | some b => s.sendChunk xid k (Sparse.get 0 b.sent k)

/-- What one acknowledgement says of the chunks sent: which are received, and which of the others it lacks (12 R322). -/
def Bulk.acked (b : Bulk) (p : BulkAck) : Bulk :=
  let has (k : Nat) : Bool := decide (k < p.word) || (decide (p.word < k) && p.bitmap.getLsbD (k - p.word - 1))
  let got := b.got ++ ((List.range b.chunks).filter fun k => has k && !b.got.contains k)
  let out := (b.sent.map (·.1)).filter fun k => !got.contains k
  { b with got := got, missed := out.foldl (fun m k => Sparse.upd 0 m k (· + 1)) b.missed }

/-- BULK_ACKNOWLEDGEMENT (12 R322). -/
def execBulkAcknowledgement (p : BulkAck) (s : State) : Out :=
  .next (if !(s.eth p.port.val).isUp then s
    else if !p.tagOk then s.badTag p.port.val
    else match s.bulk p.xid with
      | none => s
      | some b =>
        if !b.fromDevice || b.session ≠ p.session then s
        else
          let b := b.acked p
          let s := s.setBulk b
          if b.complete then s.endBulk b stOk 0 []
          else
            let again := (b.missed.filter fun e => decide (3 ≤ e.2) && !b.got.contains e.1).map (·.1)
            (again.foldl (fun s k => s.resendChunk b.xid k) s).pump b.xid)

/-- What a transfer from the device has sent and not seen acknowledged is sent again (12 R322, 16 Table 16-8). -/
def State.resendAll (s : State) (xid : Nat) : State :=
  match s.bulk xid with
  | none => s
  | some b =>
    if !b.fromDevice then s
    else (((b.sent.map (·.1)).filter fun k => !b.got.contains k).foldl (fun s k => s.resendChunk xid k) s).pump xid

/-- BULK_RESEND_TIMEOUT: word has not advanced for 2 ms (12 R322). -/
def execBulkResendTimeout (xid : Nat) (s : State) : Out := .next (s.resendAll xid)

/-- The transfer ends with the peer's word, without a packet of this side. -/
def State.closeBulk (s : State) (b : Bulk) (status det : Nat) : State :=
  { s with net := { s.net with bulks := s.net.bulks.filter (·.xid ≠ b.xid) } }.finishWhere (· == Wait.bulk b.xid) status (detail det)

/-- BULK_DONE: the host has every chunk of a transfer from the device (12 R323, Table 12-16). -/
def execBulkDone (xid session : Nat) (status detl : BitVec 16) (s : State) : Out :=
  .next (match s.bulk xid with
    | none => s
    | some b => if !b.fromDevice || b.session ≠ session then s else s.closeBulk b status.toNat detl.toNat)

/-- BULK_ABORT (12 R323, Table 12-16). -/
def execBulkAbort (xid session : Nat) (status detl : BitVec 16) (s : State) : Out :=
  .next (match s.bulk xid with
    | none => s
    | some b => if b.session ≠ session then s else s.closeBulk b status.toNat detl.toNat)

/-- BULK_PEER_TIMEOUT: no packet from the peer for 10 s (12 R323). -/
def execBulkPeerTimeout (xid : Nat) (s : State) : Out :=
  .next (match s.bulk xid with
    | none => s
    | some b => s.endBulk b stLost 0 [])

/-- PRIORITY_FLOW_CONTROL: honoured on the bulk priority only (12 Table 12-1); when the peer resumes, chunks that waited go out. -/
def execPriorityFlowControl (e : EthId) (prio : Fin 8) (pause : Bool) (s : State) : Out :=
  let x := s.eth e.val
  .next (if x.isUp && x.bulkpcp == prio.val then
      let s := s.setEth e.val { x with pfc := pause }
      if pause then s else (s.net.bulks.map (·.xid)).foldl (fun s i => s.pump i) s
    else s)

end Sys2Proof.Machine
end

