-- ==== Sys2Proof/Machine/Power.lean ====
section
/-! DEFINITION. Energy and supply (14; 12 Table 12-13; 15 R377; 17 R417): the plan, grants, heat, calibration, readings and the two feeds. -/

namespace Sys2Proof.Machine

/-- A row of Table 14-1: mV, f_dyn and f_stat in hundredths, planning rate in MHz, static and full-load power per tile in mW. -/
structure VRow where
  mv : Nat
  dyn : Nat
  stat : Nat
  rate : Nat
  idle : Nat
  full : Nat
deriving DecidableEq, Repr

def vrows : List VRow :=
  [⟨600, 64, 55, 900, 660, 2460⟩, ⟨650, 75, 68, 1070, 820, 3320⟩, ⟨700, 87, 83, 1240, 1000, 4370⟩, ⟨750, 100, 100, 1400, 1200, 5580⟩,
   ⟨800, 114, 121, 1550, 1450, 6970⟩, ⟨850, 128, 146, 1680, 1750, 8470⟩, ⟨900, 144, 176, 1800, 2110, 10210⟩]

def vrow (mv : Nat) : VRow := (vrows.find? (·.mv == mv)).getD ⟨600, 64, 55, 900, 660, 2460⟩

/-- f_dyn in two-hundredths and static power in half milliwatts at a voltage: a row, or the middle between two (14 R358 step 6). -/
def dynAt (mv : Nat) : Nat := if mv % 50 = 25 then (vrow (mv - 25)).dyn + (vrow (mv + 25)).dyn else 2 * (vrow mv).dyn
def idleAt (mv : Nat) : Nat := if mv % 50 = 25 then (vrow (mv - 25)).idle + (vrow (mv + 25)).idle else 2 * (vrow mv).idle

/-- The rates of a row of 01 Table 01-4 at 40, 70, 90 and 105 °C, in MHz. -/
def rateRow (mv : Nat) : Nat × Nat × Nat × Nat :=
  match mv with
  | 650 => (1030, 1070, 1090, 1100) | 700 => (1230, 1240, 1240, 1230) | 750 => (1420, 1400, 1380, 1360) | 800 => (1590, 1550, 1520, 1490)
  | 850 => (1730, 1680, 1640, 1600) | 900 => (1800, 1800, 1750, 1710) | _ => (840, 900, 930, 950)

/-- A row at a junction temperature, in sixtieths of a MHz: between columns by interpolation, beyond them the last one (01 R17). -/
def rateCol (mv tj : Nat) : Nat :=
  let r := rateRow mv
  let t := max 40 (min tj 105)
  if t ≤ 70 then 2 * (r.1 * (70 - t) + r.2.1 * (t - 40))
  else if t ≤ 90 then 3 * (r.2.1 * (90 - t) + r.2.2.1 * (t - 70))
  else 4 * (r.2.2.1 * (105 - t) + r.2.2.2 * (t - 90))

/-- The rate that the slowest tile of an island would have without the ceiling: within 8 % of Table 01-4 (01 R17; log 8). -/
def freeRate (mv tj n : Nat) : Nat :=
  let v := if mv % 50 = 25 then rateCol (mv - 25) tj + rateCol (mv + 25) tj else 2 * rateCol mv tj
  let lo := (92 * v + 11999) / 12000
  lo + n % (108 * v / 12000 - lo + 1)

/-- No beat rate exceeds 1.80 Gbeat/s (01 R17). -/
def rateTop : Nat := 1800

/-- A matched delay is lengthened by a step (01 R17, 15 R377). -/
def Delay.lengthen (d : Delay) : Delay := if d.step < 255 then { d with step := d.step + 1, longer := (d.longer + 1) % 65536 } else d

/-- The shared reserve H, in mW (14 R357). -/
def shared : Nat := 1550000

def State.vFeed (s : State) : Nat := (s.feedInfo s.power.inUse).vin
/-- The feed in use is below 48.0 V (14 R365); 0 stands for a voltage not yet read. -/
def State.lowFeed (s : State) : Bool := s.vFeed ≠ 0 && decide (s.vFeed < 48000)
/-- S′ and X′ (14 R365), in mW. -/
def State.sustained (s : State) : Nat := if s.lowFeed then min s.power.sustained (67 * s.vFeed) else s.power.sustained
def State.excursion (s : State) : Nat := if s.lowFeed then min s.power.excursion (80 * s.vFeed) else s.power.excursion

/-- Quires that hold tiles under the plan. -/
def Quire.planned (q : Quire) : Bool := q.use == .running || q.use == .draining || q.use == .drained || q.use == .assigning
def State.plannedQuires (s : State) : List Nat := (List.range 16).filter fun q => (s.quire q).planned
/-- The sum of the energy shares, in mW (14 R357). -/
def State.shares (s : State) : Nat := (s.plannedQuires.map fun q => 1000 * (s.quire q).share).sum

/-- Step 2 of a plan: the credit, and whether lending has stopped (14 R358). -/
def Power.measure (p : Power) (sus exc pIn pSh : Nat) : Power :=
  let cap := (exc - sus) * p.length
  let credit := min cap ((p.credit : Int) - ((pIn : Int) - sus)).toNat
  let excess := if sus < pIn then p.excess + 1 else 0
  let may := decide (exc - sus ≤ credit) && decide (excess < p.length)
  { p with credit := credit, excess := excess, pIn := pIn, pSh := pSh
           lendStopped := if p.lendStopped then decide (credit ≠ cap) || !may else !may }

/-- Steps 3 and 4: what is lent to starved quires, in mW (14 R358). -/
def State.lent (s : State) (starved : List Nat) : Nat :=
  let b0 := max (s.sustained - shared) s.shares
  let b := if s.power.lendStopped then b0
    else max b0 (min (s.excursion - shared) (s.sustained - s.power.pSh - 50000))
  let idle := ((allTiles.filter fun t => !(s.tile t).assigned).map fun t => idleAt (s.island (islandOf t)).mv / 2).sum
  if starved.isEmpty then 0 else b - idle - b0

def Quire.tileCount (q : Quire) : Nat := (onesOf q.tiles).length

/-- A_q in mW (14 R358 step 4). -/
def State.allowance (s : State) (starved : List Nat) (lent q : Nat) : Nat :=
  let share := 1000 * (s.quire q).share
  let all := (starved.map fun p => (s.quire p).share).sum
  share + (if starved.contains q ∧ all ≠ 0 then lent * (s.quire q).share / all else 0)

/-- Stacks of a compute die (01 Table 01-1). -/
def stacksOf (die : Nat) : List Nat := (List.range 20).filter fun m => dieOfStack m == die
/-- A stack of the island's die is at throttle level 6 or below (14 R362). -/
def State.dieHot (s : State) (i : Nat) : Bool := (stacksOf (i / 4)).any fun m => decide ((s.stackOf m).level ≤ 6)

/-- The ceiling in force of an island. -/
def Island.top (x : Island) : Nat := min x.ceiling (min x.heat x.stack)
def rowsBelow (top : Nat) : List VRow := vrows.reverse.filter fun r => decide (r.mv ≤ top)

/-- V_q in the islands given, from an allowance (14 R358 step 5). -/
def State.quireVolt (s : State) (q a : Nat) : Nat :=
  let n := (s.quire q).tileCount
  let top := ((onesOf (s.quire q).tiles).map fun t => (s.island (islandOf (Fin.ofNat 192 t))).top).foldl min 900
  ((rowsBelow top).find? fun r => decide (n * r.full ≤ a)).map (·.mv) |>.getD 600

/-- The quires with tiles in an island. -/
def State.quiresIn (s : State) (i : Nat) : List Nat :=
  s.plannedQuires.filter fun q => (onesOf (s.quire q).tiles).any fun t => islandOf (Fin.ofNat 192 t) == i

/-- A quire's allowance as an island sees it: none of it lent while a stack of its die is hot (14 R362). -/
def State.allowanceIn (s : State) (starved : List Nat) (lent q i : Nat) : Nat :=
  if s.dieHot i then 1000 * (s.quire q).share else s.allowance starved lent q

/-- Step 6: the voltage of an island, with the 25 mV of 15 R378 and the lowering of R365. -/
def State.islandVolt (s : State) (starved : List Nat) (lent i : Nat) : Nat :=
  let x := s.island i
  let vs := (s.quiresIn i).map fun q => s.quireVolt q (s.allowanceIn starved lent q i)
  let top := ((rowsBelow x.top).head?.map (·.mv)).getD 600
  let v := if vs.isEmpty then 600 else min (vs.foldl min 900) top
  let v := if s.lowFeed && decide (s.sustained < s.power.pIn) && decide (s.sustained - shared < s.shares) then max 600 (min v (x.mv / 50 * 50 - 50)) else v
  if x.isStopped then 600 else if x.limitRise && decide (v + 25 ≤ x.top) then v + 25 else v

/-- Step 7: the refill of a tile in rpJ at an island's new voltage; while the rail moves to it the higher f_dyn applies (14 R358). -/
def State.refillOf (s : State) (starved : List Nat) (lent q i mv : Nat) : Nat :=
  let n := (s.quire q).tileCount
  let dyn := max (dynAt mv) (dynAt (s.island i).mv)
  if (s.island i).isStopped || n = 0 then 0
  else min (2 ^ 32 - 1) ((2 * s.allowanceIn starved lent q i - n * idleAt mv) * 1000000 / (n * dyn))

/-- The governor plans (14 R358 steps 3 to 8, R360; 16 Table 16-3): quires whose tiles starved get what is lent; delays are lengthened where an
island would pass the ceiling of 01 R17; every quire whose plan changes from an earlier one hears of it. -/
def State.plan (s : State) (starved : List Nat) : State :=
  let lent := s.lent starved
  let seqn := (s.power.planseq + 1) % 65536
  let before := s
  let s : State := { s with power := { s.power with planseq := seqn } }
  let (f, s) := s.takeFree
  let s := (List.range 16).foldl (fun s i =>
    let x := before.island i
    let mv := before.islandVolt starved lent i
    let x' : Island := { x with mv := mv, planseq := seqn, rate := min rateTop (freeRate mv x.tj (Config.sensor i f)), stopped := x.isStopped }
    let x' : Island := if (allTiles.any fun t => islandOf t == i && (before.tile t).delay.limit) then x' else { x' with limitRise := false }
    s.setIsland i x') s
  let s := allTiles.foldl (fun s t => s.updTile t fun x =>
    let q := x.quire.toNat
    let i := islandOf t
    let x := if rateTop < freeRate (s.island i).mv (s.island i).tj (Config.sensor i f) then { x with delay := x.delay.lengthen } else x
    if !x.assigned || !(before.quire q).planned then { x with smooth := false, egRefill := 0, egCap := 0 }
    else
      let r := before.refillOf starved lent q i (s.island i).mv
      { x with smooth := true, egRefill := r, egCap := min (2 ^ 32 - 1) (4 * r), hold := x.hold || (s.island i).isStopped }) s
  let t := s
  (s.runningQuires.filter fun q => (t.tilesOf q).any fun k =>
    (before.tile k).smooth &&
      ((t.tile k).egRefill ≠ (before.tile k).egRefill || (t.island (islandOf k)).mv ≠ (before.island (islandOf k)).mv)).foldl
    (fun s q => s.post q 5 none) s

/-- The quires whose tiles have starved since the last plan period began (14 R358 step 4). -/
def State.starvedQuires (s : State) : List Nat := s.plannedQuires.filter fun q => (s.tilesOf q).any fun t => (s.tile t).starvedNow
/-- The governor plans at once, on its last measurements (14 R358). -/
def State.replan (s : State) : State := if s.isReady then s.plan s.starvedQuires else s

/-- What an island's hottest junction does to its ceiling (14 R361). -/
def Island.heatStep (x : Island) (tj : Nat) : Island :=
  if 105 ≤ tj then { x with hot := true, heat := max 600 (min x.heat x.ceiling - 50), cool := 0 }
  else if x.hot then (if tj < 97 then { x with hot := false, heat := min 600 x.ceiling, cool := 0 } else x)
  else if 100 ≤ tj then { x with heat := max 600 (min x.heat x.ceiling - 50), cool := 0 }
  else if tj < 97 then
    (if 9 ≤ x.cool then { x with heat := min x.ceiling (x.heat + 50), cool := 0 } else { x with cool := x.cool + 1 })
  else { x with cool := 0 }

/-- What the stacks of its die do to an island's ceiling (14 R362). -/
def State.stackStep (s : State) (i : Nat) (x : Island) : Island :=
  let ms := stacksOf (i / 4)
  if ms.any fun m => (s.stackOf m).level == 0 then { x with stack := min x.stack 700, coolStack := 0 }
  else if s.dieHot i then { x with stack := if 700 < x.stack then max 700 (x.stack - 50) else x.stack, coolStack := 0 }
  else if ms.all fun m => (s.stackOf m).level == 8 then
    (if 9 ≤ x.coolStack then { x with stack := min x.ceiling (x.stack + 50), coolStack := 0 } else { x with coolStack := x.coolStack + 1 })
  else x

/-- An island's ceilings after a measurement, with the alarms of a change and of a stop; a restarted island's arrays run again. -/
def State.heatIsland (s : State) (i tj : Nat) : State :=
  let x := s.island i
  let y := s.stackStep i (x.heatStep tj)
  let s := s.setIsland i y
  let s := if y.heat ≠ x.heat || y.stack ≠ x.stack then s.alarm .islandCeiling i else s
  let s := if y.hot && !x.hot then s.alarm .islandStop i else s
  if x.hot && !y.hot then
    allTiles.foldl (fun s t =>
      if islandOf t = i && (s.tile t).assigned && (s.quire (s.tile t).quire.toNat).use == .running then
        s.updTile t fun z => { z with hold := false, arrOff := 0 } else s) s
  else s

/-- A delay whose smallest margin was 6 steps or more is shortened by one, about 1 % of its length, unless the rate would then pass the
ceiling (15 R377). -/
def Delay.shorten (d : Delay) (rate : Nat) : Delay :=
  if 6 ≤ d.margin ∧ 0 < d.step ∧ 101 * rate ≤ 100 * rateTop then { d with step := d.step - 1, margin := d.margin - 1, shorter := (d.shorter + 1) % 65536 } else d

/-- The energy of a quire's window in steps of 10 J: its work, and 0.12 J for each of its tiles (13 R346). -/
def Quire.windowEnergy (q : Quire) : Nat := (q.energy + 120000000000 * q.tileCount) / 10000000000000

/-- A window of 100 ms ends (13 R346). -/
def State.closeWindow (s : State) : State :=
  let w := (s.power.window + 1) % 2 ^ 32
  let s : State := { s with power := { s.power with window := w } }
  s.plannedQuires.foldl (fun s q => s.updQuire q fun x =>
    { x with windows := ((w, x.windowEnergy % 2 ^ 32) :: x.windows).take 64, energy := 0 }) s

/-- ENERGY_PLAN: the end of a plan period (14 R358, R361, R362; 13 R346; 15 R377; 16 R383). -/
def execEnergyPlan (m : PlanMeasure) (s : State) : Out :=
  .next (if !s.isReady then s
    else
      let starved := s.starvedQuires
      let s : State := { s with power := { s.power with
        info := Sparse.set FeedInfo.reset s.power.info s.power.inUse.ctorIdx { s.feedInfo s.power.inUse with vin := m.vFeed }, ticks := s.power.ticks + 1 } }
      let s : State := { s with power := s.power.measure s.sustained s.excursion m.pIn m.pSh }
      let s := (List.range 16).foldl (fun s i => (s.setIsland i { s.island i with tj := m.tj.getD i 0 }).heatIsland i (m.tj.getD i 0)) s
      let s := allTiles.foldl (fun s t => s.updTile t fun x => { x with delay := x.delay.shorten (s.island (islandOf t)).rate, starvedNow := !x.grantQ.isEmpty }) s
      let s := (s.plan starved).watchRisk
      if s.power.ticks % 100 = 0 then s.closeWindow else s)

/-- A tile's balance after a refill period (14 R354, R355). -/
def Tile.refill (x : Tile) : Tile :=
  { x with egBal := min (x.egBal + (x.egRefill - x.egDummy)) x.egCap, egDummy := 0
           egWaits := if x.waited then satAdd 16 x.egWaits 1 else x.egWaits, waited := !x.grantQ.isEmpty
           starvedNow := x.starvedNow || !x.grantQ.isEmpty }

/-- GRANT_REFILL: a refill period of 10 µs ends; no Spine, no refill (14 R355, 16 Table 16-8). -/
def execGrantRefill (s : State) : Out :=
  .next (if !s.spineUp then s else allTiles.foldl (fun s t => s.updTile t Tile.refill) s)

/-- The ceilings of islands that PLANSET gives: what heat and stacks have lowered stays lowered. -/
def Island.setCeiling (x : Island) (c : Nat) : Island :=
  { x with ceiling := c, heat := if x.ceiling ≤ x.heat then c else min x.heat c, stack := if x.ceiling ≤ x.stack then c else min x.stack c }

/-- PLANSET (14 R357, R358). -/
def execPlanset (c : Hdr) (p : PlanReq) (s : State) : Out :=
  .next (s.command c 0x0800 fun s _ =>
    let sus := (p.sustained.map (1000 * ·)).getD s.power.sustained
    let exc := (p.excursion.map (1000 * ·)).getD s.power.excursion
    let len := p.length.getD s.power.length
    let bad := match p.ceilings with | some l => decide (l.length ≠ 16) || l.any (fun v => decide (900 < v)) | none => false
    if bad || (p.sustained.isNone && p.excursion.isNone && p.length.isNone && p.ceilings.isNone) then .done stBadParam [] s
    else if 3200000 < sus ∨ 3800000 < exc ∨ 20 < len ∨ sus < 1800000 ∨ sus < shared + s.shares ∨ exc < sus then .done stPolicy [] s
    else
      let was := s
      let s : State := { s with power := { s.power with
        sustained := sus, excursion := exc, length := len, credit := min s.power.credit ((exc - sus) * len) } }
      let s := match p.ceilings with
        | none => s
        | some l => (List.range 16).foldl (fun s i => s.setIsland i ((s.island i).setCeiling (l.getD i 900))) s
      let s := allTiles.foldl (fun s t =>
        if (was.island (islandOf t)).isStopped && !(s.island (islandOf t)).isStopped && (s.tile t).assigned &&
            (s.quire (s.tile t).quire.toNat).use == .running then s.updTile t fun z => { z with hold := false, arrOff := 0 } else s) s
      .done stOk [] s.replan)

/-- PLANGET: budgets, ceilings and voltages in force, and planseq. -/
def execPlanget (c : Hdr) (s : State) : Out :=
  .next (s.command c 0x0801 fun s _ =>
    .done stOk [{ type := 0x81, vals := [s.power.sustained / 1000, s.power.excursion / 1000, s.power.length] ++
        (List.range 16).map (fun i => (s.island i).ceiling) ++ (List.range 16).map (fun i => (s.island i).mv) },
      { type := 0x82, vals := [s.power.planseq] }] s)

/-- The windows of a quire, newest first: sequence number above bit 32, steps of 10 J below (13 Table 13-7). -/
def Quire.windowWords (q : Quire) : List Nat := q.windows.map fun w => w.2 + 2 ^ 32 * w.1

/-- READING: fine readings for the device owner, the quire's windows for its owner (12 Table 12-13; 13 R346; log 8). -/
def execReading (c : Hdr) (windows : Nat) (s : State) : Out :=
  .next (s.command c 0x0802 fun s x =>
    match x.role with
    | .quire q => .done stOk [{ type := 0x81, vals := (s.quire q).windowWords.take windows }] s
    | _ =>
      let (f, s) := s.takeFree
      .done stOk [{ type := 0x81, vals := (List.range 36).map fun i => Config.sensor (100 + i) f }] s)

/-- FEEDS: tag, voltage, current and use of each feed (14 R366). -/
def execFeeds (c : Hdr) (s : State) : Out :=
  .next (s.command c 0x0803 fun s _ =>
    let one (f : Feed) (tag : BitVec 6) : Tlv :=
      { type := 0x81, vals := [tag.toNat, (s.feedInfo f).vin, (s.feedInfo f).iout, natOf (decide (s.power.inUse = f) && s.power.state ≠ .off), s.power.state.code] }
    .done stOk [one .main s.power.tags.main, one .backup s.power.tags.backup] s)

/-- RING_CALIBRATION: the Spine publishes a period (01 R21, Table 01-8, Table 01-9). -/
def execRingCalibration (i : IslandId) (period : BitVec 32) (s : State) : Out :=
  let x := s.island i.val
  let (f, s) := s.takeFree
  .next (s.setIsland i.val
    { x with period := period.toNat, calseq := (x.calseq + 1) % 65536, calvalid := true
             rate := min rateTop (freeRate x.mv x.tj (Config.sensor i.val f)) })

/-- MARGIN_LENGTHEN: a margin below 2 steps lengthens its delay (15 R377); at step 255 the limit is reached (R378). -/
def execMarginLengthen (t : TileId) (s : State) : Out :=
  .next (s.updTile t fun x =>
    let d := x.delay
    { x with delay := if d.step < 255 then { d with step := d.step + 1, margin := min d.margin 1, longer := (d.longer + 1) % 65536 }
                      else { d with margin := min d.margin 1 } })

/-- RISK_DECAY (16 R383, R384). -/
def execRiskDecay (s : State) : Out := .next ({ s with score := s.score - 1 } : State).watchRisk

/-- Send a Spine message on every port that is up (16 R401, Table 16-7). -/
def State.flood (s : State) (kind dev inc : Nat) : State :=
  (List.range 16).foldl (fun s p =>
    let x := s.port p
    if !x.isUp then s
    else s.enqueue p none false
      { dst := BitVec.ofNat 20 x.peer, src := s.device, type := 0x3D, dquire := 0, squire := 0, hops := 0, addr := 0, len := 16, status := 0
        txn := 0, tile := 0xFF, strand := 0, op := 0, word3 := 0, ecrcOk := true
        payload := leBytes 1 kind ++ leBytes 3 dev ++ leBytes 4 inc ++ List.replicate 8 0 }) s

def State.setFeed (s : State) (f : Feed) (x : FeedInfo) : State :=
  { s with power := { s.power with info := Sparse.set FeedInfo.reset s.power.info f.ctorIdx x } }
def State.setGood (s : State) (f : Feed) (b : Bool) : State := s.setFeed f { s.feedInfo f with good := b }
def State.setFeedState (s : State) (st : FeedState) : State := { s with power := { s.power with state := st } }
def otherFeed (f : Feed) : Feed :=
  match f with | .main => .backup | .backup => .main

/-- A switch-over begins toward a feed (14 R363, R364; 16 Table 16-2). -/
def State.switchTo (s : State) (f : Feed) : State :=
  let s : State := { s with power := { s.power with state := .switching, inUse := f } }
  ((s.alarm .feedSwitch f.ctorIdx).risk 32).replan

/-- The lost state: going down is flooded (14 R364, 16 R401). -/
def State.loseFeeds (s : State) : State :=
  ((s.setFeedState .lost).alarm .feedLost 0).flood 1 s.device.toNat s.incarnation

/-- A feed fails (14 Table 14-5). -/
def State.feedFails (s : State) (f : Feed) : State :=
  let s := s.setGood f false
  match s.power.state with
  | .main => if f = .main then s.switchTo .backup else ((s.setFeedState .single).watchRisk).replan
  | .backup => if f = .backup then s.switchTo .main else ((s.setFeedState .single).watchRisk).replan
  | .switching => if f = s.power.inUse then s.loseFeeds else s
  | .single => if f = s.power.inUse then s.loseFeeds else s
  | _ => s
def execFeedFail (f : Feed) (s : State) : Out := .next (s.feedFails f)

/-- FEED_NOT_GOOD: a feed ceases to be good without failing; the other feed is then the only good one (14 Table 14-5). While the feed drawn from
is the one that is not good, the table gives no change of state until it fails. -/
def execFeedNotGood (f : Feed) (s : State) : Out :=
  let s := s.setGood f false
  .next (match s.power.state with
    | .main => if f = .backup then ((s.setFeedState .single).watchRisk).replan else s
    | .backup => if f = .main then ((s.setFeedState .single).watchRisk).replan else s
    | _ => s)

/-- FEED_GOOD (14 Table 14-5). A feed without a strapped tag is never good (R363). -/
def execFeedGood (f : Feed) (s : State) : Out :=
  let tag : BitVec 6 := match f with | .main => s.power.tags.main | .backup => s.power.tags.backup
  .next (if tag = 0x3F then s
    else
      let s := s.setGood f true
      match s.power.state with
      | .single => if f ≠ s.power.inUse then
          ((s.setFeedState (match s.power.inUse with | .main => .main | .backup => .backup)).watchRisk).replan else s
      | _ => s)

/-- A health message (16 Table 16-7) that names a device. -/
def healthBytes (kind dev inc : Nat) : List Byte := leBytes 1 kind ++ leBytes 3 dev ++ leBytes 4 inc

/-- This module's feed tags go to a device (14 R366). -/
def State.sendTags (s : State) (dev : Nat) : State :=
  s.sendSpine dev 0x3D (healthBytes 5 s.device.toNat s.incarnation ++ [s.power.tags.main.setWidth 8, s.power.tags.backup.setWidth 8])

/-- The straps of both feeds are read (14 R366, 17 R416); a feed without a tag is not good (R363). -/
def State.readStraps (s : State) (tags : FeedTags) : State :=
  let s : State := { s with power := { s.power with tags := tags } }
  let s := if tags.main = 0x3F then s.setGood .main false else s
  if tags.backup = 0x3F then s.setGood .backup false else s

/-- FEED_TRANSFER_DONE: the module draws from the new feed (14 Table 14-5); the straps are read, and a partner is told the tags, as at
every switch-over (R366). -/
def execFeedTransferDone (tags : FeedTags) (s : State) : Out :=
  .next (match s.power.state with
    | .switching =>
      let s := s.readStraps tags
      let st := if !(s.feedInfo (otherFeed s.power.inUse)).good then FeedState.single
        else match s.power.inUse with | .main => .main | .backup => .backup
      let s := ((s.setFeedState st).watchRisk).replan
      match s.survive.partner with
      | some d => s.sendTags d
      | none => s
    | _ => s)

/-- MAIN_GOOD_TIMER: main has been good for 10 s (14 Table 14-5). -/
def execMainGoodTimer (s : State) : Out :=
  .next (if s.power.state = .backup ∧ (s.feedInfo .main).good then s.switchTo .main else s)

/-- PMBUS_POLL: a shelf's fault fails its feed; three polls without an answer raise an alarm (14 R363, 17 R417). -/
def execPmbusPoll (f : Feed) (r : PmbusReply) (s : State) : Out :=
  let x := s.feedInfo f
  .next (if s.power.state = .off then s
    else if !r.answered then
      let n := min (x.missed + 1) 3
      let s := s.setFeed f { x with missed := n }
      if n = 3 ∧ x.missed ≠ 3 then s.alarm .shelfSilent f.ctorIdx else s
    else
      let s := s.setFeed f { x with missed := 0, vin := r.vin, iout := r.iout }
      if r.fault then s.feedFails f else s)

end Sys2Proof.Machine
end

