-- ==== Sys2Proof/Machine/Quire.lean ====
section
/-! DEFINITION. Quires (13): tile reset and clear, set-up, QCREATE and QMODIFY, release and fill, key rotation, readings, the measurement
log and the attestation report. -/

namespace Sys2Proof.Machine

/-- Tile reset (01 R22; 02 R33; 03 Table 03-15; 06 R146; 07 R193; 08 R216; 14 R356): what it leaves is the delays, the weight generation, the tile's place in its quire, its cache tags and translations, and the credits of its stack ports. -/
def Tile.reset' (x : Tile) : Tile :=
  { Tile.reset with
    delay := x.delay, wgen := x.wgen, credits := x.credits, icache := x.icache, tlb := x.tlb
    bsBase := x.bsBase, bsPhys := x.bsPhys, floor := x.floor, quire := x.quire, assigned := x.assigned, ptRoot := x.ptRoot, bw := x.bw
    opNext := x.opNext, vnext := x.vnext, use := x.use, resetLately := x.resetLately }

/-- Tile clear (13 R331). -/
def Tile.clear (x : Tile) : Tile :=
  { Tile.reset with
    delay := x.delay, wgen := x.wgen, credits := x.credits, opNext := x.opNext, vnext := x.vnext
    use := if x.use = .unavailable then .unavailable else .normal }

/-- An unavailable tile: cleared, its arrays held and its strands stopped (15 R376). -/
def Tile.retire (x : Tile) : Tile :=
  let x := { x.clear with use := .unavailable }
  allStrands.foldl (fun x h => x.updStrand h fun r => { r with run := .stopped }) x

/-- A warrant of a kind with rights (bits 24 up), derive bit, and payload (03 R61). -/
def mkWarrant (kind q rights derive payload : Nat) : Warrant :=
  BitVec.ofNat 128 (kind + 2 ^ 4 * q + 2 ^ 8 * 0xFFFF + 2 ^ 24 * rights + 2 ^ 31 * derive + 2 ^ 32 * payload)
/-- The payload of a region. -/
def region (e len base : Nat) : Nat := e + 2 ^ 6 * len + 2 ^ 32 * base

/-- The virtual base of every backstop region (13 R327). -/
def backstopBase : Nat := 0x00FFFFFFFFFFC000

/-- BW0 to BW3 (13 R327). -/
def backstopWarrants (t : TileId) (q : Nat) : Sparse Warrant :=
  [(0, mkWarrant 1 q 7 0 (region 14 1 backstopBase)), (1, mkWarrant 3 q 3 0 (region 24 1 (tileBlock t))),
   (2, mkWarrant 1 q 3 0 (region 31 (2 ^ 25) 0))]

/-- The backstop handler of the running firmware: the half of a backstop region below the strands' frames (13 R327; 03 R86; log 8). -/
def handler (image : Nat) : Sparse Byte :=
  ((List.range 8192).map fun i => (i, Config.backstopByte image i)).filter (·.2 ≠ 0)

/-- The backstop image in force, by the digest of component 2 (13 Table 13-8). -/
def State.backstopImage (s : State) : Nat := s.slot.digests.getD 1 0

/-- A cleared tile is set up for a quire (13 R327 step 5): `k` is its place among the quire's tiles. -/
def State.setUpTile (s : State) (t : TileId) (q header k : Nat) (floor : BitVec 16) : State :=
  let phys := header * 2 ^ 21 + 0x10000 + 0x4000 * k
  let img := handler s.backstopImage
  let s := s.updTile t fun x =>
    { x.clear with
      quire := BitVec.ofNat 4 q, floor := floor, assigned := true, ptRoot := word (header * 2 ^ 21), bsBase := word backstopBase
      bsPhys := word phys, backstop := img, bw := backstopWarrants t q, hold := false, arrOff := 0 }
  img.foldl (fun s e => s.writeBytes (phys + e.1) [e.2]) (s.zeroBytes phys 8192)

/-- The numbers of ranges (first, count). -/
def rangeNums (rs : List (Nat × Nat)) : List Nat := rs.flatMap fun r => (List.range r.2).map (r.1 + ·)

/-- Regions that the quire holds, in address order. -/
def State.regionsOf (s : State) (q : Nat) : List Nat :=
  (s.mem.regions.filter fun e => e.2.quire == q && (e.2.state == .assigned || e.2.state == .lost || e.2.state == .rotating)).map (·.1)

/-- The sum of the uncapped rates of the quires, with those given for quire `q` (12 R318). -/
def State.rateSum (s : State) (q rate : Nat) (cap : Bool) : Nat :=
  (if cap then 0 else rate) +
    (((List.range 16).filter fun p => p ≠ q && (s.quire p).use ≠ .free && !(s.quire p).cap).map fun p => (s.quire p).rate).sum

/-- The energy budget admits a share (12 R318, 14 R357), in watts, for `n` tiles of quire `q`. -/
def State.shareOk (s : State) (q share n : Nat) : Bool :=
  let others := ((s.plannedQuires.filter (· ≠ q)).map fun p => 1000 * (s.quire p).share).sum
  decide (2 * n ≤ share) && decide (others + 1000 * share ≤ s.power.sustained - shared)

def rightOk (r : RightReq) : Bool := decide (0 < r.count) && decide (r.first + r.count ≤ 2 ^ 20) && decide (r.peer < 16)

/-- The form of QCREATE (13 R326; 12 Table 12-7). -/
def qcreateFormOk (p : QCreateReq) (q : Nat) : Bool :=
  let all := p.regions ++ p.seals
  let n := (onesOf p.tiles).length
  decide (q < 16) && n ≠ 0 && p.regions.all (fun r => 0 < r.2) && p.seals.all (fun r => 0 < r.2) &&
  (match p.regions.head? with
   | some r => decide (2 ^ 16 + 2 ^ 14 * n ≤ 2 ^ 21 * r.2)
   | none => false) &&
  (all.map fun r => r.1 + r.2).all (fun e => decide (e ≤ 638976)) && decide (rangeNums all).Nodup &&
  decide (p.rate ≤ 256) && (match p.groups with | some g => decide (g.1 + g.2 ≤ 4096) | none => true) &&
  decide (p.rights.length ≤ 8) && p.rights.all rightOk

/-- The group numbers of other quires. -/
def State.groupsTaken (s : State) (q : Nat) (g : Nat × Nat) : Bool :=
  (List.range 16).any fun p => p ≠ q && (s.quire p).use ≠ .free && (match (s.quire p).groups with
    | some o => decide (g.1 < o.1 + o.2) && decide (o.1 < g.1 + g.2)
    | none => false)

/-- Tiles, regions, groups and the number are free (12 R318, 13 R334). -/
def State.freeFor (s : State) (q : Nat) (p : QCreateReq) : Bool :=
  (s.quire q).use == .free && !(s.quire q).discarding &&
  (onesOf p.tiles).all (fun t => let x := s.tile (Fin.ofNat 192 t); !x.assigned && x.use == .normal) &&
  (rangeNums (p.regions ++ p.seals)).all (fun i => decide (i < 512 * s.mem.ctop) && (s.region i).state == .free) &&
  (match p.groups with | some g => !s.groupsTaken q g | none => true)

/-- Put regions into a quire (13 R327 step 3). -/
def State.assignRegions (s : State) (q : Nat) (rs : List Nat) (isSeal gen : Bool) : State :=
  rs.foldl (fun s i => s.setRegion i { state := .assigned, quire := q, isSeal := isSeal, gen := gen }) s

/-- REGq in every Tailband (09 R225). -/
def State.setRegulators (s : State) (q rate : Nat) (cap : Bool) : State :=
  (List.range 20).foldl (fun s m =>
    let st := s.stackOf m
    s.setStack m { st with regs := Sparse.upd Regulator.reset st.regs q fun r => { r with rate := rate, cap := cap } }) s

/-- RIGHTSq,j (10 R277). -/
def State.setRights (s : State) (q : Nat) (rs : List RightReq) : State :=
  (List.range 8).foldl (fun s j =>
    let r : Right := match rs[j]? with
      | some x => { first := x.first, count := x.count, peer := x.peer, valid := true }
      | none => Right.reset
    { s with rights := Sparse.set Right.reset s.rights (8 * q + j) r }) s

/-- Report bytes 0x1D0 to 0x2DF: the composition in force (13 R350, Table 13-10). -/
def State.configBytes (s : State) (q : Nat) : List Byte :=
  let x := s.quire q
  let rs := s.regionsOf q
  let list := rs.flatMap fun i => leBytes 4 i ++ leBytes 1 (natOf (s.region i).isSeal) ++ leBytes 3 0
  leBytes 24 x.tiles.toNat ++ leBytes 4 rs.length ++ leBytes 4 (rs.filter fun i => (s.region i).isSeal).length ++
    leBytes 48 (Config.sha384 list) ++ leBytes 2 x.rate ++ leBytes 1 (natOf x.cap) ++ leBytes 1 0 ++ leBytes 2 x.share ++ leBytes 2 0 ++
    leBytes 2 ((x.groups.map (·.1)).getD 0) ++ leBytes 2 ((x.groups.map (·.2)).getD 0) ++ leBytes 4 0 ++
    ((List.range 8).flatMap fun j => let r := s.right q j
      leBytes 4 r.first ++ leBytes 4 r.count ++ leBytes 1 r.peer ++ leBytes 1 (natOf r.valid) ++ leBytes 6 0) ++
    leBytes 48 (Config.sha384 (leBytes 384 x.rsaKey ++ leBytes 48 x.slhKey))

def State.appendLog (s : State) (q : Nat) (e : MeasEntry) : State := s.updQuire q fun x => { x with log := x.log ++ [e] }

/-- The composition steps of QCREATE: key, regions, shares (13 R327 steps 2 to 4); `copy` marks a copy quire (16 R395). -/
def State.compose (s : State) (q : Nat) (p : QCreateReq) (copy : Option (Nat × Nat)) : State :=
  let (f, s) := s.takeFree
  let s := s.setQuire q
    { Quire.reset with
      use := .assigning, copyOf := copy, tiles := p.tiles, header := (p.regions.head?.map (·.1)).getD 0, rate := p.rate, cap := p.cap
      share := p.share, groups := p.groups, rsaKey := p.rsaKey, slhKey := p.slhKey, keys := [(0, Config.drbgKey f + 1)] }
  let s := s.assignRegions q (rangeNums p.regions) false false
  let s := s.assignRegions q (rangeNums p.seals) true false
  let s := (rangeNums p.seals).foldl State.zeroRegion s
  let s := s.zeroBytes ((s.quire q).header * 2 ^ 21) 0x8000
  let s := (s.setRegulators q p.rate p.cap).setRights q p.rights
  { s with counts := Sparse.clear s.counts (16 * q) 16, noReplay := Sparse.set false s.noReplay q false }

/-- The tiles of a quire, each set up after its self-test has passed; one that fails is unavailable (13 R327 step 5, 15 R376, 16 Table 16-2). -/
def State.setUpTiles (s : State) (q : Nat) (tiles : BitVec 192) (bad : List Nat) (floor : BitVec 16) : State :=
  (onesOf tiles).zipIdx.foldl (fun s (t, k) =>
    let id : TileId := Fin.ofNat 192 t
    if bad.contains t then
      ((s.updTile id Tile.retire).alarm .selfTestFailed t).risk 32
    else s.setUpTile id q (s.quire q).header k floor) s

/-- Destroy what a drained quire holds and begin its scrubbing (13 R330 steps 1 to 4). -/
def State.beginScrub (s : State) (q : Nat) : State :=
  let x := s.quire q
  let s := s.mem.regions.foldl (fun s e => if e.2.quire == q && (e.2.state == .assigned || e.2.state == .lost || e.2.state == .rotating) then
    s.setRegion e.1 { e.2 with state := .scrubbing } else s) s
  let tell := x.copied && s.survive.partner.isSome
  let s := match s.survive.partner with
    | some d => if x.copied then s.sendSpine d 0x3F ([6, BitVec.ofNat 8 q] ++ leBytes 2 0 ++ leBytes 4 x.number) else s
    | none => s
  let s := (s.setRights q []).setRegulators q 0 false
  let s : State := { s with groups := s.groups.filter fun e => match e.2 with | some g => g.quire ≠ q | none => false
                            survive := { s.survive with jobs := s.survive.jobs.filter (·.quire ≠ q) } }
  let s := (onesOf x.tiles).foldl (fun s t => s.updTile (Fin.ofNat 192 t) Tile.clear) s
  let (f, s) := s.takeFree
  s.setQuire q { x with use := .scrubbing, keys := [], sweep := none, share := 0, rate := 0, fillKey := Config.drbgKey f + 1, filled := 0
                        discarding := tell, late := false }

/-- The last step of a release, once nothing of the quire is left to fill (13 R330 step 6, R333). -/
def State.endScrub (s : State) (q : Nat) : State :=
  let x := s.quire q
  if x.use ≠ .scrubbing || (s.mem.regions.any fun e => e.2.quire == q && e.2.state == .scrubbing) then s
  else
    let s := s.setQuire q { Quire.reset with discarding := x.discarding, late := x.late, number := if x.discarding then x.number else 0 }
    let s : State := { s with counts := Sparse.clear s.counts (16 * q) 16, noReplay := Sparse.set false s.noReplay q false }
    let s := if x.late then s.finishWhere (· == .release q) stFailed (detail 4)
      else if x.discarding then s else s.finishWhere (· == .release q) stOk []
    let owners := (s.net.sessions.filter fun e => match e.2 with | some y => y.role == .quire q | none => false).map (·.1)
    (owners.foldl State.closeSession s).replan

/-- FILL_REGION: the fill of one region completes, in increasing address order (13 R332; 09 R244). -/
def execFillRegion (q : QuireId) (s : State) : Out :=
  .next (if s.anyStopped then s else match s.mem.regions.find? fun e => e.2.quire == q.val && e.2.state == .scrubbing with
    | none => s.endScrub q.val
    | some e =>
      let s := ((s.zeroRegion e.1).chargeOwn (8192 * e.1) 8192 1).setRegion e.1 Region.reset
      let s : State := { s with mem := { s.mem with dirty := Sparse.set false s.mem.dirty e.1 false }, lost := s.lost.filter (· ≠ e.1) }
      let s := s.updQuire q.val fun x => { x with filled := x.filled + 1 }
      let s := if s.mem.restripe = .waiting then s.tryRestripe s.mem.target else s
      s.endScrub q.val)

/-- QCREATE (12 R318; 13 R326, R327). -/
def execQcreate (c : Hdr) (p : QCreateReq) (s : State) : Out :=
  .next (s.command c 0x0200 fun s _ =>
    let q := c.quire
    if !qcreateFormOk p q then .done stBadParam [] s
    else if 256 < s.rateSum q p.rate p.cap || !s.shareOk q p.share (onesOf p.tiles).length then .done stPolicy [] s
    else if !s.freeFor q p then .done stNoResource [] s
    else
      let s := (s.compose q p none).setUpTiles q p.tiles p.badTiles 0
      if (onesOf p.tiles).any p.badTiles.contains then
        .both stPending [] stFailed [] ((s.updQuire q fun x => { x with use := .drained }).beginScrub q)
      else
        let s := s.updQuire q fun x => { x with use := .running }
        .both stPending [] stOk []
          (s.appendLog q { kind := 0, addr := 0, len := 0, digest := Config.sha384 (s.configBytes q) }).replan)

/-- 13 Table 13-1, as QQUERY reports it. -/
def QuireUse.code (u : QuireUse) : Nat := u.ctorIdx

/-- QQUERY: state, composition, regions filled, and a discard still outstanding (12 Table 12-7, 13 R330, R333). -/
def execQquery (c : Hdr) (s : State) : Out :=
  .next (s.command c 0x0201 fun s _ =>
    let x := s.quire c.quire
    .done stOk [{ type := 0x81, vals := [x.use.code] },
      { type := 0x82, vals := [x.tiles.toNat, x.rate, natOf x.cap, x.share, (x.groups.map (·.1)).getD 0, (x.groups.map (·.2)).getD 0] ++
        ((s.regionsOf c.quire).flatMap fun i => [i, natOf (s.region i).isSeal]) ++
        ((List.range 8).flatMap fun j => let r := s.right c.quire j; [r.first, r.count, r.peer, natOf r.valid]) },
      { type := 0x83, vals := [x.filled] }, { type := 0x84, vals := [natOf x.discarding] }] s)

/-- The numbers that a QMODIFY carries, for the digest of its log entry (13 Table 13-9; log 7). -/
def qmodifyNums (p : QModifyReq) : List Nat :=
  (match p.bandwidth with | some b => [1, b.1, natOf b.2] | none => []) ++ (match p.share with | some n => [2, n] | none => []) ++
    (match p.rights with | some rs => 3 :: rs.flatMap fun r => [r.first, r.count, r.peer] | none => []) ++
    (match p.add with | some rs => 4 :: rs.flatMap fun r => [r.1, r.2] | none => [])

/-- QMODIFY (12 R318; 13 R326, Table 13-6, R348). -/
def execQmodify (c : Hdr) (p : QModifyReq) (s : State) : Out :=
  .next (s.command c 0x0202 fun s _ =>
    let q := c.quire
    let x := s.quire q
    let rate := (p.bandwidth.map (·.1)).getD x.rate
    let cap := (p.bandwidth.map (·.2)).getD x.cap
    let share := p.share.getD x.share
    let rights := p.rights.getD []
    let add := rangeNums (p.add.getD [])
    if (p.bandwidth.isNone && p.share.isNone && p.rights.isNone && p.add.isNone) || decide (256 < rate) || decide (8 < rights.length) ||
        !rights.all rightOk || ((p.add.getD []).any fun r => r.2 == 0 || decide (638976 < r.1 + r.2)) || !decide add.Nodup then
      .done stBadParam [] s
    else if 256 < s.rateSum q rate cap || !s.shareOk q share x.tileCount then .done stPolicy [] s
    else if !(add.all fun i => decide (i < 512 * s.mem.ctop) && (s.region i).state == .free) || !x.room then .done stNoResource [] s
    else
      let s := s.setQuire q { x with rate := rate, cap := cap, share := share }
      let s := if p.bandwidth.isSome then s.setRegulators q rate cap else s
      let s := if p.rights.isSome then s.setRights q rights else s
      let gen := match x.sweep with | some w => w.slot | none => (Sparse.get 0 x.keys 0) == 0
      let s := s.assignRegions q add false gen
      .done stOk [] (s.appendLog q { kind := 3, addr := 0, len := 0, digest := Config.sha384 (natBytes (qmodifyNums p) 8) }).replan)

/-- The slot that no region names (13 R341). -/
def Quire.emptySlot (x : Quire) : Nat := if Sparse.get 0 x.keys 0 = 0 then 0 else 1

/-- A rotation starts: a key into the empty slot, and the regions to sweep (13 R342). -/
def State.startSweep (s : State) (q : Nat) : State :=
  let x := s.quire q
  let (f, s) := s.takeFree
  let k := x.emptySlot
  s.setQuire q { x with keys := Sparse.set 0 x.keys k (Config.drbgKey f + 1), sweep := some { slot := k == 1, todo := s.regionsOf q } }

/-- KEYROTATE (12 R318; 13 R342, R348). -/
def execKeyrotate (c : Hdr) (s : State) : Out :=
  .next (s.command c 0x0205 fun s _ =>
    let x := s.quire c.quire
    if x.sweep.isSome then .done stBusy [] s
    else if !x.room then .done stNoResource [] s
    else .pend stPending [] (.rotate c.quire) (s.startSweep c.quire))

/-- The sweep is over: the old slot is zeroed, and an entry records the rotation (13 R342 steps 3 and 4). One that a drain has cut leaves both
slots as they are (Table 13-6). -/
def State.endSweep (s : State) (q : Nat) : State :=
  let x := s.quire q
  match x.sweep with
  | some { slot, todo := [] } =>
    if x.use ≠ .running then s.setQuire q { x with sweep := none } else
    let s := s.setQuire q { x with sweep := none, keys := Sparse.set 0 x.keys (if slot then 0 else 1) 0 }
    (s.appendLog q { kind := 4, addr := 0, len := 0, digest := 0 }).finishWhere (· == .rotate q) stOk []
  | _ => s

/-- Region `i` is rewritten under a slot and is assigned again: an error in a unit is met, and units that cannot be read become zeros in a
region that is lost (13 R342, Table 13-6). -/
def State.rewriteRegion (s : State) (i : Nat) (slot : Bool) : State :=
  let r := s.region i
  let s := (s.chargeOwn (8192 * i) 8192 2).setRegion i { r with gen := slot, state := if r.state = .rotating then .assigned else r.state }
  let bad := s.mem.errs.filter fun e => e.1 / 65536 == i && e.2 == .bad
  bad.foldl (fun s e => s.zeroBytes (32 * e.1) 32) (s.meet fun u => u / 65536 == i).2

/-- KEY_SWEEP_REGION: the sweep sets its next region to rotating, which holds requests to it; when it already is, it is rewritten under the new
slot (13 R342, Table 13-6; 09 R247). A lost region serves nobody and is rewritten at once. -/
def execKeySweepRegion (q : QuireId) (s : State) : Out :=
  let x := s.quire q.val
  .next (if s.anyStopped then s else match x.sweep with
    | none => s
    | some w => match w.todo with
      | [] => s.endSweep q.val
      | i :: rest =>
        if (s.region i).state = .assigned then s.setRegion i { s.region i with state := .rotating }
        else ((s.setQuire q.val { x with sweep := some { w with todo := rest } }).rewriteRegion i w.slot).endSweep q.val)

/-- The value that a counter reads as (13 R345). -/
def coarse (n : Nat) : Nat := n / 1024 * 1024

/-- A reading of Table 13-7; none for a selector that it does not list. -/
def State.quireReading (s : State) (q sel : Nat) : Option Nat :=
  let x := s.quire q
  if sel < 10 then some (coarse (Sparse.get 0 s.counts (16 * q + sel)))
  else if 0x100 ≤ sel ∧ sel < 0x140 then some (x.windowWords.getD (sel - 0x100) 0)
  else if sel = 0x200 then some (match x.sweep with | some w => 1 + 2 ^ 32 * w.todo.length | none => 0)
  else if sel = 0x201 then some (natOf (!Sparse.get false s.noReplay q))
  else none

/-- qread (13 R344). -/
def execQread (a : At) (f : RF) (s : State) : Out :=
  sysOp a [] [f.rd, f.rs2] (fun s =>
    s.needs a f.rs1 [6] (some 27) fun _ =>
      match s.quireReading (s.tile a.t).quire.toNat (((s.strand a).g f.rs2).toNat % 65536) with
      | none => illegal s a
      | some v => result s a f.rd (word v)) s

/-- qrekey (13 R342, R344): 1 while a rotation or the lack of a log entry's room forbids it (log 22). -/
def execQrekey (a : At) (f : RF) (s : State) : Out :=
  sysOp a [f.rs2] [f.rd] (fun s =>
    s.needs a f.rs1 [6] (some 25) fun _ =>
      let q := (s.tile a.t).quire.toNat
      if (s.quire q).sweep.isSome || !(s.quire q).room then result s a f.rd 1
      else result (s.startSweep q) a f.rd 0) s

/-- COUNTERS: the ten counts of Table 13-7, coarsened; set 0 is the one set (12 Table 12-14, 13 R344, R345; log 21). -/
def execCounters (c : Hdr) (set : Nat) (s : State) : Out :=
  .next (s.command c 0x0904 fun s _ =>
    if set ≠ 0 then .done stBadParam [] s
    else .done stOk [{ type := 0x81, vals := (List.range 10).map fun k => coarse (Sparse.get 0 s.counts (16 * c.quire + k)) }] s)

/-- MEASLOG from an entry (12 Table 12-10): 4,095 entries of 64 bytes fill 256 KiB, 1,023 to a TLV (R310). -/
def execMeaslog (c : Hdr) (first : Nat) (s : State) : Out :=
  .next (s.command c 0x0502 fun s _ =>
    let es := ((s.quire c.quire).log.zipIdx.drop first).take 4095
    .done stOk (pages 0x81 (5 * 1023) 6 (es.flatMap fun (e, i) => [i, e.kind, e.addr, e.len, e.digest]) ++
      [{ type := 0x82, vals := [natOf (decide (first + 4095 < (s.quire c.quire).log.length))] }]) s)

/-- REPLAYREC: the flag, the position of the last committed checkpoint, and where replay was lost (16 R394). -/
def execReplayrec (c : Hdr) (s : State) : Out :=
  .next (s.command c 0x0604 fun s _ =>
    let x := s.quire c.quire
    .done stOk [{ type := 0x81, vals := [natOf (!Sparse.get false s.noReplay c.quire)] }, { type := 0x82, vals := [x.position] },
      { type := 0x83, vals := (x.log.filter (·.kind == 5)).map (·.addr) }] s)

/-- The 64 bytes of entry `i` (13 Table 13-9): bytes 0 to 39 of the digest. -/
def MeasEntry.bytes (e : MeasEntry) (i : Nat) : List Byte :=
  leBytes 4 i ++ leBytes 1 e.kind ++ leBytes 3 0 ++ leBytes 8 e.addr ++ leBytes 8 e.len ++ leBytes 40 e.digest

/-- D (13 R348). -/
def Quire.logDigest (q : Quire) : Nat :=
  q.log.zipIdx.foldl (fun d (e, i) => Config.sha384 (leBytes 48 d ++ e.bytes i)) 0

/-- The bytes of the report before its certificates (13 Table 13-10). -/
def State.reportBytes (s : State) (q : Nat) (nonce : List Byte) : List Byte :=
  let x := s.quire q
  let loads := x.log.zipIdx.filter fun e => e.1.kind == 1 || e.1.kind == 2
  let k5 := ((x.log.zipIdx.find? (·.1.kind == 5)).map (·.2)).getD 0xFFFFFFFF
  leBytes 4 0x52544B5A ++ leBytes 2 1 ++ leBytes 2 (natOf (!Sparse.get false s.noReplay q)) ++ leBytes 4 s.device.toNat ++
    leBytes 1 (natOf (!s.grade768)) ++ leBytes 1 q ++ leBytes 2 s.slot.svn ++ nonce ++ (s.slot.five.flatMap (leBytes 48)) ++
    leBytes 48 (match s.boot.record with | some r => Config.sha384 (natBytes (r.grade :: r.serialIndex :: r.arrays ++ r.macs ++ r.chx) 8 ++ r.serial) | none => 0) ++
    leBytes 48 (Config.sha384 (natBytes [s.owner.seqno, s.owner.device, s.owner.bootsvn, s.owner.peersvn, s.owner.rsaKey, s.owner.slhKey] 384)) ++
    leBytes 48 x.logDigest ++ leBytes 4 x.log.length ++ leBytes 4 loads.length ++ leBytes 4 k5 ++ leBytes 4 0 ++ s.configBytes q ++ leBytes 32 0 ++
    (loads.flatMap fun (e, i) => leBytes 4 i ++ leBytes 1 e.kind ++ leBytes 3 0 ++ leBytes 8 e.addr ++ leBytes 8 e.len ++ leBytes 48 e.digest)

/-- ATTEST: the report, the device chain, and both signatures by the alias keys (13 R338, R350, R351; log 7). -/
def execAttest (c : Hdr) (nonce : List Byte) (s : State) : Out :=
  .next (s.command c 0x0500 fun s _ =>
    if nonce.length ≠ 48 then .done stBadParam [] s
    else
      let body := s.reportBytes c.quire nonce
      let d := Config.sha384 (body ++ natBytes s.chain 48)
      .done stOk [{ type := 0x81, vals := body.map (·.toNat) ++ s.chain ++ [Config.aliasSignature 0 d, Config.aliasSignature 1 d] }] s)

/-- CERTS (13 R337). -/
def execCerts (c : Hdr) (s : State) : Out :=
  .next (s.command c 0x0501 fun s _ => .done stOk [{ type := 0x81, vals := s.chain }] s)

/-- DISCARD_RETRY: a second has passed without an answer, and discard is sent again (13 R330). -/
def execDiscardRetry (q : QuireId) (s : State) : Out :=
  let x := s.quire q.val
  .next (if !x.discarding then s
    else
      let s := match s.survive.partner with
        | some d => s.sendSpine d 0x3F ([6, BitVec.ofNat 8 q.val] ++ leBytes 2 0 ++ leBytes 4 x.number)
        | none => s
      let s := s.setQuire q.val { x with late := true }
      let s := if x.late then s else s.alarm .discardUnanswered q.val
      if x.use = .free then s.finishWhere (· == .release q.val) stFailed (detail 4) else s)

/-- DISCARDED: the partner has destroyed the copy (13 R330). -/
def execDiscarded (m : CkMsg) (s : State) : Out :=
  let q := m.quire.val
  let x := s.quire q
  .next (if !x.discarding || s.survive.partner ≠ some m.src.toNat then s
    else if x.use = .free then
      (s.setQuire q Quire.reset).finishWhere (· == .release q) (if x.late then stFailed else stOk) (detail (if x.late then 4 else 0))
    else s.setQuire q { x with discarding := false, copied := false })

/-- The copy quires that hold copies of a device's quire. -/
def State.copiesOf (s : State) (dev q : Nat) : List Nat := (List.range 16).filter fun k => (s.quire k).copyOf == some (dev, q) && (s.quire k).use ≠ .free

/-- DISCARD: the partner destroys the copy's keys at once, answers, and releases the copy quire (13 R330). -/
def execDiscard (m : CkMsg) (s : State) : Out :=
  let s := (s.copiesOf m.src.toNat m.quire.val).foldl (fun s k => if (s.quire k).use = .scrubbing then s else s.beginScrub k) s
  .next (s.sendSpine m.src.toNat 0x3F ([7, BitVec.ofNat 8 m.quire.val] ++ leBytes 2 0 ++ leBytes 4 m.number.toNat))

end Sys2Proof.Machine
end

