-- ==== Sys2Proof/Machine/Control.lean ====
section
/-! DEFINITION. Writes of control space by the access codes of their registers (00 R8–R10 and the register tables), and the strand controls
(02 R59, R60; 03 R88; 04 R99). -/

namespace Sys2Proof.Machine

/-- A write of STRAND_CTL.halt (02 R59): a strand that runs or is parked halts at its next boundary. -/
def Strand.askHalt (r : Strand) : Strand :=
  if r.run = .running ∨ r.run = .parked then { r with haltReq := true } else r
/-- A write of STRAND_CTL.release (02 R60): a halted strand starts at STRAND_PC with an empty line buffer. -/
def Strand.start (r : Strand) : Strand :=
  if r.run = .halted then { r with run := .running, haltReq := false, lineBuf := none, lineNext := none, fetchFail := none } else r
/-- A tile that drains or is unavailable runs nothing (16 R391, R412). -/
def Tile.release (x : Tile) (h : StrandId) : Tile := if x.use = .normal then x.updStrand h Strand.start else x
/-- A write of STRAND_PC: bits [63:48] are reserved, and only a halted strand takes it (02 Table 02-11). -/
def Strand.writePc (r : Strand) (v : Word) : Strand :=
  if r.run = .halted then { r with pc := (v.setWidth 48).setWidth 64 } else r

/-- The RW, W1C and WO fields of a strand block (02 Tables 02-10, 02-11; 03 Table 03-15). -/
def Tile.writeStrand (x : Tile) (h : StrandId) (off : Nat) (v : Word) : Tile :=
  match off with
  | 0x00 => if v.getLsbD 8 then x.updStrand h Strand.askHalt else if v.getLsbD 9 then x.release h else x
  | 0x08 => x.updStrand h fun r => r.writePc v
  | 0x40 => x.updStrand h fun r => { r with xsp := v }
  | 0x48 => x.updStrand h fun r => { r with xvec := v >>> 10 <<< 10 }
  | 0x68 => x.updStrand h fun r => r.clearEvents (v.setWidth 32)
  | 0x70 => x.updStrand h fun r => ({ r with evtEn := v.setWidth 32 } : Strand).wake
  | 0x78 => x.updStrand h fun r => { r with cmp := v }
  | 0x80 => x.updStrand h fun r => { r with gspill := word (v.toNat % 2 ^ 44 / 64 * 64) }
  | 0xA0 => x.updStrand h fun r => { r with wxLo := v }
  | 0xA8 => x.updStrand h fun r => { r with wx := v ++ r.wxLo }
  | _ => x

/-- TS_CTL (08 Table 08-4): spf = 0 stops every stream. -/
def Tile.writeTsCtl (x : Tile) (v : Word) : Tile :=
  let x := { x with tsCtl := v &&& 0xFF03 }
  if v.getLsbD 1 then x else x.stopStreams (2 ^ 16 - 1)

/-- ARRAY_CTL (06 Table 06-11, R171): hold := 0 runs the arrays. -/
def Tile.writeArrayCtl (x : Tile) (v : Word) : Tile :=
  if v.getLsbD 0 then { x with hold := true, smooth := v.getLsbD 1 }
  else { x with hold := false, smooth := v.getLsbD 1, arrOff := 0 }

/-- A write of a tile control block (01 Table 01-5). TILE_CFG is written as tcfg writes it, once it can be (07 R176). -/
def State.tileWrite (s : State) (t : TileId) (off : Nat) (v : Word) : State :=
  if 0x1000 ≤ off ∧ off < 0x1800 then s.updTile t fun x => x.writeStrand (Fin.ofNat 8 ((off - 0x1000) / 0x100)) (off % 0x100) v
  else match off with
    | 0x0028 => s.updTile t fun x => { x with delay := { x.delay with limit := x.delay.limit && !v.getLsbD 48 } }
    | 0x0030 => s.updTile t fun x => { x with notice := x.notice &&& ~~~ (v &&& 0x3FF) }
    | 0x10000 => if badRounding v || !(s.tile t).cfgFree (s.cfgValue v) then s else s.updTile t fun x => x.writeCfg (s.cfgValue v)
    | 0x10100 => s.updTile t fun x => { x with flags := x.flags &&& ~~~ (v.setWidth 9 : BitVec 9) }
    | 0x10208 => s.updTile t fun x => x.writeArrayCtl v
    | 0x20000 => s.updTile t fun x => x.writeTsCtl v
    | 0x20008 => s.updTile t fun x => { x with tsFail := x.tsFail && !v.getLsbD 32 }
    | 0x30010 => s.updTile t fun x => { x with egStarved := x.egStarved && !v.getLsbD 0 }
    | _ => s

/-- RegionState by its code; 7 is reserved. -/
def regionStateOf (n : Nat) : Option RegionState :=
  [RegionState.free, .assigned, .lost, .scrubbing, .rotating, .condemned, .held][n]?

/-- THERM_CTL: a threshold outside 80 to 98 is ignored (09 Table 09-9). -/
def Stack.writeTherm (st : Stack) (n : Nat) : Stack :=
  { st with thr := if 80 ≤ n % 128 ∧ n % 128 ≤ 98 then n % 128 else st.thr, stopbound := bitsOf n 16 16 }

/-- A write of a Tailband (09 Tables 09-9, 09-10). -/
def State.stackWrite (s : State) (m : StackId) (off : Nat) (v : Word) : State :=
  let st := s.stackOf m.val
  let n := v.toNat
  if 0x2000 ≤ off ∧ off < 0x2110 then
    if off % 16 = 0 then s.setStack m.val { st with regs := Sparse.upd Regulator.reset st.regs ((off - 0x2000) / 16) fun r =>
      { r with rate := min 256 (bitsOf n 0 9), cap := bitOf n 9, depth := bitsOf n 16 16 } }
    else s
  else if 0x100000 ≤ off ∧ off < 0x100000 + 8 * 638976 then
    match regionStateOf (n % 8) with
    | some rs => s.setRegion ((off - 0x100000) / 8) { state := rs, quire := bitsOf n 3 4, isSeal := bitOf n 7, gen := bitOf n 8 }
    | none => s
  else match off with
    | 0x0010 => s.setStack m.val (st.writeTherm n)
    | 0x0018 => s.setStack m.val { st with period := bitsOf n 0 16, dtemp := bitsOf n 16 8, errthr := bitsOf n 24 16 }
    | 0x3000 => s.setStack m.val { st with nshare := bitsOf n 0 4, close := bitOf n 4 }
    | 0x3008 => s.setStack m.val { st with patrolPeriod := bitsOf n 0 16, patrolEn := bitOf n 16 }
    | 0x4008 => { s with mem := { s.mem with share := bitsOf n 22 9 } }
    | _ => s

/-- PORT_CTL (10 Table 10-11): its fields, then en, then a live retraining that is asked for. -/
def State.writePortCtl (s : State) (p : Nat) (n : Nat) : State :=
  let x := s.port p
  let s := s.setPort p { x with halfok := bitOf n 2, rto := bitsOf n 8 16, drainto := bitsOf n 24 16 }
  let s := if bitOf n 0 && !x.en then s.enablePort p else if !bitOf n 0 && x.en then s.disablePort p else s
  if bitOf n 1 then s.startLive p else s

/-- A write of Splice control (10 Table 10-11). -/
def State.spliceWrite (s : State) (off : Nat) (v : Word) : State :=
  let n := v.toNat
  if 0x10000 ≤ off ∧ off < 0x20000 then
    let p := (off - 0x10000) / 0x1000
    match off % 0x1000 with
    | 0x00 => s.writePortCtl p n
    | 0x08 => s.setPort p { s.port p with dim := bitsOf n 0 3, minus := bitOf n 3, member := bitOf n 4 }
    | _ => s
  else if off = 8 then { s with splice := { s.splice with hoplimit := bitsOf n 0 10 } }
  else s

/-- ETH_CTL (12 Table 12-17). -/
def State.ethWrite (s : State) (off : Nat) (v : Word) : State :=
  let e := off / 0x1000
  let n := v.toNat
  if 8 ≤ e ∨ off % 0x1000 ≠ 0 then s
  else
    let x := s.eth e
    let s := s.setEth e { x with cmdpcp := bitsOf n 1 3, bulkpcp := bitsOf n 4 3, vlan := bitsOf n 7 12 }
    if bitOf n 0 && !x.en then s.enableEth e else if !bitOf n 0 && x.en then s.disableEth e else s

/-- A write of control space (01 Table 01-11): what no table makes writable ignores it (00 R8, R9). -/
def State.ctlWrite (s : State) (a : Nat) (v : Word) : State :=
  let a := a / 8 * 8
  if 0xF0000000000 ≤ a ∧ a ≤ 0xF00BFFFFFFF then s.tileWrite (Fin.ofNat 192 ((a - 0xF0000000000) / 2 ^ 24)) (a % 2 ^ 24) v
  else if 0xF4000000000 ≤ a ∧ a ≤ 0xF4013FFFFFF then s.stackWrite (Fin.ofNat 20 ((a - 0xF4000000000) / 2 ^ 24)) (a % 2 ^ 24) v
  else if 0xF6000000000 ≤ a ∧ a ≤ 0xF6000FFFFFF then s.spliceWrite (a % 2 ^ 24) v
  else if 0xF7000000000 ≤ a ∧ a ≤ 0xF7000FFFFFF then s.ethWrite (a % 2 ^ 24) v
  else s

/-- REGISTER_WRITE: a write of any control-space register acts by its access code (00 R8). -/
def execRegisterWrite (addr : BitVec 44) (v : Word) (s : State) : Out := .next (s.ctlWrite addr.toNat v)

/-- STRAND_HALT. -/
def execStrandHalt (a : At) (s : State) : Out := .next (s.updStrand a Strand.askHalt)
/-- STRAND_RELEASE. -/
def execStrandRelease (a : At) (s : State) : Out := .next (s.updTile a.t fun x => x.release a.h)
/-- STRAND_PC_WRITE. -/
def execStrandPcWrite (a : At) (v : Word) (s : State) : Out := .next (s.updStrand a fun r => r.writePc v)
/-- WX_HI_WRITE: WX becomes WX_LO and the value written (03 R88). -/
def execWxHiWrite (a : At) (v : Word) (s : State) : Out := .next (s.updStrand a fun r => { r with wx := v ++ r.wxLo })

/-- The strand is halted. -/
def Strand.halted (r : Strand) : Strand := { r with run := .halted, haltReq := false }

/-- The instruction that holds the strand for data has had no effect, and is issued again after the release. -/
def State.dropHeldLoad (s : State) (a : At) : State :=
  let r := s.strand a
  let held (l : PendingLoad) : Bool := match l.kind with | .reg _ => false | .amo .. => false | _ => true
  let tags := (r.loads.filter held).flatMap fun l => l.parts.filterMap fun p => match p.state with | .asked tag => some tag | _ => none
  let s := s.updTile a.t fun x =>
    { x with asks := x.asks.filter (fun k => !(tags.contains k.tag && k.kind == .read))
             inbox := x.inbox.filter fun m => !tags.contains m.tag }
  s.updStrand a fun r =>
    { r with hold := none, loads := r.loads.filter (!held ·), slot := none
             pc := match r.slot with | some b => b.branch | none => r.pc }

/-- A requested halt is taken where the strand stands, or must wait (02 R40, R53, R59; 04 R99). -/
def State.takeHalt (s : State) (a : At) : State :=
  let r := s.strand a
  let x := s.tile a.t
  if !r.haltReq then s
  else match r.hold with
    | some (.vector n) =>
      (match x.mq.find? (·.id == n) with
       | some o => (match o.nextUnit x with
         | some u => (s.backToVec o a.t (o.firstElem x u)).updStrand a Strand.halted
         | none => s)
       | none => s)
    | some .load => (s.dropHeldLoad a).updStrand a Strand.halted
    | some (.quireFloor _) => s
    | none => if r.atBoundary then s.updStrand a Strand.halted else s

def Strand.isHalted (r : Strand) : Bool := r.run == .halted || r.run == .stopped

/-- HALT commands whose strands have all halted (12 Table 12-9). -/
def State.settleHalts (s : State) : State :=
  s.finishWhere (fun w => match w with | .halted who => who.all fun a => (s.strand a).isHalted | _ => false) stOk []

/-- STRAND_HALT_TAKE. -/
def execStrandHaltTake (a : At) (s : State) : Out := .next (s.takeHalt a).settleHalts

/-- ICACHE_LINE_FILL: the line that a strand waits for has come; it enters the set of its number, 4 ways of 128 sets (02 R55). -/
def Tile.fillIcache (x : Tile) (line f : Nat) : Tile :=
  let set := x.icache.filter (· % 128 == line % 128)
  let drop := if 4 ≤ set.length then set[Config.victimEntry 4 f % 4]? else none
  { x with icache := line :: x.icache.filter fun l => l ≠ line && some l ≠ drop }
def execIcacheLineFill (a : At) (s : State) : Out :=
  .next (match (s.strand a).fetchWait with
    | none => s
    | some tag => match (s.tile a.t).asks.find? (·.tag == tag), (s.tile a.t).takeAnswer tag with
      | some k, some (m, x) =>
        let (f, s) := s.takeFree
        (match m.body with
         | .fail e =>
           (s.setTile a.t x).updStrand a fun r =>
             { r with fetchWait := none, fetchFail := if lineOf k.va = lineOf r.pc ∨ lineOf k.va = lineOf (r.pc + 4) then some (lineOf k.va, e.code, e.check) else r.fetchFail }
         | _ => (s.setTile a.t (x.fillIcache (k.addr / 128) f)).updStrand a fun r => { r with fetchWait := none })
      | _, _ => s)

/-- A load of the strand that is older than a store and has still to read bytes that the store changes. -/
def Strand.blocked (r : Strand) (e : SbEntry) : Bool :=
  r.loads.any fun l => decide (l.seq < e.seq) && l.parts.any fun p =>
    p.isOpen && e.meets p

def SbEntry.xlate (e : SbEntry) : Xlate :=
  { addr := e.addr, target := e.target, policy := e.policy, isSeal := e.isSeal, backstop := e.backstop }

/-- A store to a tile's TILE_CFG, this tile's or another's, that would change the kind of a busy slot: it does not drain (07 R176). -/
def State.cfgBusy (s : State) (addr : Nat) (v : Word) : Bool :=
  decide (0xF0000000000 ≤ addr ∧ addr ≤ 0xF00BFFFFFFF) && addr % 2 ^ 24 == 0x10000 && !badRounding v &&
    !(s.tile (Fin.ofNat 192 ((addr - 0xF0000000000) / 2 ^ 24))).cfgFree (s.cfgValue v)

/-- Drain one entry; none where it must wait (02 R47, R49; 07 R176; 08 Table 08-1). -/
def State.drainEntry (s : State) (a : At) (e : SbEntry) : Bool × State :=
  let v := word (leNat e.bytes)
  if e.target = .control then
    if s.cfgBusy e.addr v then (false, s) else (true, s.ctlWrite e.addr v)
  else if e.backstop then (true, s.updTile a.t fun x => x.backstopWrite e.addr e.bytes)
  else if e.target = .remote then
    if (s.tile a.t).remoteRoom then (true, s.sendStore a.t a.h .store e.va e.xlate e.bytes) else (false, s)
  else if e.policy = .uncached then (true, s.sendStore a.t a.h .store e.va e.xlate e.bytes)
  else s.putSlice a.t (.strand a.h) e.va e.policy e.addr e.isSeal e.bytes

/-- STORE_BUFFER_DRAIN: the oldest entry of the strand (02 R47). -/
def State.drainSb (s : State) (a : At) : State :=
  match (s.strand a).sb with
  | [] => s
  | e :: _ =>
    if (s.strand a).blocked e then s
    else match s.drainEntry a e with
      | (false, s) => s
      | (true, s) => s.updStrand a fun r => { r with sb := r.sb.drop 1 }
def execStoreBufferDrain (a : At) (s : State) : Out := .next (s.drainSb a)

/-- Put load `k` as it now stands. -/
def Strand.setLoad (r : Strand) (k : Nat) (l : PendingLoad) : Strand := { r with loads := modAt (fun _ => l) k r.loads }
def Strand.dropLoad (r : Strand) (k : Nat) : Strand := { r with loads := r.loads.take k ++ r.loads.drop (k + 1) }

/-- The bytes of a pending load are all there (02 R34, R53; 03 R66, R84; 07 R192; 11 R289, R291, R302). -/
def State.completeLoad (s : State) (a : At) (k : Nat) (l : PendingLoad) (bs : List Byte) : State :=
  match l.kind with
  | .replay => s.finishReplay a l bs
  | .group w wt => s.finishGroup a w wt bs
  | .collective w wt => s.finishColl a w wt bs
  | .transfer _ wt => s.finishTransfer a wt bs
  | _ => (s.updStrand a fun r => r.dropLoad k).finishLoad a l bs

/-- A pending load has failed: a general-register load's fault is delayed (02 R427); an instruction that holds its strand faults. -/
def State.failLoad (s : State) (a : At) (k : Nat) (l : PendingLoad) (code check : Nat) (va : Word) : State :=
  match l.kind with
  | .reg _ | .amo .. => s.updStrand a fun r => { r with late := if r.late.contains .load then r.late else r.late ++ [.load] }
  | .replay => s.replayFault a code check 0 va
  | .warrant _ | .frame =>
    if !(s.strand a).mayEnter then s
    else (s.updStrand a fun r => { r.dropLoad k with hold := none }).raise a code check 0 va
  | _ => s.operandFault a code check 0 va

/-- LOAD_REPLY: the strand's pending load `k` goes a step further: asks, takes its answer, completes or fails (02 R48–R53, R427). -/
def State.loadStep (s : State) (a : At) (k : Nat) : State :=
  match (s.strand a).loads[k]? with
  | none => s
  | some l =>
    let reads := l.parts.filter fun p => p.target == .control && p.state == .waiting && !(s.strand a).olderUncached l.seq
    let s := reads.foldl (fun s p => s.timeFor p.addr) s
    let (ps, s) := s.tryParts a l (some s.ctlRead) l.parts
    let l := { l with parts := ps }
    let s := s.updStrand a fun r => r.setLoad k l
    match l.ready with
    | some bs => s.completeLoad a k l bs
    | none =>
      if !l.failed then s
      else match ps.findSome? fun p => p.failed?.map fun f => (f.1, f.2, p.va) with
        | some (c, n, va) => s.failLoad a k l c n va
        | none => s
def execLoadReply (a : At) (k : Nat) (s : State) : Out := .next (s.loadStep a k)

end Sys2Proof.Machine
end

