-- ==== Sys2Proof/Machine/Spine.lean ====
section
/-! DEFINITION. What the Spine carries on over many steps: tile drains (16 R412), tile resets and re-runs (R390), quire drains (R413), the
checkpoint freeze (R398, R399), and the replies that wait for them. -/

namespace Sys2Proof.Machine

/-- The arrays of a tile run, unless its island is stopped (06 R171; 14 R361). -/
def State.runArrays (s : State) (t : TileId) : State :=
  if (s.island (islandOf t)).isStopped then s else s.updTile t fun x => { x with hold := false, arrOff := 0 }

def Tile.askHalts (x : Tile) : Tile := allStrands.foldl (fun x h => x.updStrand h Strand.askHalt) x

/-- A tile drain begins: its strands are asked to halt and its arrays are held (16 R412 steps 1 and 2). -/
def Tile.startDrain (x : Tile) : Tile := if x.use = .normal then { x.askHalts with use := .draining, hold := true } else x

def Tile.allHalted (x : Tile) : Bool := allStrands.all fun h => (x.strand h).isHalted
def Tile.noneBegun (x : Tile) : Bool := !x.tq.any fun o => o.begun && !o.held
def Tile.storesOut (x : Tile) : Bool := allStrands.all fun h => (x.strand h).sb.isEmpty
def Tile.noRemote (x : Tile) : Bool := !x.asks.any (·.remote)
/-- Everything but remote requests has completed (16 R412 steps 1 to 3). -/
def Tile.isQuiet (x : Tile) : Bool := x.allHalted && x.noneBegun && x.storesOut && x.mbuf.isEmpty
/-- A write to local memory. -/
def Ask.isWrite (k : Ask) : Bool :=
  !k.remote && (match k.kind with | .fill .. => false | .read => false | .fetch => false | .walk => false | _ => true)
/-- No sector is dirty, and every write that has left the tile has been performed or refused. -/
def Tile.isClean (x : Tile) : Bool :=
  x.lines.all (fun e => match e.2 with | some l => l.dirty == 0 | none => true) &&
    !x.asks.any fun k => k.isWrite && !x.inbox.any (·.tag == k.tag)

/-- The maintenance engine cleans every dirty sector (16 R390 step 2, R398 step 2). -/
def State.cleanTile (s : State) (t : TileId) : State :=
  (s.tile t).lines.foldl (fun s e => s.cleanLine t (e.1 / 16) (e.1 % 16) none (BitVec.allOnes 4)) s

/-- The merging buffer of a tile whose store buffer is empty is sent. -/
def State.sendAll (s : State) (t : TileId) : State :=
  if (s.tile t).storesOut then (s.tile t).mbuf.foldl (fun s e => s.sendMerge t e) s else s

/-- Tiles that are not in their reset state. -/
def State.busyTiles (s : State) : List TileId := s.tiles.map fun e => Fin.ofNat 192 e.1

/-- A draining tile goes as far as it can. -/
def State.drainWork (s : State) (t : TileId) : State :=
  if (s.tile t).use ≠ .draining || !(s.tile t).allHalted then s
  else
    let s := s.sendAll t
    if (s.tile t).isQuiet && (s.tile t).noRemote then s.updTile t fun x => { x with use := .drained } else s

/-- The root warrants of a strand (13 Table 13-2). -/
def State.rootWarrants (s : State) (a : At) : Sparse Warrant :=
  let q := (s.tile a.t).quire.toNat
  let g := ((s.quire q).groups).getD (0, 0)
  [(0, mkWarrant 1 q 0x3F 1 (Machine.region 31 (2 ^ 25) 0)), (1, mkWarrant 3 q 3 1 (Machine.region 24 1 (tileBlock a.t))),
   (2, mkWarrant 4 q 7 1 (g.1 + 2 ^ 12 * g.2 + 2 ^ 52 * 2 ^ 20)), (3, mkWarrant 6 q 0xF 1 0),
   (4, mkWarrant 5 q 1 1 (a.t.val + 2 ^ 8 * a.h.val + 2 ^ 11 * 16 + 2 ^ 32 * s.device.toNat))]
/-- WX under START: w0 with rights R, W, X, A and S (13 R328). -/
def rootWx (q : Nat) : Warrant := mkWarrant 1 q 0x1F 1 (Machine.region 31 (2 ^ 25) 0)

/-- The values of a start record go into a strand, with the root warrants, and it is released (12 Table 12-9; 13 R328). -/
def State.startStrand (s : State) (a : At) (rec : List Byte) (g4 : Option Word) : State :=
  let w (i : Nat) : Word := word (leNat ((rec.drop (8 * i)).take 8))
  let roots := s.rootWarrants a
  let wx := rootWx (s.tile a.t).quire.toNat
  let s := s.updStrand a fun r =>
    let r := { r with
      wregs := roots, vis := BitVec.allOnes 15, frames := [], readback := false, status := { r.status with gdepth := 0 }
      wx := wx, wxLo := wx.setWidth 64, slot := none, pc := ((w 0).setWidth 48).setWidth 64, xsp := w 1, xvec := w 2 >>> 10 <<< 10
      gspill := word ((w 3).toNat % 2 ^ 44 / 64 * 64), evtEn := (w 4).setWidth 32 }
    let r := r.setG 3 (w 5)
    match g4 with
    | some v => r.setG 4 v
    | none => r
  s.updTile a.t fun x => x.release a.h

/-- The 64 bytes of a step record, where a load of them under the root warrants passes R70 (16 R390 step 6). -/
def State.readRecord (s : State) (a : At) (va : Nat) : Option (List Byte) × State :=
  let x := s.tile a.t
  let au : Auth := { who := .strand a.h, ws := [(0, mkWarrant 1 x.quire.toNat 0x3F 1 (Machine.region 31 (2 ^ 25) 0))], floor := x.floor }
  match s.checkNow a.t au .load va 64 with
  | .ok l =>
    if l.backstop then (some (x.backstopRead l.addr 64), s)
    else if l.target = .memory then
      match s.readSpan x.quire.toNat false false l.addr 64 with
      | (.ok bs, s) => (some bs, s)
      | (.error _, s) => (none, s)
    else (none, s)
  | _ => (none, s)

/-- A strand with a valid mark starts again from its step record, with g4 := STEP_POS (16 R390 step 6). -/
def State.rerun (s : State) (a : At) : State :=
  let r := s.strand a
  if !r.stepRec.getLsbD 63 then s
  else match s.readRecord a (r.stepRec.toNat % 2 ^ 56) with
    | (none, s) => s
    | (some rec, s) => s.startStrand a rec (some r.stepPos)

/-- A tile reset of 16 R390 begins with a drain of the tile. -/
def State.beginReset (s : State) (t : TileId) (q : Nat) : State :=
  let s := s.updTile t Tile.startDrain
  { s with survive := { s.survive with jobs := s.survive.jobs ++ [{ tile := t.val, quire := q, step := .draining }] } }

/-- The strands of a tile that do not run, as a mask. -/
def Tile.haltedMask (x : Tile) : Nat := (allStrands.map fun h => if (x.strand h).isHalted then 2 ^ h.val else 0).sum

/-- 16 R390 steps 3 to 7; the self-test's outcome is the tile's own (log 8). The alarm names the tile and the strands that were not restarted. -/
def State.finishReset (s : State) (t : TileId) (q : Nat) : State :=
  let mine := s.colls.filter fun c => c.quire == q && (match s.group c.group with | some g => g.tiles.getLsbD t.val | none => false)
  let s := mine.foldl (fun s c => s.raiseColl c.group c.seq 3) s
  let kept := allStrands.map fun h => let r := (s.tile t).strand h; (h, r.stepRec, r.stepPos)
  let floor := (s.tile t).floor
  let (f, s) := s.takeFree
  let s := s.setUpTile t q (s.quire q).header ((onesOf (s.quire q).tiles).findIdx (· == t.val)) floor
  let s := if Config.selfTestFails t.val f then
      (s.updTile t fun x => { x with use := .unavailable, hold := true, arrOff := BitVec.allOnes 4 }).alarm .selfTestFailed t.val
    else
      let s := s.updTile t fun x =>
        let x := { x with resetLately := s.power.ticks + 1 }
        kept.foldl (fun x k => x.updStrand k.1 fun r => { r with stepRec := k.2.1, stepPos := k.2.2 }) x
      allStrands.foldl (fun s h => s.rerun ⟨t, h⟩) s
  let s : State := { s with survive := { s.survive with jobs := s.survive.jobs.filter (·.tile ≠ t.val) } }
  ((s.risk 32).post q 9 none).alarm .tileReset (t.val + 256 * (s.tile t).haltedMask)

/-- A tile reset goes on; `late` tells that the bound of its drain has passed. -/
def State.resetWork (late : Bool) (s : State) (j : TileJob) : State :=
  let t : TileId := Fin.ofNat 192 j.tile
  match j.step with
  | .draining =>
    if late || (s.tile t).use = .drained then
      let s := (s.sendAll t).cleanTile t
      { s with survive := { s.survive with jobs := s.survive.jobs.map fun k => if k.tile = j.tile then { k with step := .cleaning } else k } }
    else s
  | .cleaning => if (s.tile t).isClean then s.finishReset t j.quire else s

/-- A restore or a checkpoint ends its freeze: arrays run, and the strands that it halted go on (16 R398 step 6). -/
def State.thaw (s : State) (f : Freeze) : State :=
  let s := (s.tilesOf f.quire).foldl State.runArrays s
  let s := f.halted.foldl (fun s a => s.updTile a.t fun x =>
    if (x.strand a.h).run = .halted then x.release a.h else x.updStrand a.h fun r => { r with haltReq := false }) s
  { s with survive := { s.survive with freeze := none } }

/-- Mark regions dirty (16 R396). -/
def State.markDirty (s : State) (rs : List Nat) : State :=
  { s with mem := { s.mem with dirty := rs.foldl (fun m i => Sparse.set false m i true) s.mem.dirty } }

/-- The freeze in progress is abandoned (16 R399): the dirty bits stay set, and the partner discards what it has received. A freeze of a
RESTORE ends that. -/
def State.abandonFreeze (s : State) : State :=
  match s.survive.freeze with
  | none => s
  | some f =>
    let s := (s.markDirty f.regions).thaw f
    if f.restore then
      { s with survive := { s.survive with restoring := none } }.finishWhere (· == Wait.restore) stFailed []
    else
      let s := match f.step, s.survive.partner with
        | .streaming, some d =>
          s.sendSpine d 0x3F ([3, BitVec.ofNat 8 f.quire] ++ leBytes 2 0 ++ leBytes 4 ((s.quire f.quire).number + 1))
        | _, _ => s
      ((s.post f.quire 3 none).alarm .checkpointAbandoned f.quire).finishWhere (· == .checkpoint f.quire) stFailed []

/-- What is left of a key sweep that a drain stops: the region in hand (13 Table 13-6). -/
def State.cutSweep (s : State) (w : Sweep) : Option Sweep :=
  match w.todo with
  | i :: _ => if (s.region i).state = .rotating then some { w with todo := [i] } else none
  | [] => none

/-- A quire drain begins (16 R413 steps 1 and 3; 13 Table 13-6). -/
def State.startDrain (s : State) (q : Nat) (releasing : Bool) : State :=
  let s := match s.survive.freeze with
    | some f => if f.quire = q then s.abandonFreeze else s
    | none => s
  let s := s.updQuire q fun x => { x with use := .draining, timedOut := false, releasing := releasing, sweep := x.sweep.bind s.cutSweep }
  let s := (s.post q 4 none).finishWhere (· == .rotate q) stDraining []
  let tiles := (s.survive.jobs.filter (·.quire == q)).map (·.tile)
  let s : State := { s with survive := { s.survive with jobs := s.survive.jobs.filter (·.quire ≠ q) } }
  let s := s.finishWhere (fun w => match w with | .reset ts => ts.any tiles.contains | _ => false) stDraining []
  let s := (s.colls.filter (·.quire == q)).foldl (fun s c => s.raiseColl c.group c.seq 8) s
  let s := (s.transfers.filter (·.quire == q)).foldl (fun s x => s.endTransfer x 8) s
  (s.net.bulks.filter fun b => b.quire == q && (match b.use with | .firmware _ => false | _ => true)).foldl
    (fun s b => s.endBulk b stDraining 0 []) s

/-- Regions of a quire whose write-backs were refused (16 R413; 08 R215). -/
def State.refusedRegions (s : State) (q : Nat) : List Nat :=
  (s.tilesOf q).flatMap fun t =>
    let x := s.tile t
    x.refused ++ (x.asks.filter fun k => k.kind.isWriteback && x.inbox.any (·.tag == k.tag)).map fun k => k.addr / 2 ^ 21

/-- Enter regions of a quire in the lost-region list. -/
def State.loseRegions (s : State) (q : Nat) (rs : List Nat) : State :=
  rs.foldl (fun s i => if (s.region i).quire = q ∧ ((s.region i).state = .assigned ∨ (s.region i).state = .rotating) then s.loseRegion i else s) s

/-- The quire is drained: the reply goes out, and a release goes on (16 R413; 13 R330). -/
def State.finishDrain (s : State) (q det : Nat) : State :=
  let s := (s.loseRegions q (s.refusedRegions q)).updQuire q fun x => { x with use := .drained, detail := det }
  let s := s.finishWhere (· == .drain q) (if det = 0 then stOk else stFailed) (detail det)
  if (s.quire q).releasing then (s.beginScrub q).endScrub q else s

def Tile.isDrained (x : Tile) : Bool := x.use == .drained || x.use == .unavailable
/-- No strand of the tile runs: each is parked, halted or stopped. -/
def Tile.idle (x : Tile) : Bool := allStrands.all fun h => (x.strand h).run ≠ .running

/-- A draining quire goes as far as it can (16 R413 steps 2 and 4). -/
def State.quireWork (s : State) (q : Nat) : State :=
  if (s.quire q).use ≠ .draining then s
  else
    let ts := s.tilesOf q
    let s := ts.foldl (fun s t =>
      let s := if (s.quire q).timedOut || (s.tile t).idle then s.updTile t Tile.startDrain else s
      let s := s.drainWork t
      if (s.tile t).isQuiet then s.cleanTile t else s) s
    if ts.all fun t => (s.tile t).isDrained && (s.tile t).isClean then s.finishDrain q 0 else s

/-- What a tile holds is given up when a drain's bound passes (16 R413). -/
def Tile.abandon (x : Tile) : Tile :=
  let x := allStrands.foldl (fun x h => x.updStrand h fun r =>
    { r with run := if r.run = .stopped then .stopped else .halted, haltReq := false, hold := none, sb := [], loads := [] }) x
  { x with use := if x.use = .unavailable then .unavailable else .drained, hold := true, mbuf := [], aq := [], mq := []
           tq := x.tq.filter fun o => o.held || !o.begun, asks := [], unsent := [], inbox := [], walks := [], streams := [], grantQ := [] }

/-- Regions with a sector still dirty in a tile store. -/
def Tile.dirtyRegions (x : Tile) : List Nat :=
  x.lines.filterMap fun e => match e.2 with | some l => if l.dirty = 0 then none else some (l.tag * 256 / 2 ^ 21) | none => none

/-- QDRAIN_BOUND_EXPIRY: what remains is abandoned (16 R413). -/
def State.boundExpires (s : State) (q : Nat) : State :=
  if (s.quire q).use ≠ .draining then s
  else
    let ts := s.tilesOf q
    let det := if ts.any fun t => !(s.tile t).isQuiet && (s.tile t).use ≠ .unavailable then 1
      else if ts.any fun t => !(s.tile t).isClean then 2
      else if ts.any fun t => !(s.tile t).noRemote then 3 else 0
    let dirty := ts.flatMap fun t => (s.tile t).dirtyRegions
    let s := s.loseRegions q (dirty ++ s.refusedRegions q)
    (ts.foldl (fun s t => s.updTile t Tile.abandon) s).finishDrain q det
def execQdrainBoundExpiry (q : QuireId) (s : State) : Out := .next (s.boundExpires q.val)

/-- QDRAIN_TILE_TIMEOUT: a quarter of the bound has passed, and the tiles that still run are drained (16 R413 step 2). -/
def execQdrainTileTimeout (q : QuireId) (s : State) : Out :=
  .next (if (s.quire q.val).use = .draining then (s.updQuire q.val fun x => { x with timedOut := true }).quireWork q.val else s)

/-- The remote requests of a draining tile are given up: a response that comes later finds none (16 R412 step 4). -/
def Tile.dropRemote (x : Tile) : Tile :=
  let tags := (x.asks.filter (·.remote)).map (·.tag)
  let gone (l : PendingLoad) : Bool := l.parts.any fun p => match p.state with | .asked tag => tags.contains tag | _ => false
  let x := allStrands.foldl (fun x h => x.updStrand h fun r => { r with loads := r.loads.filter (!gone ·) }) x
  { x with asks := x.asks.filter (!·.remote), inbox := x.inbox.filter fun m => !tags.contains m.tag }

/-- TILE_DRAIN_REMOTE_TIMEOUT. -/
def execTileDrainRemoteTimeout (t : TileId) (s : State) : Out :=
  .next (if (s.tile t).use = .draining then (s.updTile t Tile.dropRemote).drainWork t else s)

/-- A freeze begins (16 R398 step 1). -/
def State.beginFreeze (s : State) (q bound : Nat) (restore : Bool) : State :=
  let ts := s.tilesOf q
  let who := ts.flatMap fun t => (allStrands.filter fun h => !((s.tile t).strand h).isHalted).map fun h => (⟨t, h⟩ : At)
  let f : Freeze := { quire := q, bound := bound, step := .halting, halted := who, regions := []
                      lost := (s.regionsOf q).filter fun i => (s.region i).state == .lost, restore := restore }
  let s := ts.foldl (fun s t => s.updTile t fun x => { x.askHalts with hold := true }) s
  { s with survive := { s.survive with freeze := some f } }

/-- Regions that the next checkpoint of a quire copies: at the first all, later those dirty (16 R396). -/
def State.toCopy (s : State) (q : Nat) : List Nat :=
  (s.regionsOf q).filter fun i => (s.region i).state ≠ .lost &&
    (!(s.quire q).copied || Sparse.get false s.mem.dirty i ||
      (match s.survive.freeze with | some f => f.regions.contains i | none => false))

/-- The packets of a copy stream over one region of another device, 4,096 bytes each (10 R279): bulk writes of what is given, or bulk reads.
Where the region lies there is for that device to say (log 23). -/
def State.copyRegion (s : State) (dev dq sq : Nat) (content : Option (Nat → List Byte)) : State :=
  let (f, s) := s.takeFree
  (List.range 512).foldl (fun s j =>
    s.originate
      { dst := BitVec.ofNat 20 dev, src := s.device, type := if content.isSome then 4 else 5, dquire := BitVec.ofNat 4 dq
        squire := BitVec.ofNat 4 sq, hops := 0
        addr := BitVec.ofNat 64 (2 ^ 44 * dev + 2 ^ 21 * (Config.openValue 21 f % 638976) + 4096 * j), len := 4096, status := 0, txn := 0
        tile := 0xFF, strand := 0, op := 0, word3 := 1, ecrcOk := true, payload := (content.map (· j)).getD [] }) s

/-- A region is read for a copy stream, under REG16, and goes out in bulk writes (10 R279; 16 R398 step 4). -/
def State.streamMemory (s : State) (dev dq sq i : Nat) : State :=
  (s.chargeOwn (8192 * i) 8192 1).copyRegion dev dq sq (some fun j => s.bytes (2 ^ 21 * i + 4096 * j) 4096)

/-- The log position of a checkpoint: the least position of a valid mark (16 R400). -/
def State.leastMark (s : State) (q : Nat) : Nat :=
  let marks := (s.tilesOf q).flatMap fun t => (allStrands.filter fun h => ((s.tile t).strand h).stepRec.getLsbD 63).map fun h =>
    ((s.tile t).strand h).stepPos.toNat
  match marks with
  | [] => 0
  | m :: ms => ms.foldl min m

/-- What the metadata region of a checkpoint holds (16 R400; 11 R303): composition, disabled arrays, step marks, floor, lost regions, measurement
log and replayable flag, the group image, and the checkpoint's position and number. -/
def State.metadata (s : State) (q : Nat) : List Nat :=
  let x := s.quire q
  let ts := s.tilesOf q
  [x.tiles.toNat, x.header, x.rate, natOf x.cap, x.share, x.rsaKey, x.slhKey] ++ (match x.groups with | some g => [g.1, g.2] | none => []) ++
    ((s.regionsOf q).flatMap fun i => [i, natOf (s.region i).isSeal]) ++
    ((List.range 8).flatMap fun j => let r := s.right q j; [r.first, r.count, r.peer, natOf r.valid]) ++
    ((s.boot.record.map (·.arrays)).getD []) ++
    (ts.flatMap fun t => (s.tile t).floor.toNat :: allStrands.flatMap fun h => [((s.tile t).strand h).stepRec.toNat, ((s.tile t).strand h).stepPos.toNat]) ++
    (s.lost.filter fun i => (s.region i).quire == q) ++ (x.log.flatMap fun e => [e.kind, e.addr, e.len, e.digest]) ++
    [natOf (!Sparse.get false s.noReplay q)] ++ ((s.groupImage (some q)).flatMap fun e => e.1 :: (s.groupBytes e.1).map (·.toNat)) ++
    [s.leastMark q, x.number + 1]

/-- The metadata region goes out last (16 R398 step 4). -/
def State.streamMetadata (s : State) (dev dq q : Nat) : State :=
  s.copyRegion dev dq q (some fun j => (List.range 4096).map fun k => Config.metadataByte (s.metadata q) (4096 * j + k))

/-- The freeze is abandoned when a region of its quire is lost or its partner cannot be reached (16 R386, R399). -/
def State.freezeBroken (s : State) (f : Freeze) : Bool :=
  !f.restore && (((s.regionsOf f.quire).any fun i => (s.region i).state == .lost && !f.lost.contains i) ||
    (match s.survive.partner with | some d => (s.routeOf d).isNone | none => true))

/-- The number of the copy quire at the partner, which no message names: drawn at the first checkpoint (log 23). -/
def State.nameCopy (s : State) (q : Nat) : Nat × State :=
  match (s.quire q).copyNum with
  | some k => (k, s)
  | none =>
    let (f, s) := s.takeFree
    (Config.openValue 20 f % 16, s.updQuire q fun x => { x with copyNum := some (Config.openValue 20 f % 16) })

/-- The frozen quire goes to its partner (16 R398 step 4); the streamed regions' dirty bits now tell what changes meanwhile. An error in a region
that is read is met, and a region so lost abandons the checkpoint (R386, R399). -/
def State.stream (s : State) (f : Freeze) : State :=
  let rs := s.toCopy f.quire
  let s := (s.meet fun u => rs.contains (u / 65536)).2
  match s.survive.partner with
  | none => s.abandonFreeze
  | some d =>
    if s.freezeBroken f then s.abandonFreeze
    else
      let (k, s) := s.nameCopy f.quire
      let s := s.sendSpine d 0x3F ([1, BitVec.ofNat 8 f.quire] ++ leBytes 2 0 ++ leBytes 4 ((s.quire f.quire).number + 1) ++ leBytes 4 (rs.length + 1))
      let s := (rs.foldl (fun s i => s.streamMemory d k f.quire i) s).streamMetadata d k f.quire
      { s with mem := { s.mem with dirty := rs.foldl (fun m i => Sparse.set false m i false) s.mem.dirty }
               survive := { s.survive with freeze := some { f with step := .streaming, regions := rs } } }

/-- A RESTORE asks its partner for the copy of a quire, and reads the metadata region of the copy quire, whose number no message names
(10 R279, 16 R404; log 23). -/
def State.askCopy (s : State) (dev q : Nat) : State :=
  let s := s.sendSpine dev 0x3F ([4, BitVec.ofNat 8 q] ++ leBytes 2 0 ++ leBytes 4 0)
  match s.survive.restoring with
  | some r =>
    let (f, s) := s.takeFree
    let k := Config.openValue 25 f % 16
    { s with survive := { s.survive with restoring := some { r with asked := true, copyNum := k } } }.copyRegion dev k q none
  | none => s

def State.setStep (s : State) (f : Freeze) (step : FreezeStep) : State :=
  { s with survive := { s.survive with freeze := some { f with step := step } } }

/-- The freeze goes a step further (16 R398 steps 1 to 4). -/
def State.freezeWork (s : State) : State :=
  match s.survive.freeze with
  | none => s
  | some f =>
    let ts := s.tilesOf f.quire
    if s.freezeBroken f then s.abandonFreeze
    else match f.step with
    | .halting => if ts.all fun t => (s.tile t).allHalted && (s.tile t).noneBegun then s.setStep f .cleaning else s
    | .cleaning =>
      if ts.all fun t => (s.tile t).storesOut then
        let s := ts.foldl (fun s t => (s.sendAll t).cleanTile t) s
        if ts.all fun t => (s.tile t).isQuiet && (s.tile t).isClean then s.setStep f .waiting else s
      else s
    | .waiting =>
      if (s.colls.any (·.quire == f.quire)) || (s.transfers.any (·.quire == f.quire)) || !ts.all (fun t => (s.tile t).noRemote) then s
      else if f.restore then
        match s.survive.restoring with
        | some r => (s.setStep f .streaming).askCopy r.device f.quire
        | none => s.abandonFreeze
      else s.stream f
    | .streaming => s

/-- A RESTORE turns to its next copy: a running quire is frozen first (16 R404 steps 3 and 4). -/
def State.restoreWork (s : State) : State :=
  match s.survive.restoring with
  | none => s
  | some r => match r.copies with
    | [] => { s with survive := { s.survive with restoring := none } }.finishWhere (· == Wait.restore) stOk []
    | c :: _ =>
      if r.asked || s.survive.freeze.isSome then s
      else if (s.quire c.quire.val).use = .running then s.beginFreeze c.quire.val 0 true
      else s.askCopy r.device c.quire.val

def Port.moving (x : Port) : Bool := x.state == .training || x.state == .draining

/-- The replies that wait for ports, channels and tile resets (10 R284; 12 Tables 12-9, 12-11, 12-12). -/
def State.settle (s : State) : State :=
  let s := s.settleHalts
  s.net.requests.foldl (fun s r => match r.wait with
    | .reset ts => if s.survive.jobs.any fun j => ts.contains j.tile then s else s.finish r stOk []
    | .splice ps enable lost =>
      if ps.any fun p => (s.port p).moving then s
      else if enable then s.finish r (if ps.all fun p => (s.port p).isUp then stOk else stFailed) []
      else s.finish r (if ps.map (fun p => (s.port p).abandon) = lost then stOk else stFailed) []
    | .mapout c =>
      if s.mem.removed.contains c && (s.mem.restripe == .idle || s.mem.target ≠ c) then s.finish r stOk [] else s
    | _ => s) s

/-- The Spine's work in progress goes on as far as the state lets it; `late` tells that the bound of 16 R390 has passed. Without a Spine in
service nothing goes on. -/
def State.spineWork (s : State) (late : Bool) : State :=
  if !s.spineUp then s
  else
    let s := s.busyTiles.foldl State.drainWork s
    let s := s.survive.jobs.foldl (State.resetWork late) s
    let s := (List.range 16).foldl State.quireWork s
    (((s.freezeWork.freezeWork).freezeWork).restoreWork).settle

end Sys2Proof.Machine
end

