-- ==== Sys2Proof/Machine/Run.lean ====
section
/-! DEFINITION. Run control, drains and releases (12 Tables 12-7, 12-9; 13 R328, R330), hung tiles (16 R389–R391) and delay limits
(15 R378). -/

namespace Sys2Proof.Machine

/-- A host command that starts or ends work which the Spine carries on. -/
def State.hostWork (s : State) (c : Hdr) (op : Nat) (run : State → Session → Res) : State := (s.command c op run).spineWork false

/-- Tiles and strands of two masks. -/
def strandsIn (tiles : BitVec 192) (strands : BitVec 8) : List At :=
  (onesOf tiles).flatMap fun t => (onesOf strands).map fun h => ⟨Fin.ofNat 192 t, Fin.ofNat 8 h⟩
/-- Every tile named belongs to the quire. -/
def State.ownsTiles (s : State) (q : Nat) (tiles : BitVec 192) : Bool := tiles &&& ~~~ (s.quire q).tiles == 0

/-- START (12 R317, Table 12-9; 13 R328). -/
def execStart (c : Hdr) (tiles : BitVec 192) (strands : BitVec 8) (rec : Nat) (s : State) : Out :=
  .next (s.hostWork c 0x0400 fun s _ =>
    let q := c.quire
    let who := strandsIn tiles strands
    if !s.ownsTiles q tiles then .done stDenied [] s
    else if who.any fun a => (s.tile a.t).use ≠ .normal then .done stFailed [] s
    else if who.any fun a => (s.strand a).run ≠ .halted then .done stBusy [] s
    else match s.readSpan q false false rec 64 with
      | (.error f, s) => .done (failStatus f).1 (detail (failStatus f).2) s
      | (.ok bs, s) => .done stOk [] (who.foldl (fun s a => s.startStrand a bs none) s))

/-- HALT (12 Table 12-9; 02 R59). -/
def execHalt (c : Hdr) (tiles : BitVec 192) (strands : BitVec 8) (s : State) : Out :=
  .next (s.hostWork c 0x0401 fun s _ =>
    let who := strandsIn tiles strands
    if !s.ownsTiles c.quire tiles then .done stDenied [] s
    else if who.all fun a => (s.strand a).isHalted then .done stOk [] s
    else .pend stPending [] (.halted who) (who.foldl (fun s a => s.updStrand a Strand.askHalt) s))

/-- TILERESET (12 Table 12-9; 16 R390). -/
def execTilereset (c : Hdr) (tiles : BitVec 192) (s : State) : Out :=
  .next (s.hostWork c 0x0402 fun s _ =>
    let ts := onesOf tiles
    if !s.ownsTiles c.quire tiles then .done stDenied [] s
    else if s.survive.jobs.any fun j => ts.contains j.tile then .done stBusy [] s
    else if ts.any fun t => (s.tile (Fin.ofNat 192 t)).use = .unavailable then .done stFailed [] s
    else .pend stPending [] (.reset ts) (ts.foldl (fun s t => s.beginReset (Fin.ofNat 192 t) c.quire) s))

/-- STRANDS: STRAND_CTL, STRAND_PC and CAUSE of every strand; and how far each tile's drain is (16 R412; log 19). -/
def execStrands (c : Hdr) (tiles : BitVec 192) (s : State) : Out :=
  .next (s.command c 0x0403 fun s _ =>
    if !s.ownsTiles c.quire tiles then .done stDenied [] s
    else .done stOk [{ type := 0x81, vals := (strandsIn tiles (BitVec.allOnes 8)).flatMap fun a =>
          let r := s.strand a; [r.ctlWord.toNat, r.pc.toNat, r.cause.toNat] },
        { type := 0x82, vals := (onesOf tiles).map fun t => (s.tile (Fin.ofNat 192 t)).use.ctorIdx }] s)

/-- SIGNAL (12 Table 12-9; 03 R82). -/
def execSignal (c : Hdr) (tile strand line : Nat) (s : State) : Out :=
  .next (s.command c 0x0404 fun s _ =>
    if 192 ≤ tile ∨ 8 ≤ strand ∨ line < 16 ∨ 32 ≤ line then .done stBadParam [] s
    else if !(s.quire c.quire).tiles.getLsbD tile then .done stDenied [] s
    else .done stOk [] (s.signal tile strand line))

/-- QDRAIN (12 Table 12-7; 16 R413). -/
def execQdrain (c : Hdr) (_bound : Nat) (s : State) : Out :=
  .next (s.hostWork c 0x0203 fun s _ => .pend stDraining [] (.drain c.quire) (s.startDrain c.quire false))

/-- QRELEASE (12 Table 12-7; 13 R330): a quire that is not drained drains first. -/
def execQrelease (c : Hdr) (s : State) : Out :=
  .next (s.hostWork c 0x0204 fun s _ =>
    let q := c.quire
    .pend stPending [] (.release q)
      (if (s.quire q).use = .drained then (s.beginScrub q).endScrub q else s.startDrain q true))

/-- The Spine judges a tile of a running quire hung (16 R389–R391): it is reset, or, within 60 s of a reset, becomes unavailable. -/
def State.hungTile (s : State) (t : TileId) : State :=
  let x := s.tile t
  let q := x.quire.toNat
  if !x.assigned || (s.quire q).use ≠ .running || x.use ≠ .normal then s
  else if x.resetLately ≠ 0 && decide (s.power.ticks + 1 - x.resetLately < 60000) then
    ((s.updTile t fun x => { x.abandon with use := .unavailable }).post q 9 none).alarm .tileUnavailable t.val
  else (s.beginReset t q).spineWork false
def execHungTileDetect (t : TileId) (s : State) : Out := .next (s.hungTile t)

/-- DELAY_LIMIT: MD_STAT.limit is set; the island is raised by 25 mV, or the tile counts as hung (15 R378). -/
def execDelayLimit (t : TileId) (s : State) : Out :=
  let x := s.tile t
  .next (if x.delay.step < 255 ∨ 2 ≤ x.delay.margin then s
    else
      let s := (s.updTile t fun x => { x with delay := { x.delay with limit := true } }).alarm .delayLimit t.val
      let i := s.island (islandOf t)
      if i.mv + 25 ≤ i.top then s.setIsland (islandOf t) { i with mv := i.mv + 25, limitRise := true } else s.hungTile t)

end Sys2Proof.Machine
end

