-- ==== Sys2Proof/Machine/Survive.lean ====
section
/-! DEFINITION. Step marks and declarations (16 R387, R393), partners and checkpoints (R395–R400), restores (R404), lost regions (R386),
device loss and held groups (R401–R405), and Spine failover (R406, R407). -/

namespace Sys2Proof.Machine

/-- qmark (16 R387): after the store part of fence, the mark is recorded. -/
def execQmark (a : At) (f : RF) (s : State) : Out :=
  sysOp a [] [f.rs1, f.rs2] (fun s =>
    s.needs a f.rd [6] (some 26) fun _ =>
      let r := s.strand a
      let va := r.g f.rs1
      if r.status.gdepth ≠ 0 then .fault cGate 0 0 0
      else if va.toNat % 64 ≠ 0 then .fault cAlign 0 0 va
      else match s.check a.t (s.auth a) .load va.toNat 64 false with
        | .walk p => .later (s.startWalk a.t p)
        | .fail c k w => .fault c k w va
        | .ok _ =>
          let s := s.sendMerges a
          if !(s.tile a.t).storesDone a.h then .later s
          else .done (s.updStrand a fun r =>
            { r with stepRec := word (va.toNat % 2 ^ 56 + 2 ^ 63), stepPos := r.g f.rs2 })) s

/-- qnorep (16 R393). -/
def execQnorep (a : At) (f : RF) (s : State) : Out :=
  sysOp a [f.rs1, f.rs2] [] (fun s => s.needs a f.rd [6] (some 26) fun _ => .done (s.spoilReplay a 2)) s

/-- The partner, where it can be reached over a port that is up. -/
def State.reachPartner (s : State) : Option Nat := s.survive.partner.filter fun d => (s.routeOf d).isSome

/-- Twice p of 16 R396: ports of the first-hop bundle toward a device, a port at half width counting once. -/
def State.halvesTo (s : State) (dev : Nat) : Nat :=
  match s.routeOf dev with
  | none => 0
  | some out =>
    let b := s.port out
    ((List.range 16).map fun p =>
      let x := s.port p
      if !x.member || x.dim ≠ b.dim || x.minus ≠ b.minus then 0
      else if x.state = .up then 2 else if x.state = .half then 1 else 0).sum

/-- t_est in µs for `d` dirty regions (16 R396): r is 200 bytes per nanosecond for each half. -/
def freezeEstimate (d halves : Nat) : Nat := 40 + ceilDiv ((d + 1) * 2097152) (min (200 * halves) 1600 * 1000)

/-- A checkpoint, drain or RESTORE of any quire is in progress (16 R397). -/
def State.surviving (s : State) : Bool :=
  s.survive.freeze.isSome || s.survive.restoring.isSome || (List.range 16).any fun q => (s.quire q).use == .draining

/-- The answer to a request for a checkpoint (16 R397): 0 accepted. What room the partner has is the partner's to say (log 10). -/
def State.checkpointCode (s : State) (q bound : Nat) : Nat × State :=
  match s.surviving, s.reachPartner with
  | true, _ => (2, s)
  | false, none => (3, s)
  | false, some d =>
    if s.halvesTo d = 0 then (3, s)
    else if bound < freezeEstimate (s.toCopy q).length (s.halvesTo d) then (1, s)
    else let (f, s) := s.takeFree; (if bitOf (Config.openValue 24 f) 0 then 3 else 0, s)

/-- qckpt (16 R397). -/
def execQckpt (a : At) (f : RF) (s : State) : Out :=
  sysOp a [] [f.rd, f.rs2] (fun s =>
    s.needs a f.rs1 [6] (some 26) fun _ =>
      let q := (s.tile a.t).quire.toNat
      let bound := ((s.strand a).g f.rs2).toNat
      match s.checkpointCode q bound with
      | (0, s) => result (s.beginFreeze q bound false) a f.rd 0
      | (n, s) => result s a f.rd (word n)) s

/-- CKESTIMATE (16 R396): without a way to a partner no rate is stated, and the estimate is a free value (log 10). -/
def execCkestimate (c : Hdr) (s : State) : Out :=
  .next (s.command c 0x0601 fun s _ =>
    let d := (s.toCopy c.quire).length
    let h := match s.reachPartner with | some p => s.halvesTo p | none => 0
    let (f, s) := s.takeFree
    .done stOk [{ type := 0x81, vals := [if h = 0 then Config.openValue 23 f else freezeEstimate d h] }, { type := 0x82, vals := [d] }] s)

/-- CHECKPOINT (16 R397). -/
def execCheckpoint (c : Hdr) (bound : Nat) (s : State) : Out :=
  .next (s.hostWork c 0x0602 fun s _ =>
    match s.checkpointCode c.quire bound with
    | (0, s) => .pend stPending [] (.checkpoint c.quire) (s.beginFreeze c.quire bound false)
    | (1, s) => .done stPolicy [] s
    | (2, s) => .done stBusy [] s
    | (_, s) => .done stNoResource [] s)

/-- CHECKPOINT_BOUND_EXPIRY (16 R399). -/
def execCheckpointBoundExpiry (s : State) : Out :=
  .next (match s.survive.freeze with
    | some f => if f.restore then s else s.abandonFreeze
    | none => s)

/-- No tag is 0x3F, and none of one module equals one of the other (14 R366). -/
def tagsApart (m p : FeedTags) : Bool :=
  [m.main, m.backup].all fun t => t ≠ 0x3F && p.main ≠ 0x3F && p.backup ≠ 0x3F && t ≠ p.main && t ≠ p.backup

/-- The copies at the partner that is left are discarded there (16 R395). -/
def State.leavePartner (s : State) : State :=
  match s.survive.partner with
  | none => s
  | some d => (List.range 16).foldl (fun s q =>
      if !(s.quire q).copied then s
      else (s.sendSpine d 0x3F ([6, BitVec.ofNat 8 q] ++ leBytes 2 0 ++ leBytes 4 (s.quire q).number)).updQuire q fun x => { x with copied := false, copyNum := none }) s

/-- PARTNER (14 R366; 16 R395). A freeze in progress keeps its partner. -/
def execPartner (c : Hdr) (p : PartnerReq) (s : State) : Out :=
  .next (s.command c 0x0600 fun s _ =>
    if s.survive.freeze.isSome || s.survive.restoring.isSome then .done stBusy [] s
    else if !tagsApart s.power.tags p.tags then .done stPolicy [] s
    else if p.fourHeld || p.noQuire then .done stNoResource [] s
    else
      let s := if s.survive.partner = some p.device.toNat then s else s.leavePartner
      .done stOk [] ({ s with survive := { s.survive with partner := some p.device.toNat, partnerTags := p.tags } }.sendTags p.device.toNat))

/-- FEED_TAGS: a partner's tags are noted; another module is told this one's (14 R366). -/
def execFeedTags (d : DeviceId) (main backup : BitVec 6) (s : State) : Out :=
  .next (if s.survive.partner = some d.toNat then
      { s with survive := { s.survive with partnerTags := { main := main, backup := backup } } }
    else s.sendTags d.toNat)

/-- A fresh number for a copy quire, and the copy quire (16 R395): rate 0, cap 0, no tiles, groups, rights or share. -/
def State.copyQuire (s : State) (dev q : Nat) : Option (Nat × State) :=
  match s.copiesOf dev q with
  | k :: _ => some (k, s)
  | [] => ((List.range 16).find? fun k => (s.quire k).use == .free && !(s.quire k).discarding).map fun k =>
    let (f, s) := s.takeFree
    (k, ((s.setQuire k { Quire.reset with use := .running, copyOf := some (dev, q), keys := [(0, Config.drbgKey f + 1)] }).setRegulators k 0 false).setRights k [])

/-- The fresh regions of a checkpoint that does not commit are filled before they are free again (16 R398, R399). -/
def State.dropIncoming (s : State) (k : Nat) : State :=
  match (s.quire k).incoming with
  | none => s
  | some i => (i.fresh.foldl (fun s r => s.setRegion r { s.region r with state := .scrubbing }) s).updQuire k fun x => { x with incoming := none }

/-- BEGIN: the partner makes the copy quire and sets fresh regions aside (16 R395, R398 step 4; log 17). Those that will receive seal regions, of
which `seals` gives the places among them (log 69), are designated and zeroed before the first write (10 R279, 03 R66). -/
def execBegin (m : CkMsg) (seals : List Nat) (s : State) : Out :=
  .next (if !s.isReady then s
    else match s.copyQuire m.src.toNat m.quire.val with
    | none => s
    | some (k, s') =>
      let s' := s'.dropIncoming k
      let room := ((List.range (512 * s'.mem.ctop)).filter fun i => (s'.region i).state == .free).take m.regions.toNat
      if room.length < m.regions.toNat then s
      else
        let gen := Sparse.get 0 (s'.quire k).keys 0 == 0
        let sealed := seals.filterMap fun j => room[j]?
        let s' := (s'.assignRegions k room false gen).assignRegions k sealed true gen
        (sealed.foldl State.zeroRegion s').updQuire k fun x => { x with incoming := some { number := m.number.toNat, fresh := room, got := 0 } })

/-- CHECKPOINT_ABANDON: the partner discards every fresh region; the previous copy stays (16 R399). -/
def execCheckpointAbandon (m : CkMsg) (s : State) : Out :=
  .next ((s.copiesOf m.src.toNat m.quire.val).foldl State.dropIncoming s)

/-- COMMITTED: the freeze ends, and the checkpoint is the quire's newest (16 R398 steps 5 and 6, R400). -/
def execCommitted (m : CkMsg) (s : State) : Out :=
  .next (match s.survive.freeze with
    | none => s
    | some f =>
      if f.restore || f.step ≠ .streaming || f.quire ≠ m.quire.val || s.survive.partner ≠ some m.src.toNat then s
      else
        let q := f.quire
        let s := s.updQuire q fun x => { x with number := x.number + 1, position := s.leastMark q, copied := true }
        ((s.thaw f).post q 2 none).finishWhere (· == .checkpoint q) stOk [])

/-- RESTORE_REQUEST: the copies of a quire go to the device that asks for them, from the copy quire to that quire (10 R279; 16 R404). -/
def execRestoreRequest (m : CkMsg) (s : State) : Out :=
  let send (s : State) (k : Nat) : State :=
    let rs := s.regionsOf k
    let s := (s.meet fun u => rs.contains (u / 65536)).2
    let s := rs.foldl (fun s i => s.streamMemory m.src.toNat m.quire.val k i) s
    s.sendSpine m.src.toNat 0x3F ([5, BitVec.ofNat 8 m.quire.val] ++ leBytes 2 0 ++ leBytes 4 (s.quire k).number ++ leBytes 4 rs.length)
  .next ((s.copiesOf m.src.toNat m.quire.val).foldl send s)

/-- RESTORE (16 R404; 12 Table 12-11). -/
def execRestore (c : Hdr) (p : RestoreReq) (s : State) : Out :=
  .next (s.hostWork c 0x0603 fun s _ =>
    if s.surviving then .done stBusy [] s
    else if (s.routeOf p.device.toNat).isNone then .done stLost [] s
    else .pend stPending [] .restore
      { s with survive := { s.survive with restoring := some { device := p.device.toNat, copyNum := 0, asked := false, copies := p.copies } } })

/-- The coordinator of a group: its lowest-ranked member not known to be lost (16 R402). -/
def State.coordinator (s : State) (e : Group) (h : GroupHold) : Option Nat :=
  (s.membersOf e).find? fun d => !h.lost.contains d && !s.survive.lostDevs.any (·.1 == d)

def State.holdOf (s : State) (g : Nat) : Option GroupHold := Sparse.get none s.survive.holds g
def State.setHold (s : State) (g : Nat) (h : Option GroupHold) : State :=
  { s with survive := { s.survive with holds := Sparse.set none s.survive.holds g h } }

/-- A group message (16 Table 16-7) to a device. -/
def State.sendGroup (s : State) (dev kind g : Nat) (e : Group) : State :=
  s.sendSpine dev 0x3E (leBytes 1 kind ++ leBytes 1 0 ++ leBytes 2 g ++ leBytes 4 e.nextseq ++ leBytes 3 e.gsig)

/-- The coordinator has a member's answer; the alarm follows the last one (16 R402). -/
def State.takeHeld (s : State) (g : Nat) (e : Group) (h : GroupHold) (dev : Nat) : State :=
  let h := { h with held := if h.held.contains dev then h.held else h.held ++ [dev] }
  let all := (s.membersOf e).all fun d => h.held.contains d || h.lost.contains d || s.survive.lostDevs.any (·.1 == d)
  if all && !h.told then (s.setHold g (some { h with told := true })).alarm .groupHeld g else s.setHold g (some h)

/-- This member answers held, to the coordinator or as the coordinator (16 R402). -/
def State.answerHeld (s : State) (g : Nat) : State :=
  match s.group g, s.holdOf g with
  | some e, some h =>
    (match s.coordinator e h with
     | some d => if d = s.device.toNat then s.takeHeld g e h d else s.sendGroup d 2 g e
     | none => s)
  | _, _ => s

/-- A quire restored here starts again once none of its groups is held (16 R405). -/
def State.restartQuire (s : State) (q : Nat) : State :=
  if !(s.quire q).awaiting || (s.groups.any fun e => match e.2 with | some x => x.quire == q && (s.holdOf e.1).isSome | none => false) then s
  else
    let s := s.updQuire q fun x => { x with awaiting := false }
    (s.tilesOf q).foldl (fun s t => allStrands.foldl (fun s h => s.rerun ⟨t, h⟩) s) s

/-- A group is released here (16 R405): its members are no longer known lost, and its quire hears of it. -/
def State.releaseGroup (s : State) (g : Nat) : State :=
  match s.group g with
  | none => s.setHold g none
  | some e =>
    let ms := s.membersOf e
    let s := s.setHold g none
    let s : State := { s with survive := { s.survive with lostDevs := s.survive.lostDevs.filter fun d => !ms.contains d.1 } }
    (s.post e.quire 8 (some g)).restartQuire e.quire

/-- The coordinator has a member's rejoin (16 R405): once all agree the group is released everywhere; two that differ are a mismatch. -/
def State.takeRejoin (s : State) (g : Nat) (e : Group) (h : GroupHold) (dev nextseq gsig : Nat) : State :=
  let h := { h with rejoined := h.rejoined.filter (·.1 ≠ dev) ++ [(dev, nextseq, gsig)] }
  let s := s.setHold g (some h)
  let others := (s.membersOf e).filter (· ≠ s.device.toNat)
  if h.rejoined.any fun r => r.2 ≠ (nextseq, gsig) then
    (others.foldl (fun s d => s.sendGroup d 5 g e) s).alarm .groupMismatch g
  else if (s.membersOf e).all fun d => h.rejoined.any (·.1 == d) then
    (others.foldl (fun s d => s.sendGroup d 4 g e) s).releaseGroup g
  else s

/-- This member sends rejoin, with its restored nextseq and gsig (16 R404 step 5). -/
def State.sendRejoin (s : State) (g : Nat) : State :=
  match s.group g, s.holdOf g with
  | some e, some h =>
    (match s.coordinator e h with
     | some d => if d = s.device.toNat then s.takeRejoin g e h d e.nextseq e.gsig else s.sendGroup d 3 g e
     | none => s)
  | _, _ => s

/-- Hold a group on learning that a member is lost (16 R402). A coordinator's successor gathers the answers again from the beginning. -/
def State.holdGroup (s : State) (g : Nat) (e : Group) (dev : Nat) : State :=
  match s.holdOf g with
  | some h =>
    if s.coordinator e h ≠ s.coordinator e { h with lost := h.lost ++ [dev] } then
      let s := (s.setHold g (some { h with lost := h.lost ++ [dev], held := [], told := false, rejoined := [] })).answerHeld g
      if (s.quire e.quire).awaiting then s.sendRejoin g else s
    else s.setHold g (some { h with lost := if h.lost.contains dev then h.lost else h.lost ++ [dev] })
  | none =>
    let rank := (s.rankOf e dev).getD 0
    let s := s.setHold g (some { lost := [dev], held := [], told := false, rejoined := [] })
    let s := (s.colls.filter (·.group == g)).foldl (fun s c => s.abortColl g c.seq 3 rank) s
    (s.post e.quire 7 (some g)).answerHeld g

/-- This device learns that another is lost (16 R402). -/
def State.learnLoss (s : State) (dev inc : Nat) : State :=
  let mine := s.groups.filterMap fun e => match e.2 with
    | some x => if (s.rankOf x dev).isSome then some (e.1, x) else none
    | none => none
  let s := mine.foldl (fun s e => s.holdGroup e.1 e.2 dev) s
  let known := s.survive.lostDevs.any (·.1 == dev)
  ({ s with survive := { s.survive with lostDevs := if known then s.survive.lostDevs else s.survive.lostDevs ++ [(dev, inc)] } } : State).alarm .deviceLost dev

/-- A loss message names this device: its quires drain, as though it had been lost (16 R401). -/
def State.namedLost (s : State) : State :=
  (((List.range 16).filter fun q => (s.quire q).use == .running).foldl (fun s q => s.startDrain q false) s).alarm .namedLost 0

/-- A loss message: forwarded once on every port that is up, a repeat discarded (16 R401). -/
def State.lossMessage (s : State) (kind dev inc : Nat) : State :=
  if s.survive.floods.contains (dev, inc) then s
  else
    let s : State := { s with survive := { s.survive with floods := s.survive.floods ++ [(dev, inc)] } }
    let s := s.flood kind dev inc
    if dev = s.device.toNat then (if inc = s.incarnation then s.namedLost.spineWork false else s) else s.learnLoss dev inc

def execGoingDown (d : DeviceId) (inc : BitVec 32) (s : State) : Out := .next (s.lossMessage 1 d.toNat inc.toNat)
def execDeviceLost (d : DeviceId) (inc : BitVec 32) (s : State) : Out := .next (s.lossMessage 2 d.toNat inc.toNat)

/-- PORT_LOSS_TIMER: every port to a neighbour has been failed for 1 s; it is probed (16 R401). -/
def execPortLossTimer (d : DeviceId) (inc : BitVec 32) (s : State) : Out :=
  let ps := (List.range 16).filter fun p => (s.port p).peer == d.toNat && (s.port p).incarnation == inc.toNat && (s.port p).state ≠ .off
  .next (if ps.isEmpty || !ps.all fun p => (s.port p).state == .failed then s
    else ({ s with survive := { s.survive with probes := s.survive.probes ++ [(d.toNat, inc.toNat)] } } : State).sendSpine d.toNat 0x3D
      (healthBytes 3 s.device.toNat s.incarnation))

/-- PROBE: answered to the device that sent it (16 R401). -/
def execProbe (d : DeviceId) (_inc : BitVec 32) (s : State) : Out :=
  .next (s.sendSpine d.toNat 0x3D (healthBytes 4 s.device.toNat s.incarnation))

/-- PROBE_REPLY: the device is there (16 R401). -/
def execProbeReply (d : DeviceId) (_inc : BitVec 32) (s : State) : Out :=
  .next { s with survive := { s.survive with probes := s.survive.probes.filter (·.1 ≠ d.toNat) } }

/-- PROBE_TIMEOUT: no reply within 100 ms; the device is declared lost, and the loss is flooded (16 R401). -/
def execProbeTimeout (d : DeviceId) (inc : BitVec 32) (s : State) : Out :=
  .next (if !s.survive.probes.contains (d.toNat, inc.toNat) then s
    else ({ s with survive := { s.survive with probes := s.survive.probes.filter (· ≠ (d.toNat, inc.toNat)) } } : State).lossMessage 2 d.toNat inc.toNat)

/-- HOLD: a member that has not yet learned of the loss holds the group, and answers held (16 R402). Which member is lost the message
does not say (log 10). -/
def execHold (m : GroupMsg) (s : State) : Out :=
  let g := m.group.val
  .next (match s.group g with
    | none => s
    | some e =>
      if (s.rankOf e m.src.toNat).isNone then s
      else match s.holdOf g with
        | some _ => s.answerHeld g
        | none =>
          let h : GroupHold := { lost := [], held := [], told := false, rejoined := [] }
          let (rank, s) := s.lostRank e h
          let s := (s.colls.filter (·.group == g)).foldl (fun s c => s.abortColl g c.seq 3 rank) (s.setHold g (some h))
          (s.post e.quire 7 (some g)).answerHeld g)

/-- A message to the coordinator of a held group, from a member. -/
def State.asCoordinator (s : State) (m : GroupMsg) (f : Group → GroupHold → State) : State :=
  match s.group m.group.val, s.holdOf m.group.val with
  | some e, some h =>
    if s.coordinator e h = some s.device.toNat && (s.rankOf e m.src.toNat).isSome then f e h else s
  | _, _ => s

/-- HELD (16 R402). -/
def execHeld (m : GroupMsg) (s : State) : Out :=
  .next (s.asCoordinator m fun e h => s.takeHeld m.group.val e h m.src.toNat)

/-- REJOIN (16 R405). -/
def execRejoin (m : GroupMsg) (s : State) : Out :=
  .next (s.asCoordinator m fun e h => s.takeRejoin m.group.val e h m.src.toNat m.nextseq.toNat m.gsig.toNat)

/-- RELEASE (16 R405). -/
def execRelease (m : GroupMsg) (s : State) : Out :=
  let g := m.group.val
  .next (match s.group g, s.holdOf g with
    | some e, some _ => if (s.rankOf e m.src.toNat).isSome then s.releaseGroup g else s
    | _, _ => s)

/-- MISMATCH: the group stays held, with an alarm (16 R405). -/
def execMismatch (m : GroupMsg) (s : State) : Out :=
  .next (if (s.holdOf m.group.val).isSome then s.alarm .groupMismatch m.group.val else s)

/-- The memory, step registers and groups of a copy are written over a quire (16 R404 steps 3 and 4; 11 R304). -/
def State.overwrite (s : State) (c : CopyImage) : State :=
  let q := c.quire.val
  let rs := s.regionsOf q
  let s := c.data.foldl (fun s d => if rs.contains d.1 then (s.zeroRegion d.1).writeBytes (2 ^ 21 * d.1) (d.2.take (2 ^ 21)) else s) s
  let s := c.steps.foldl (fun s m =>
    let t : TileId := Fin.ofNat 192 m.1
    if (s.tile t).assigned && (s.tile t).quire.toNat == q then
      s.updStrand ⟨t, Fin.ofNat 8 m.2.1⟩ fun r => { r with stepRec := m.2.2.1, stepPos := m.2.2.2 }
    else s) s
  (s.installGroups q (c.groups.filterMap fun e => (readGroup e.2).map fun g => (e.1, g.2))).markDirty rs

/-- What a replacement takes over beside memory: lost regions, log, flag, position and number (16 R404 step 3). -/
def State.takeOver (s : State) (c : CopyImage) (dev : Nat) : State :=
  let q := c.quire.val
  let lost := c.lost.filter (s.regionsOf q).contains
  let s := lost.foldl (fun s i => s.setRegion i { s.region i with state := .lost }) s
  let s : State := { s with lost := s.lost ++ lost, noReplay := Sparse.set false s.noReplay q (!c.replayable) }
  s.updQuire q fun x => { x with
    use := .running, log := c.log.map fun e => { kind := e.1, addr := e.2.1, len := e.2.2.1, digest := e.2.2.2 }
    number := c.number, position := c.position, copied := s.survive.partner == some dev }

/-- A restored quire waits for its groups: each is held here, and this member rejoins it (16 R404 step 5, R405). -/
def State.rejoinAll (s : State) (q : Nat) (lost : List Nat) : State :=
  let gs := s.groups.filterMap fun e => match e.2 with | some x => if x.quire == q then some e.1 else none | none => none
  let s := s.updQuire q fun x => { x with awaiting := true }
  let s := gs.foldl (fun s g =>
    (if (s.holdOf g).isSome then s else s.setHold g (some { lost := lost, held := [], told := false, rejoined := [] })).sendRejoin g) s
  s.restartQuire q

def State.setRestoring (s : State) (r : Option Restoring) : State := { s with survive := { s.survive with restoring := r } }

/-- The RESTORE fails. -/
def State.failRestore (s : State) : State := (s.setRestoring none).finishWhere (· == .restore) stFailed []

/-- The copy of a quire that this device does not have is created from its metadata (16 R404 step 3; 13 R327). -/
def State.restoreFresh (s : State) (c : CopyImage) (r : Restoring) (rest : List CopyImage) : State :=
  let q := c.quire.val
  let p := c.create
  let n := (onesOf p.tiles).length
  if !qcreateFormOk p q || decide (256 < s.rateSum q p.rate p.cap) || !s.shareOk q p.share n || !s.freeFor q p then s.failRestore
  else
    let s := (s.compose q p none).setUpTiles q p.tiles p.badTiles c.floor
    if (onesOf p.tiles).any p.badTiles.contains then ((s.updQuire q fun x => { x with use := .drained }).beginScrub q).failRestore
    else
      let s := ((s.overwrite c).takeOver c r.device).setRestoring (some { r with asked := false, copies := rest })
      (s.rejoinAll q [s.device.toNat]).replan

/-- A running quire that has been frozen is overwritten; its replay lists are discarded, and its strands stay halted (16 R404 step 4). -/
def State.restoreRunning (s : State) (c : CopyImage) (r : Restoring) (rest : List CopyImage) : State :=
  let q := c.quire.val
  let ts := s.tilesOf q
  let s := ts.foldl (fun s t => s.updTile t fun x => { x with tq := [] }) (s.overwrite c)
  let s := ts.foldl State.runArrays { s with survive := { s.survive with freeze := none } }
  (s.setRestoring (some { r with asked := false, copies := rest })).rejoinAll q []

/-- RESTORE_DONE: the copy that was asked for has come whole (16 R404). -/
def execRestoreDone (m : CkMsg) (s : State) : Out :=
  .next (match s.survive.restoring with
    | none => s
    | some r => match r.copies with
      | [] => s
      | c :: rest =>
        if !r.asked || m.src.toNat ≠ r.device || c.quire ≠ m.quire then s
        else match s.survive.freeze with
          | some f => if f.restore && f.quire == m.quire.val && f.step == .streaming then (s.restoreRunning c r rest).spineWork false else s
          | none => (s.restoreFresh c r rest).spineWork false)

/-- RECOVERREGION: all the regions named, or none (16 R386). -/
def execRecoverregion (c : Hdr) (regions : List Nat) (s : State) : Out :=
  .next (s.command c 0x0605 fun s _ =>
    let mine := s.regionsOf c.quire
    if !regions.all mine.contains then .done stDenied [] s
    else if !regions.all fun i => (s.region i).state == .lost && s.lost.contains i then .done stBadParam [] s
    else
      let s := regions.foldl (fun s i => ((s.zeroRegion i).chargeOwn (8192 * i) 8192 1).setRegion i { s.region i with state := .assigned }) s
      .both stPending [] stOk [] { s with lost := s.lost.filter (!regions.contains ·) })

/-- MAPOUT (09 R240; 16 R385): a restripe that waits for free regions has not begun. -/
def execMapout (c : Hdr) (ch : Nat) (s : State) : Out :=
  .next (s.hostWork c 0x0606 fun s _ =>
    if 640 ≤ ch || s.mem.removed.contains ch || (s.chan ch).state == .untrained then .done stBadParam [] s
    else if s.mem.restripe = .running ∨ s.mem.restripe = .paused then .done stBusy [] s
    else .pend stPending [] (.mapout ch) (s.candidate ch false))

/-- Work in progress when the standby begins to serve (16 Table 16-8): commands in flight end with LOST, transfers send again what is not
acknowledged, and a checkpoint is abandoned. -/
def State.handOver (s : State) : State :=
  let s := s.net.requests.foldl (fun s r => s.finish r stLost []) s
  let s := s.net.bulks.foldl (fun s b => s.resendAll b.xid) s
  match s.survive.freeze with
  | some f => if f.restore then s else s.abandonFreeze
  | none => s

/-- The standby takes over (16 R406, Table 16-8; in bring-up 15 R371). -/
def State.takeover (s : State) : State :=
  let was := s.spine.primary
  let s : State := { s with spine := { up0 := was, up1 := !was, primary := !was } }
  if !s.isReady then { s with boot := { s.boot with stage := min s.boot.stage 3, alone := true } }
  else (s.handOver.alarm .spineFailover (natOf was)).watchRisk

def State.bothSpines (s : State) : Bool := s.spine.up0 && s.spine.up1
/-- A failover can happen: bring-up has reached stage 3 and has not stopped (15 R371). -/
def State.mayFailOver (s : State) : Bool := s.bothSpines && decide (3 ≤ s.boot.stage) && s.boot.reason == 0

/-- FAILOVER (16 R406): OK from the standby once it serves. -/
def execFailover (c : Hdr) (s : State) : Out :=
  .next (s.command c 0x0607 fun s _ => if s.bothSpines then .done stOk [] s.takeover else .done stFailed [] s)

/-- SPINE_HEARTBEAT_TIMEOUT (16 R406). -/
def execSpineHeartbeatTimeout (s : State) : Out := .next (if s.mayFailOver then s.takeover else s)

/-- SPINE_FAULT_REPORT: the standby takes over; without one, no Spine is left (16 R406, R407). -/
def execSpineFaultReport (s : State) : Out :=
  .next (if s.mayFailOver then s.takeover
    else if s.bothSpines then s
    else { s with spine := { s.spine with up0 := false, up1 := false } })

/-- SPINE_WATCHDOG_EXPIRY: with neither Spine in service the exchange dies flood going down and fail every port (16 R407). -/
def execSpineWatchdogExpiry (s : State) : Out :=
  .next (if s.spineUp then s
    else (List.range 16).foldl (fun s p => if (s.port p).state = .off then s else s.failPort p 0) (s.flood 1 s.device.toNat s.incarnation))

end Sys2Proof.Machine
end

