-- ==== Sys2Proof/Machine/Fabric.lean ====
section
/-! DEFINITION. The Splice commands of the device owner (12 Table 12-12; 10 R269, R273, R274, R284). -/

namespace Sys2Proof.Machine

/-- Hops across a dimension (10 R274). -/
def Dim.reach (d : Dim) : Nat := if d.ring then d.size / 2 else d.size - 1

/-- The form of a geometry (10 R269, R274). -/
def geometryOk (p : GeometryReq) (hop : Nat) : Bool :=
  decide (p.device < 2 ^ 20) && p.dims.length == 8 && p.dims.all (fun d => decide (1 ≤ d.1 ∧ d.1 ≤ 2 ^ 20)) &&
  decide ((p.dims.map (·.1)).foldl (· * ·) 1 ≤ 2 ^ 20) && decide (hop ≤ 1023) &&
  decide ((p.dims.map fun d => Dim.reach { size := d.1, ring := d.2 }).sum ≤ hop)

/-- GEOMETRY: into the registers, and into the configuration record (10 R269; 15 R375). -/
def execGeometry (c : Hdr) (p : GeometryReq) (s : State) : Out :=
  .next (s.command c 0x0700 fun s _ =>
    let hop := p.hop.getD 256
    if !geometryOk p hop then .done stBadParam [] s
    else if (List.range 16).any fun q => (s.quire q).use ≠ .free then .done stPolicy [] s
    else
      let dims : Sparse Dim := Sparse.setList Dim.reset [] 0 (p.dims.map fun d => { size := d.1, ring := d.2 })
      .done stOk [] { s with device := BitVec.ofNat 20 p.device, splice := { s.splice with dims := dims, hoplimit := hop }
                             flash := { s.flash with device := p.device, dims := dims, hoplimit := hop } })

/-- The fields of PORTCFG fit those of PORT_CTL and PORT_CFG (10 Table 10-11). -/
def portcfgOk (p : PortCfgReq) : Bool :=
  let fits (o : Option Nat) (m : Nat) : Bool := match o with | some v => decide (v ≤ m) | none => true
  decide (p.port < 16) && fits p.dim 7 && fits p.dir 1 && fits p.member 1 && fits p.halfok 1 && fits p.rto 65535 && fits p.drainto 65535

def bitOr (o : Option Nat) (b : Bool) : Bool := match o with | some v => v == 1 | none => b

/-- PORTCFG (10 R269; 15 R375); a port in a transition is busy (12 R312). -/
def execPortcfg (c : Hdr) (p : PortCfgReq) (s : State) : Out :=
  .next (s.command c 0x0701 fun s _ =>
    if !portcfgOk p then .done stBadParam [] s
    else if (s.port p.port).moving then .done stBusy [] s
    else
      let x := s.port p.port
      let x := { x with
        dim := p.dim.getD x.dim, minus := bitOr p.dir x.minus, member := bitOr p.member x.member, halfok := bitOr p.halfok x.halfok
        rto := p.rto.getD x.rto, drainto := p.drainto.getD x.drainto }
      let r : PortRecord := { dim := x.dim, minus := x.minus, member := x.member, halfok := x.halfok, rto := x.rto, drainto := x.drainto }
      let s := s.setPort p.port x
      .done stOk [] { s with flash := { s.flash with ports := Sparse.set PortRecord.reset s.flash.ports p.port r } })

/-- PORTEN: trains ports, or drains them (10 R284; 12 R312, Table 12-12). -/
def execPorten (c : Hdr) (mask : BitVec 16) (enable : Bool) (s : State) : Out :=
  .next (s.hostWork c 0x0702 fun s _ =>
    let ps := onesOf mask
    if ps.any fun p => (s.port p).moving then .done stBusy [] s
    else if enable then .pend stPending [] (.splice ps true []) (ps.foldl State.enablePort s)
    else .pend stDraining [] (.splice ps false (ps.map fun p => (s.port p).abandon)) (ps.foldl State.disablePort s))

/-- PORTSTAT (10 Table 10-11). -/
def execPortstat (c : Hdr) (mask : BitVec 16) (s : State) : Out :=
  .next (s.command c 0x0703 fun s _ =>
    .done stOk [{ type := 0x81, vals := (onesOf mask).flatMap fun p =>
      let x := s.port p; [x.stateWord.toNat, x.errWord.toNat, x.err2Word.toNat] }] s)

/-- OVERRIDE: entries, which are not checked beyond their fields (10 R273; 15 R375). -/
def execOverride (c : Hdr) (es : List OvrReq) (s : State) : Out :=
  .next (s.command c 0x0704 fun s _ =>
    if !es.all fun e => decide (e.index < 1024) && decide (e.first < 2 ^ 20) && decide (e.count ≤ 2 ^ 20) && decide (e.port < 16) then
      .done stBadParam [] s
    else
      let put (m : Sparse Ovr) : Sparse Ovr := es.foldl (fun m e =>
        Sparse.set Ovr.reset m e.index { first := e.first, count := e.count, port := e.port, valid := e.valid }) m
      .done stOk [] { s with splice := { s.splice with ovr := put s.splice.ovr }, flash := { s.flash with ovr := put s.flash.ovr } })

end Sys2Proof.Machine
end

