-- ==== Sys2Proof/Machine/Boot.lean ====
section
/-! DEFINITION. Firmware (13 R340, R347; 15 R381), bring-up (15 R367–R376), module reset and power (14 R363, 17 R415, R420), and SMBus
(17 R418). -/

namespace Sys2Proof.Machine

/-- The slot that FWSTAGE writes: the one that the activation pointer does not name (15 R381). -/
def State.otherSlot (s : State) : FwSlot := if s.flash.pointer then s.flash.slot0 else s.flash.slot1

/-- What is staged passes its checks: an owner record under R340 and 15 R370, an image under 13 R347. -/
def State.stagedOk (s : State) (i : FwImage) : Bool :=
  match i.owner with
  | some o => o.device == s.serialIndex && decide (s.owner.seqno < o.seqno) && o.sigsOk && decide (s.flash.owners.length < 32)
  | none => i.formOk && i.keyOk && i.rsaOk && i.slhOk && i.partsOk && decide (s.owner.bootsvn ≤ i.svn)

/-- The digest of what is staged (log 7). -/
def stagedDigest (i : FwImage) : Nat :=
  match i.owner with
  | some o => Config.sha384 (natBytes [o.seqno, o.device, o.bootsvn, o.peersvn, o.rsaKey, o.slhKey] 384)
  | none => Config.sha384 (natBytes (i.svn :: i.digests) 48)

/-- FWVERIFY (13 R340, R347; 12 Table 12-15). -/
def execFwverify (c : Hdr) (s : State) : Out :=
  .next (s.command c 0x0A01 fun s _ =>
    match s.flash.staged with
    | none => .done stFailed [] s
    | some i =>
      let d : List Tlv := [{ type := 0x81, vals := [stagedDigest i] }]
      if s.stagedOk i then .done stOk d { s with flash := { s.flash with verified := true } } else .done stFailed d s)

/-- The slot that what is activated lies in: already named by the pointer once it has been activated. -/
def State.targetSlot (s : State) : Bool := if s.flash.staged.isSome then !s.flash.pointer else s.flash.pointer
def State.slotAt (s : State) (b : Bool) : FwSlot := if b then s.flash.slot1 else s.flash.slot0

/-- FWACTIVATE (15 R381; 13 R340). An owner record joins the chain. -/
def execFwactivate (c : Hdr) (now : Nat) (s : State) : Out :=
  .next (s.command c 0x0A02 fun s _ =>
    if !s.isReady then .done stPolicy [] s
    else if 1 < now then .done stBadParam [] s
    else if !s.flash.verified then .done stFailed [] s
    else match s.flash.staged.bind (·.owner) with
      | some o => .both stPending [] stOk [] { s with flash := { s.flash with owners := s.flash.owners ++ [o], staged := none, verified := false } }
      | none =>
        let b := s.targetSlot
        let t : State := { s with flash := { s.flash with pointer := b, staged := none } }
        if now = 0 then .both stPending [] stOk [] t
        else if (s.slotAt b).digests.drop 2 ≠ s.slot.digests.drop 2 then .done stPolicy [] s
        else if !s.bothSpines then .done stFailed [] s
        else
          let t := t.handOver
          .both stPending [] stOk [] { t with spine := { t.spine with primary := !t.spine.primary }, boot := { t.boot with slot := b } })

/-- FWINFO: which slot runs, its versions and digests, and those of the other (12 Table 12-15; 15 R370). -/
def execFwinfo (c : Hdr) (s : State) : Out :=
  .next (s.command c 0x0A03 fun s _ =>
    let o := s.otherSlot
    .done stOk [{ type := 0x81, vals := [natOf s.boot.slot, s.slot.svn] ++ s.slot.digests ++ [natOf o.valid, o.svn] ++ o.digests }] s)

/-- What is left of the module when its regulators power down: the flash with its count of module resets, the straps, the feeds (17 R415). -/
def State.cold (s : State) (feed : FeedState) (inUse : Feed) : State :=
  { State.reset with
    pending := s.pending, free := s.free, nextTag := s.nextTag, flash := s.flash, incarnation := (s.incarnation + 1) % 2 ^ 32
    pins := { s.pins with smbus := none }
    power := { Power.reset with state := feed, inUse := inUse, info := s.power.info, tags := s.power.tags } }

/-- The feed state at power-up: main when both are good, single on a good one, none without (14 R363). -/
def firstFeed (main backup : Bool) : FeedState × Feed :=
  if main && backup then (.main, .main) else if main then (.single, .main) else if backup then (.single, .backup) else (.off, .main)

/-- HOLDUP_EXHAUSTED: the module powers down, as at module reset (14 Table 14-5). -/
def execHoldupExhausted (s : State) : Out :=
  .next (if s.power.state ≠ .lost then s
    else
      let t := s.cold .off .main
      { t with boot := { t.boot with tripped := s.boot.tripped } })

/-- POWER_UP: the feeds are applied, and their straps read (14 R363, R366; 17 R416, R420). -/
def execPowerUp (mainGood backupGood : Bool) (tags : FeedTags) (s : State) : Out :=
  .next (if s.power.state ≠ .off then s
    else
      let m := mainGood && tags.main ≠ 0x3F
      let b := backupGood && tags.backup ≠ 0x3F
      let s := (s.setGood .main m).setGood .backup b
      { s with
        power := { s.power with state := (firstFeed m b).1, inUse := (firstFeed m b).2, tags := tags }
        boot := { s.boot with tripped := false }, pins := { s.pins with thermtrip := false } })

/-- MODULE_RESET: MRST_N has been low for 1.0 µs (17 R415); after a trip it also restores power (R420). -/
def execModuleReset (s : State) : Out :=
  let f := firstFeed (s.feedInfo .main).good (s.feedInfo .backup).good
  .next (if s.boot.low || (s.power.state == .off && !s.boot.tripped) then s
    else
      let t := if s.boot.tripped then s.cold f.1 f.2 else s.cold s.power.state s.power.inUse
      { t with boot := { t.boot with low := true }, pins := { t.pins with thermtrip := false } })

/-- MRST_N_RELEASE: bring-up begins (17 R415). -/
def execMrstNRelease (s : State) : Out := .next { s with boot := { s.boot with low := false } }

/-- Bring-up stands at a stage and may go on (15 R367, R368). -/
def State.atStage (s : State) (k : Nat) : Bool :=
  s.boot.stage == k && s.boot.reason == 0 && !s.boot.low && !s.boot.tripped && s.power.state ≠ .off && s.spineUp

def State.setStage (s : State) (k : Nat) : State := { s with boot := { s.boot with stage := k } }
/-- Bring-up stops (15 Table 15-2). -/
def State.stopBoot (s : State) (reason : Nat) : State := { s with boot := { s.boot with reason := reason } }

/-- The Spines that have passed a stage go on; with none bring-up stops (15 R371). -/
def State.spinesPass (s : State) (ok0 ok1 : Bool) (reason next : Nat) : State :=
  let a := s.spine.up0 && ok0
  let b := s.spine.up1 && ok1
  if !a && !b then s.stopBoot reason
  else { s with spine := { up0 := a, up1 := b, primary := !a }, boot := { s.boot with stage := next, alone := s.boot.alone || !(a && b) } }

/-- STAGE_ROM: the ROM self-check, and the Ethernet ports under the network record (15 Table 15-1). -/
def execStageRom (ok0 ok1 : Bool) (eth : BitVec 8) (s : State) : Out :=
  .next (if !s.atStage 0 then s
    else
      let s := (List.range 8).foldl (fun s e =>
        let r := s.netRecord e
        s.setEth e { s.eth e with en := true, state := if eth.getLsbD e then .up else .failed, vlan := r.vlan, cmdpcp := r.cmdpcp, bulkpcp := r.bulkpcp }) s
      s.spinesPass ok0 ok1 1 1)

/-- A slot passes 13 R347. -/
def State.slotPasses (s : State) (b : Bool) (ok : Bool) : Bool := ok && (s.slotAt b).valid && decide (s.owner.bootsvn ≤ (s.slotAt b).svn)

/-- STAGE_FIRMWARE (15 R370, R371). -/
def execStageFirmware (p : FirmwareCheck) (s : State) : Out :=
  .next (if !s.atStage 1 then s
    else if !p.chainOk then s.stopBoot 3
    else
      let pass (b : Bool) : Bool := s.slotPasses b (if b then p.slot1Ok else p.slot0Ok)
      let named := s.flash.pointer
      if !pass named && !pass (!named) then s.stopBoot 2
      else
        let s : State := { s with boot := { s.boot with slot := if pass named then named else !named } }
        s.spinesPass p.xd0Ok (p.xd1Ok && (p.sameSlot || !p.xd0Ok || !s.spine.up0)) 2 2)

/-- The keys that the Spines make once the device root is unwrapped: the alias keys, which follow the firmware, and fresh link keys
(13 R335, R336, Table 13-3). -/
def State.makeKeys (s : State) : State :=
  let (f, s) := s.takeFree
  { s with boot := { s.boot with keys :=
      { root := Config.deviceRoot, aliasKey := Config.hkdf [Config.deviceRoot] s.fwDigest 4, link := Config.drbgKey f + 1, log := 0 } } }

/-- STAGE_KEYS (15 Table 15-1; 13 R335, R336). -/
def execStageKeys (ok0 ok1 : Bool) (s : State) : Out :=
  .next (if !s.atStage 2 then s
    else
      let t := s.spinesPass ok0 ok1 4 3
      if t.boot.stage = 3 then t.makeKeys else t)

/-- 00 R4: no disabled array, or one in every tile; bits [6:2] of each byte are zero (15 Table 15-3). -/
def recordArraysOk (r : ManufRecord) : Bool :=
  r.arrays.length == 192 && r.arrays.all (fun b => decide (b / 4 % 32 = 0)) && (if r.grade = 0 then r.arrays.all (fun b => !bitOf b 7) else r.grade == 1 && r.arrays.all (fun b => bitOf b 7))

/-- STAGE_RECORD (15 R372, R373). -/
def execStageRecord (r : ManufRecord) (s : State) : Out :=
  .next (if !s.atStage 3 then s
    else if !(r.formOk && r.deviceOk && r.sigsOk && recordArraysOk r) then s.stopBoot 5
    else
      let s := (List.range 8).foldl (fun s e => s.setEth e { s.eth e with mac := r.macs.getD e 0 }) s
      { s.setStage 4 with grade768 := r.grade == 0, boot := { s.boot with record := some r, stage := 4 } })

/-- Stage 5 applies the Splice configuration record and trains the member ports (15 R375). -/
def State.beginLinks (s : State) : State :=
  let s : State := { s with
    device := BitVec.ofNat 20 s.flash.device
    splice := { s.splice with dims := s.flash.dims, hoplimit := s.flash.hoplimit, ovr := s.flash.ovr } }
  (List.range 16).foldl (fun s p =>
    let r := Sparse.get PortRecord.reset s.flash.ports p
    let x := { s.port p with dim := r.dim, minus := r.minus, member := r.member, halfok := r.halfok, rto := r.rto, drainto := r.drainto }
    let s := s.setPort p x
    if r.member then s.enablePort p else s) s

/-- STAGE_MEMORY (15 R374): `failed` are the channels that fail training. A stack at throttle level 0 makes the stage wait. -/
def execStageMemory (okTb : Bool) (failed : List Nat) (s : State) : Out :=
  let chx := (s.boot.record.map (·.chx)).getD []
  let out := (List.range 640).filter fun c => chx.contains c || s.flash.channels.contains c || failed.contains c
  let n := 640 - out.length
  .next (if !s.atStage 4 || s.hbm.any (fun e => e.2.level == 0) then s
    else if !okTb || decide (n < 608) then s.stopBoot 6
    else
      let s := (List.range 640).foldl (fun s c => s.setChan c
        { Chan.reset with state := if out.contains c then .mappedOut else .live, tempAt := (s.stackOf (c / 32)).temp }) s
      let s := (List.range 20).foldl (fun s m => s.setStack m { s.stackOf m with regs := [], patrolEn := true }) s
      let s : State := { s with
        mem := { Mem.reset with n := n, ctop := capacity n, removed := out
                                regions := (List.range 128).map fun i => (i, { Region.reset with state := .held }) }
        flash := { s.flash with channels := s.flash.channels ++ (failed.filter fun c => !s.flash.channels.contains c) } }
      let (f, s) := s.takeFree
      let s : State := { s with boot := { s.boot with keys := { s.boot.keys with log := Config.drbgKey f + 1 } } }
      let s := (s.setStage 5).beginLinks
      if s.boot.alone then s.alarm .spineFailover (natOf s.spine.primary) else s)

/-- The end of stage 5: a group-table image staged by a recovery is installed (15 R375; 11 R304), and is staged no longer. -/
def State.endLinks (s : State) : State :=
  let t := s.flash.groups.foldl (fun s e => if s.groupFits e.2 then s.setGroup e.1 (some e.2) else s) s
  { t with flash := { t.flash with groups := [] } }.setStage 6

/-- STAGE_LINKS: no member port is in training (15 R375). -/
def execStageLinks (s : State) : Out :=
  .next (if s.atStage 5 && !((List.range 16).any fun p => (s.port p).member && (s.port p).state == .training) then s.endLinks else s)
/-- STAGE_LINKS_TIMEOUT: 500 ms (15 R375). -/
def execStageLinksTimeout (s : State) : Out := .next (if s.atStage 5 then s.endLinks else s)

/-- Stage 6 on an island: 0.75 V and the first calibration, whose period is measured (15 R376; log 8). -/
def State.firstIsland (s : State) (i : Nat) : State :=
  let (f, s) := s.takeFree
  let x := s.island i
  s.setIsland i { x with mv := 750, period := Config.sensor (200 + i) f % 2 ^ 32, calseq := (x.calseq + 1) % 65536, calvalid := true
                         rate := min rateTop (freeRate 750 x.tj (Config.sensor i f)) }

/-- STAGE_TILES: delays, routers, self-tests; then the device is ready (15 R367, R376, R377). -/
def execStageTiles (meshOk : Bool) (failed : List Nat) (steps : List Nat) (s : State) : Out :=
  .next (if !s.atStage 6 then s
    else if !meshOk then s.stopBoot 7
    else
      let s := (List.range 16).foldl State.firstIsland s
      let s := allTiles.foldl (fun s t =>
        let d : Delay := { (s.tile t).delay with step := min (steps.getD t.val 0) 255, margin := 4 }
        if failed.contains t.val then (s.updTile t fun x => { x.retire with delay := d }).alarm .selfTestFailed t.val
        else s.updTile t fun x => { x.clear with delay := d }) s
      ({ s.setStage 7 with splice := { s.splice with ready := true }, mem := { s.mem with isOpen := true } } : State).watchRisk)

/-- THERMTRIP: going down, and power is removed as in the lost feed state (17 R420); readings in quarters of a degree. -/
def execThermtrip (tj tstack : BitVec 16) (s : State) : Out :=
  .next (if s.power.state = .off || s.boot.tripped || (decide (tj.toNat < 448) && decide (tstack.toNat < 440)) then s
    else
      let s : State := { s with pins := { s.pins with thermtrip := true }, boot := { s.boot with tripped := true } }
      ((s.setFeedState .lost).alarm .thermtrip 0).flood 1 s.device.toNat s.incarnation)

/-- The module is addressed on SMBus (17 R418). -/
def State.smbusHears (s : State) (addr : BitVec 7) : Bool := addr.toNat == 0x40 + s.pins.addr.toNat
/-- Either feed is present (17 R418). -/
def State.auxPower (s : State) : Bool := s.power.state ≠ .off || (s.feedInfo .main).good || (s.feedInfo .backup).good

/-- The status block (17 Table 17-4). -/
def State.statusBlock (s : State) (r : SensorBlock) : List Byte :=
  [BitVec.ofNat 8 s.stageByte, BitVec.ofNat 8 (s.power.state.code + 8 * natOf (s.feedInfo .main).good + 16 * natOf (s.feedInfo .backup).good)] ++
  (if s.boot.stage = 0 then List.replicate 14 0
   else [BitVec.ofNat 8 s.riskNow, BitVec.ofNat 8 (natOf s.spine.up0 + 2 * natOf s.spine.up1)] ++
     leBytes 2 r.pin.toNat ++ leBytes 2 r.tjmax.toNat ++ leBytes 2 r.tstack.toNat ++ leBytes 2 r.tin.toNat ++ leBytes 2 r.tout.toNat ++
     leBytes 2 (min (s.alarms.filter fun e => e.2.isSome).length 65535))

def State.setSmbus (s : State) (x : Option (List Byte)) : State := { s with pins := { s.pins with smbus := x } }

/-- SMBUS_STATUS_READ (17 R418). -/
def execSmbusStatusRead (addr : BitVec 7) (r : SensorBlock) (s : State) : Out :=
  .next (if s.smbusHears addr then s.setSmbus (if s.auxPower then some (s.statusBlock r) else none) else s)

/-- SMBUS_OTHER_COMMAND: a NACK (17 R418). -/
def execSmbusOtherCommand (addr : BitVec 7) (_cmd : BitVec 8) (s : State) : Out :=
  .next (if s.smbusHears addr then s.setSmbus none else s)

end Sys2Proof.Machine
end

