-- ==== Sys2Proof/Machine/Vector.lean ====
section
/-! DEFINITION. The vector instructions (04 Table 04-5): the four that run in the scalar core, and one issue for each that
goes to a pipe. -/

namespace Sys2Proof.Machine

/-- vfmt.rm codes 0b101 to 0b111 are reserved (04 Table 04-2). -/
def roundingOk (rm : Nat) : Bool := decide (rm ≤ 4)

/-- An instruction of major 0x3B that runs in the scalar core: it waits for a pending trap (03 R85), takes only src 0b00 and fmtx 0 (04 R101,
R424), and as every vector instruction leaves vresume at 0 (R93). -/
def vectorState (a : At) (f : VF) (uses : List (BitVec 5)) (eff : Strand → Option Strand) (s : State) : Out :=
  s.issue64 a uses fun s =>
    if (s.strand a).trap.isSome then .wait
    else if f.src ≠ 0 ∨ f.fmtx ≠ 0 then illegal s a
    else match eff (s.strand a) with
      | none => illegal s a
      | some r => .done (s.setStrand a { r with vresume := 0 })

/-- vsetvl (04 R94). -/
def execVsetvl (a : At) (f : VF) (s : State) : Out :=
  vectorState a f [f.vs1, f.vd] (fun r =>
    let fmt := bitsOf f.imm.toNat 2 4
    let lg := bitsOf f.imm.toNat 0 2
    if fmt = 0 ∨ fmt = 15 then none
    else
      let n := min (r.g f.vs1).toNat (vlmax fmt lg)
      some ({ r with vgrp := BitVec.ofNat 2 lg, vfmt := BitVec.ofNat 11 (setBits r.vfmt.toNat 0 4 fmt),
                     vlen := BitVec.ofNat 16 n }.setG f.vd (word n))) s

/-- vsetmode (04 R94). -/
def execVsetmode (a : At) (f : VF) (s : State) : Out :=
  vectorState a f [f.gs] (fun r =>
    let v := (r.g f.gs).toNat
    if !roundingOk (bitsOf v 4 3) then none
    else some { r with vfmt := BitVec.ofNat 11 (setBits r.vfmt.toNat 4 7 (bitsOf v 4 7)) }) s

/-- The vector state register that a selector names (04 R95). -/
def Strand.vecState (r : Strand) (sel : Nat) : Option Word :=
  match sel with
  | 0 => some (r.vlen.setWidth 64)
  | 1 => some (r.vfmt.setWidth 64)
  | 2 => some (r.vgrp.setWidth 64)
  | 3 => some (r.vresume.setWidth 64)
  | 4 => some (r.vflags.setWidth 64)
  | _ => none

/-- vrdst (04 R95). -/
def execVrdst (a : At) (f : VF) (s : State) : Out :=
  vectorState a f [f.vd] (fun r => (r.vecState f.imm.toNat).map (r.setG f.vd ·)) s

/-- The effect of vwrst, where the written value is allowed (04 R95); reserved bits of it are ignored (Table 04-2, 00 R9). -/
def Strand.writeVec (r : Strand) (sel : Nat) (v : Word) : Option Strand :=
  match sel with
  | 0 => if v.toNat % 2 ^ 16 ≤ vlmax (bitsOf r.vfmt.toNat 0 4) r.vgrp.toNat then some { r with vlen := v.setWidth 16 } else none
  | 1 => if bitsOf v.toNat 0 4 = 15 ∨ !roundingOk (bitsOf v.toNat 4 3) then none else some { r with vfmt := v.setWidth 11 }
  | 2 => some { r with vgrp := v.setWidth 2 }
  | 4 => some { r with vflags := v.setWidth 7 }
  | _ => none

/-- vwrst (04 R95). -/
def execVwrst (a : At) (f : VF) (s : State) : Out :=
  vectorState a f [f.gs] (fun r => r.writeVec f.imm.toNat (r.g f.gs)) s

/-- vadd (R103). -/
def execVadd (a : At) (f : VF) (s : State) : Out := vectorIssue .add a f s
/-- vsub (R103). -/
def execVsub (a : At) (f : VF) (s : State) : Out := vectorIssue .sub a f s
/-- vrsub (R103). -/
def execVrsub (a : At) (f : VF) (s : State) : Out := vectorIssue .rsub a f s
/-- vmul (R103). -/
def execVmul (a : At) (f : VF) (s : State) : Out := vectorIssue .mul a f s
/-- vmin (R129). -/
def execVmin (a : At) (f : VF) (s : State) : Out := vectorIssue .min a f s
/-- vmax (R129). -/
def execVmax (a : At) (f : VF) (s : State) : Out := vectorIssue .max a f s
/-- vminu (R103). -/
def execVminu (a : At) (f : VF) (s : State) : Out := vectorIssue .minu a f s
/-- vmaxu (R103). -/
def execVmaxu (a : At) (f : VF) (s : State) : Out := vectorIssue .maxu a f s
/-- vand (R103). -/
def execVand (a : At) (f : VF) (s : State) : Out := vectorIssue .and a f s
/-- vor (R103). -/
def execVor (a : At) (f : VF) (s : State) : Out := vectorIssue .or a f s
/-- vxor (R103). -/
def execVxor (a : At) (f : VF) (s : State) : Out := vectorIssue .xor a f s
/-- vsll (R103). -/
def execVsll (a : At) (f : VF) (s : State) : Out := vectorIssue .sll a f s
/-- vsrl (R103). -/
def execVsrl (a : At) (f : VF) (s : State) : Out := vectorIssue .srl a f s
/-- vsra (R103). -/
def execVsra (a : At) (f : VF) (s : State) : Out := vectorIssue .sra a f s
/-- vmulh (R103). -/
def execVmulh (a : At) (f : VF) (s : State) : Out := vectorIssue .mulh a f s
/-- vmulhu (R103). -/
def execVmulhu (a : At) (f : VF) (s : State) : Out := vectorIssue .mulhu a f s
/-- vfma (R103). -/
def execVfma (a : At) (f : VF) (s : State) : Out := vectorIssue .fma a f s
/-- vfms (R103). -/
def execVfms (a : At) (f : VF) (s : State) : Out := vectorIssue .fms a f s
/-- vfnma (R103). -/
def execVfnma (a : At) (f : VF) (s : State) : Out := vectorIssue .fnma a f s
/-- vdiv (R103). -/
def execVdiv (a : At) (f : VF) (s : State) : Out := vectorIssue .div a f s
/-- vsqrt (R103). -/
def execVsqrt (a : At) (f : VF) (s : State) : Out := vectorIssue .sqrt a f s
/-- vabs (R103). -/
def execVabs (a : At) (f : VF) (s : State) : Out := vectorIssue .abs a f s
/-- vneg (R103). -/
def execVneg (a : At) (f : VF) (s : State) : Out := vectorIssue .neg a f s
/-- vcmpeq (R92). -/
def execVcmpeq (a : At) (f : VF) (s : State) : Out := vectorIssue .cmpeq a f s
/-- vcmpne (R92). -/
def execVcmpne (a : At) (f : VF) (s : State) : Out := vectorIssue .cmpne a f s
/-- vcmplt (R92). -/
def execVcmplt (a : At) (f : VF) (s : State) : Out := vectorIssue .cmplt a f s
/-- vcmple (R92). -/
def execVcmple (a : At) (f : VF) (s : State) : Out := vectorIssue .cmple a f s
/-- vcmpltu (R92). -/
def execVcmpltu (a : At) (f : VF) (s : State) : Out := vectorIssue .cmpltu a f s
/-- vcmpleu (R92). -/
def execVcmpleu (a : At) (f : VF) (s : State) : Out := vectorIssue .cmpleu a f s
/-- vcmpun (R92). -/
def execVcmpun (a : At) (f : VF) (s : State) : Out := vectorIssue .cmpun a f s
/-- vcvt (R128). -/
def execVcvt (a : At) (f : VF) (s : State) : Out := vectorIssue .cvt a f s
/-- vmerge (R92). -/
def execVmerge (a : At) (f : VF) (s : State) : Out := vectorIssue .merge a f s
/-- vmv (R92). -/
def execVmv (a : At) (f : VF) (s : State) : Out := vectorIssue .mv a f s
/-- vwadd (R104). -/
def execVwadd (a : At) (f : VF) (s : State) : Out := vectorIssue .wadd a f s
/-- vwaddu (R104). -/
def execVwaddu (a : At) (f : VF) (s : State) : Out := vectorIssue .waddu a f s
/-- vwmul (R104). -/
def execVwmul (a : At) (f : VF) (s : State) : Out := vectorIssue .wmul a f s
/-- vwmulu (R104). -/
def execVwmulu (a : At) (f : VF) (s : State) : Out := vectorIssue .wmulu a f s
/-- vwfma (R104). -/
def execVwfma (a : At) (f : VF) (s : State) : Out := vectorIssue .wfma a f s
/-- vdot2 (R105). -/
def execVdot2 (a : At) (f : VF) (s : State) : Out := vectorIssue .dot2 a f s
/-- vdot4 (R105). -/
def execVdot4 (a : At) (f : VF) (s : State) : Out := vectorIssue .dot4 a f s
/-- vdot8 (R105). -/
def execVdot8 (a : At) (f : VF) (s : State) : Out := vectorIssue .dot8 a f s
/-- vsadd (R106). -/
def execVsadd (a : At) (f : VF) (s : State) : Out := vectorIssue .sadd a f s
/-- vsaddu (R106). -/
def execVsaddu (a : At) (f : VF) (s : State) : Out := vectorIssue .saddu a f s
/-- vssub (R106). -/
def execVssub (a : At) (f : VF) (s : State) : Out := vectorIssue .ssub a f s
/-- vssubu (R106). -/
def execVssubu (a : At) (f : VF) (s : State) : Out := vectorIssue .ssubu a f s
/-- vsmul (R106). -/
def execVsmul (a : At) (f : VF) (s : State) : Out := vectorIssue .smul a f s
/-- vssra (R106). -/
def execVssra (a : At) (f : VF) (s : State) : Out := vectorIssue .ssra a f s
/-- vssrl (R106). -/
def execVssrl (a : At) (f : VF) (s : State) : Out := vectorIssue .ssrl a f s
/-- vnclip (R106). -/
def execVnclip (a : At) (f : VF) (s : State) : Out := vectorIssue .nclip a f s
/-- vnclipu (R106). -/
def execVnclipu (a : At) (f : VF) (s : State) : Out := vectorIssue .nclipu a f s
/-- vaadd (R106). -/
def execVaadd (a : At) (f : VF) (s : State) : Out := vectorIssue .aadd a f s
/-- vmxq (R108). -/
def execVmxq (a : At) (f : VF) (s : State) : Out := vectorIssue .mxq a f s
/-- vmxdq (R108). -/
def execVmxdq (a : At) (f : VF) (s : State) : Out := vectorIssue .mxdq a f s
/-- vld (R109). -/
def execVld (a : At) (f : VF) (s : State) : Out := vectorIssue .ld a f s
/-- vlds (R109). -/
def execVlds (a : At) (f : VF) (s : State) : Out := vectorIssue .lds a f s
/-- vldx (R109). -/
def execVldx (a : At) (f : VF) (s : State) : Out := vectorIssue .ldx a f s
/-- vst (R110). -/
def execVst (a : At) (f : VF) (s : State) : Out := vectorIssue .st a f s
/-- vsts (R110). -/
def execVsts (a : At) (f : VF) (s : State) : Out := vectorIssue .sts a f s
/-- vstx (R110). -/
def execVstx (a : At) (f : VF) (s : State) : Out := vectorIssue .stx a f s
/-- vldm (R92). -/
def execVldm (a : At) (f : VF) (s : State) : Out := vectorIssue .ldm a f s
/-- vstm (R92). -/
def execVstm (a : At) (f : VF) (s : State) : Out := vectorIssue .stm a f s
/-- vamox (R111). -/
def execVamox (a : At) (f : VF) (s : State) : Out := vectorIssue .amox a f s
/-- mand (R92). -/
def execMand (a : At) (f : VF) (s : State) : Out := vectorIssue .mand a f s
/-- mor (R92). -/
def execMor (a : At) (f : VF) (s : State) : Out := vectorIssue .mor a f s
/-- mxor (R92). -/
def execMxor (a : At) (f : VF) (s : State) : Out := vectorIssue .mxor a f s
/-- mandn (R92). -/
def execMandn (a : At) (f : VF) (s : State) : Out := vectorIssue .mandn a f s
/-- mnot (R92). -/
def execMnot (a : At) (f : VF) (s : State) : Out := vectorIssue .mnot a f s
/-- mpopc (R116). -/
def execMpopc (a : At) (f : VF) (s : State) : Out := vectorIssue .mpopc a f s
/-- mfirst (R116). -/
def execMfirst (a : At) (f : VF) (s : State) : Out := vectorIssue .mfirst a f s
/-- vcompress (R112). -/
def execVcompress (a : At) (f : VF) (s : State) : Out := vectorIssue .compress a f s
/-- vexpand (R112). -/
def execVexpand (a : At) (f : VF) (s : State) : Out := vectorIssue .expand a f s
/-- vslideup (R112). -/
def execVslideup (a : At) (f : VF) (s : State) : Out := vectorIssue .slideup a f s
/-- vslidedown (R112). -/
def execVslidedown (a : At) (f : VF) (s : State) : Out := vectorIssue .slidedown a f s
/-- vperm (R112). -/
def execVperm (a : At) (f : VF) (s : State) : Out := vectorIssue .perm a f s
/-- vmvxs (R426). -/
def execVmvxs (a : At) (f : VF) (s : State) : Out := vectorIssue .mvxs a f s
/-- vmvsx (R426). -/
def execVmvsx (a : At) (f : VF) (s : State) : Out := vectorIssue .mvsx a f s
/-- vredsum (R113). -/
def execVredsum (a : At) (f : VF) (s : State) : Out := vectorIssue .redsum a f s
/-- vredmin (R113). -/
def execVredmin (a : At) (f : VF) (s : State) : Out := vectorIssue .redmin a f s
/-- vredmax (R113). -/
def execVredmax (a : At) (f : VF) (s : State) : Out := vectorIssue .redmax a f s
/-- vredminu (R113). -/
def execVredminu (a : At) (f : VF) (s : State) : Out := vectorIssue .redminu a f s
/-- vredmaxu (R113). -/
def execVredmaxu (a : At) (f : VF) (s : State) : Out := vectorIssue .redmaxu a f s
/-- vredand (R113). -/
def execVredand (a : At) (f : VF) (s : State) : Out := vectorIssue .redand a f s
/-- vredor (R113). -/
def execVredor (a : At) (f : VF) (s : State) : Out := vectorIssue .redor a f s
/-- vredxor (R113). -/
def execVredxor (a : At) (f : VF) (s : State) : Out := vectorIssue .redxor a f s
/-- vwredsum (R113). -/
def execVwredsum (a : At) (f : VF) (s : State) : Out := vectorIssue .wredsum a f s
/-- vscansum (R114). -/
def execVscansum (a : At) (f : VF) (s : State) : Out := vectorIssue .scansum a f s
/-- vscanmin (R114). -/
def execVscanmin (a : At) (f : VF) (s : State) : Out := vectorIssue .scanmin a f s
/-- vscanmax (R114). -/
def execVscanmax (a : At) (f : VF) (s : State) : Out := vectorIssue .scanmax a f s

end Sys2Proof.Machine
end

