-- ==== Sys2Proof/Machine/Dispatch.lean ====
section
/-! DEFINITION. The meaning of each command: one arm for each row of spec/opcode_table.json. -/

namespace Sys2Proof.Machine

def exec (i : Instr) (s : State) : Host.Outcome State Fault Refusal :=
  match i with
  | .add a f => Sys2Proof.Machine.execAdd a f s
  | .sub a f => Sys2Proof.Machine.execSub a f s
  | .and a f => Sys2Proof.Machine.execAnd a f s
  | .or a f => Sys2Proof.Machine.execOr a f s
  | .xor a f => Sys2Proof.Machine.execXor a f s
  | .sll a f => Sys2Proof.Machine.execSll a f s
  | .srl a f => Sys2Proof.Machine.execSrl a f s
  | .sra a f => Sys2Proof.Machine.execSra a f s
  | .slt a f => Sys2Proof.Machine.execSlt a f s
  | .sltu a f => Sys2Proof.Machine.execSltu a f s
  | .min a f => Sys2Proof.Machine.execMin a f s
  | .max a f => Sys2Proof.Machine.execMax a f s
  | .minu a f => Sys2Proof.Machine.execMinu a f s
  | .maxu a f => Sys2Proof.Machine.execMaxu a f s
  | .mul a f => Sys2Proof.Machine.execMul a f s
  | .mulh a f => Sys2Proof.Machine.execMulh a f s
  | .mulhu a f => Sys2Proof.Machine.execMulhu a f s
  | .div a f => Sys2Proof.Machine.execDiv a f s
  | .divu a f => Sys2Proof.Machine.execDivu a f s
  | .rem a f => Sys2Proof.Machine.execRem a f s
  | .remu a f => Sys2Proof.Machine.execRemu a f s
  | .clz a f => Sys2Proof.Machine.execClz a f s
  | .ctz a f => Sys2Proof.Machine.execCtz a f s
  | .popc a f => Sys2Proof.Machine.execPopc a f s
  | .addi a f => Sys2Proof.Machine.execAddi a f s
  | .andi a f => Sys2Proof.Machine.execAndi a f s
  | .ori a f => Sys2Proof.Machine.execOri a f s
  | .xori a f => Sys2Proof.Machine.execXori a f s
  | .slti a f => Sys2Proof.Machine.execSlti a f s
  | .sltiu a f => Sys2Proof.Machine.execSltiu a f s
  | .shi a f => Sys2Proof.Machine.execShi a f s
  | .lui a rd imm => Sys2Proof.Machine.execLui a rd imm s
  | .lb a f => Sys2Proof.Machine.execLb a f s
  | .lbu a f => Sys2Proof.Machine.execLbu a f s
  | .lh a f => Sys2Proof.Machine.execLh a f s
  | .lhu a f => Sys2Proof.Machine.execLhu a f s
  | .lw a f => Sys2Proof.Machine.execLw a f s
  | .lwu a f => Sys2Proof.Machine.execLwu a f s
  | .ld a f => Sys2Proof.Machine.execLd a f s
  | .sb a f => Sys2Proof.Machine.execSb a f s
  | .sh a f => Sys2Proof.Machine.execSh a f s
  | .sw a f => Sys2Proof.Machine.execSw a f s
  | .sd a f => Sys2Proof.Machine.execSd a f s
  | .amo a f fn => Sys2Proof.Machine.execAmo a f fn s
  | .beq a f => Sys2Proof.Machine.execBeq a f s
  | .bne a f => Sys2Proof.Machine.execBne a f s
  | .blt a f => Sys2Proof.Machine.execBlt a f s
  | .bge a f => Sys2Proof.Machine.execBge a f s
  | .bltu a f => Sys2Proof.Machine.execBltu a f s
  | .bgeu a f => Sys2Proof.Machine.execBgeu a f s
  | .j a off => Sys2Proof.Machine.execJ a off s
  | .jal a off => Sys2Proof.Machine.execJal a off s
  | .jr a f fn => Sys2Proof.Machine.execJr a f fn s
  | .jalr a f fn => Sys2Proof.Machine.execJalr a f fn s
  | .loop a z rs1 n => Sys2Proof.Machine.execLoop a z rs1 n s
  | .fsync a f => Sys2Proof.Machine.execFsync a f s
  | .icinv a f => Sys2Proof.Machine.execIcinv a f s
  | .icinvAll a f => Sys2Proof.Machine.execIcinvAll a f s
  | .rdbeat a f => Sys2Proof.Machine.execRdbeat a f s
  | .rdint a f => Sys2Proof.Machine.execRdint a f s
  | .rdcal a f => Sys2Proof.Machine.execRdcal a f s
  | .rdself a f => Sys2Proof.Machine.execRdself a f s
  | .park a f => Sys2Proof.Machine.execPark a f s
  | .storeBufferDrain a => Sys2Proof.Machine.execStoreBufferDrain a s
  | .loadReply a k => Sys2Proof.Machine.execLoadReply a k s
  | .icacheLineFill a => Sys2Proof.Machine.execIcacheLineFill a s
  | .strandHalt a => Sys2Proof.Machine.execStrandHalt a s
  | .strandHaltTake a => Sys2Proof.Machine.execStrandHaltTake a s
  | .strandRelease a => Sys2Proof.Machine.execStrandRelease a s
  | .strandPcWrite a v => Sys2Proof.Machine.execStrandPcWrite a v s
  | .wmov a f => Sys2Proof.Machine.execWmov a f s
  | .wclr a f => Sys2Proof.Machine.execWclr a f s
  | .wbound a f => Sys2Proof.Machine.execWbound a f s
  | .wright a f => Sys2Proof.Machine.execWright a f s
  | .wlow a f => Sys2Proof.Machine.execWlow a f s
  | .wgrp a f => Sys2Proof.Machine.execWgrp a f s
  | .wdev a f => Sys2Proof.Machine.execWdev a f s
  | .wget a f => Sys2Proof.Machine.execWget a f s
  | .wsv a f => Sys2Proof.Machine.execWsv a f s
  | .wld a f => Sys2Proof.Machine.execWld a f s
  | .gcall a f => Sys2Proof.Machine.execGcall a f s
  | .gret a f => Sys2Proof.Machine.execGret a f s
  | .frameReadback a => Sys2Proof.Machine.execFrameReadback a s
  | .esignal a f => Sys2Proof.Machine.execEsignal a f s
  | .qfloor a f => Sys2Proof.Machine.execQfloor a f s
  | .qfloorApplied a => Sys2Proof.Machine.execQfloorApplied a s
  | .tlbinv a f => Sys2Proof.Machine.execTlbinv a f s
  | .tlbinvAll a f => Sys2Proof.Machine.execTlbinvAll a f s
  | .pageWalkRead t k => Sys2Proof.Machine.execPageWalkRead t k s
  | .xret a f => Sys2Proof.Machine.execXret a f s
  | .rdstat a f => Sys2Proof.Machine.execRdstat a f s
  | .wrstat a f => Sys2Proof.Machine.execWrstat a f s
  | .rdcause a f => Sys2Proof.Machine.execRdcause a f s
  | .rdfault a f => Sys2Proof.Machine.execRdfault a f s
  | .rdxsp a f => Sys2Proof.Machine.execRdxsp a f s
  | .hushset a f => Sys2Proof.Machine.execHushset a f s
  | .hushclr a f => Sys2Proof.Machine.execHushclr a f s
  | .rdevt a f => Sys2Proof.Machine.execRdevt a f s
  | .evclr a f => Sys2Proof.Machine.execEvclr a f s
  | .wreven a f => Sys2Proof.Machine.execWreven a f s
  | .wrcmp a f => Sys2Proof.Machine.execWrcmp a f s
  | .intervalCompareMatch a => Sys2Proof.Machine.execIntervalCompareMatch a s
  | .exceptionEntry a => Sys2Proof.Machine.execExceptionEntry a s
  | .wxHiWrite a v => Sys2Proof.Machine.execWxHiWrite a v s
  | .vadd a f => Sys2Proof.Machine.execVadd a f s
  | .vsub a f => Sys2Proof.Machine.execVsub a f s
  | .vrsub a f => Sys2Proof.Machine.execVrsub a f s
  | .vmul a f => Sys2Proof.Machine.execVmul a f s
  | .vmin a f => Sys2Proof.Machine.execVmin a f s
  | .vmax a f => Sys2Proof.Machine.execVmax a f s
  | .vminu a f => Sys2Proof.Machine.execVminu a f s
  | .vmaxu a f => Sys2Proof.Machine.execVmaxu a f s
  | .vand a f => Sys2Proof.Machine.execVand a f s
  | .vor a f => Sys2Proof.Machine.execVor a f s
  | .vxor a f => Sys2Proof.Machine.execVxor a f s
  | .vsll a f => Sys2Proof.Machine.execVsll a f s
  | .vsrl a f => Sys2Proof.Machine.execVsrl a f s
  | .vsra a f => Sys2Proof.Machine.execVsra a f s
  | .vmulh a f => Sys2Proof.Machine.execVmulh a f s
  | .vmulhu a f => Sys2Proof.Machine.execVmulhu a f s
  | .vfma a f => Sys2Proof.Machine.execVfma a f s
  | .vfms a f => Sys2Proof.Machine.execVfms a f s
  | .vfnma a f => Sys2Proof.Machine.execVfnma a f s
  | .vdiv a f => Sys2Proof.Machine.execVdiv a f s
  | .vsqrt a f => Sys2Proof.Machine.execVsqrt a f s
  | .vabs a f => Sys2Proof.Machine.execVabs a f s
  | .vneg a f => Sys2Proof.Machine.execVneg a f s
  | .vcmpeq a f => Sys2Proof.Machine.execVcmpeq a f s
  | .vcmpne a f => Sys2Proof.Machine.execVcmpne a f s
  | .vcmplt a f => Sys2Proof.Machine.execVcmplt a f s
  | .vcmple a f => Sys2Proof.Machine.execVcmple a f s
  | .vcmpltu a f => Sys2Proof.Machine.execVcmpltu a f s
  | .vcmpleu a f => Sys2Proof.Machine.execVcmpleu a f s
  | .vcmpun a f => Sys2Proof.Machine.execVcmpun a f s
  | .vcvt a f => Sys2Proof.Machine.execVcvt a f s
  | .vmerge a f => Sys2Proof.Machine.execVmerge a f s
  | .vmv a f => Sys2Proof.Machine.execVmv a f s
  | .vwadd a f => Sys2Proof.Machine.execVwadd a f s
  | .vwaddu a f => Sys2Proof.Machine.execVwaddu a f s
  | .vwmul a f => Sys2Proof.Machine.execVwmul a f s
  | .vwmulu a f => Sys2Proof.Machine.execVwmulu a f s
  | .vwfma a f => Sys2Proof.Machine.execVwfma a f s
  | .vdot2 a f => Sys2Proof.Machine.execVdot2 a f s
  | .vdot4 a f => Sys2Proof.Machine.execVdot4 a f s
  | .vdot8 a f => Sys2Proof.Machine.execVdot8 a f s
  | .vsadd a f => Sys2Proof.Machine.execVsadd a f s
  | .vsaddu a f => Sys2Proof.Machine.execVsaddu a f s
  | .vssub a f => Sys2Proof.Machine.execVssub a f s
  | .vssubu a f => Sys2Proof.Machine.execVssubu a f s
  | .vsmul a f => Sys2Proof.Machine.execVsmul a f s
  | .vssra a f => Sys2Proof.Machine.execVssra a f s
  | .vssrl a f => Sys2Proof.Machine.execVssrl a f s
  | .vnclip a f => Sys2Proof.Machine.execVnclip a f s
  | .vnclipu a f => Sys2Proof.Machine.execVnclipu a f s
  | .vaadd a f => Sys2Proof.Machine.execVaadd a f s
  | .vmxq a f => Sys2Proof.Machine.execVmxq a f s
  | .vmxdq a f => Sys2Proof.Machine.execVmxdq a f s
  | .vld a f => Sys2Proof.Machine.execVld a f s
  | .vlds a f => Sys2Proof.Machine.execVlds a f s
  | .vldx a f => Sys2Proof.Machine.execVldx a f s
  | .vst a f => Sys2Proof.Machine.execVst a f s
  | .vsts a f => Sys2Proof.Machine.execVsts a f s
  | .vstx a f => Sys2Proof.Machine.execVstx a f s
  | .vldm a f => Sys2Proof.Machine.execVldm a f s
  | .vstm a f => Sys2Proof.Machine.execVstm a f s
  | .vamox a f => Sys2Proof.Machine.execVamox a f s
  | .vectorElementReturn t => Sys2Proof.Machine.execVectorElementReturn t s
  | .vectorOpComplete t p => Sys2Proof.Machine.execVectorOpComplete t p s
  | .vsetvl a f => Sys2Proof.Machine.execVsetvl a f s
  | .vsetmode a f => Sys2Proof.Machine.execVsetmode a f s
  | .vrdst a f => Sys2Proof.Machine.execVrdst a f s
  | .vwrst a f => Sys2Proof.Machine.execVwrst a f s
  | .mand a f => Sys2Proof.Machine.execMand a f s
  | .mor a f => Sys2Proof.Machine.execMor a f s
  | .mxor a f => Sys2Proof.Machine.execMxor a f s
  | .mandn a f => Sys2Proof.Machine.execMandn a f s
  | .mnot a f => Sys2Proof.Machine.execMnot a f s
  | .mpopc a f => Sys2Proof.Machine.execMpopc a f s
  | .mfirst a f => Sys2Proof.Machine.execMfirst a f s
  | .vcompress a f => Sys2Proof.Machine.execVcompress a f s
  | .vexpand a f => Sys2Proof.Machine.execVexpand a f s
  | .vslideup a f => Sys2Proof.Machine.execVslideup a f s
  | .vslidedown a f => Sys2Proof.Machine.execVslidedown a f s
  | .vperm a f => Sys2Proof.Machine.execVperm a f s
  | .vmvxs a f => Sys2Proof.Machine.execVmvxs a f s
  | .vmvsx a f => Sys2Proof.Machine.execVmvsx a f s
  | .vredsum a f => Sys2Proof.Machine.execVredsum a f s
  | .vredmin a f => Sys2Proof.Machine.execVredmin a f s
  | .vredmax a f => Sys2Proof.Machine.execVredmax a f s
  | .vredminu a f => Sys2Proof.Machine.execVredminu a f s
  | .vredmaxu a f => Sys2Proof.Machine.execVredmaxu a f s
  | .vredand a f => Sys2Proof.Machine.execVredand a f s
  | .vredor a f => Sys2Proof.Machine.execVredor a f s
  | .vredxor a f => Sys2Proof.Machine.execVredxor a f s
  | .vwredsum a f => Sys2Proof.Machine.execVwredsum a f s
  | .vscansum a f => Sys2Proof.Machine.execVscansum a f s
  | .vscanmin a f => Sys2Proof.Machine.execVscanmin a f s
  | .vscanmax a f => Sys2Proof.Machine.execVscanmax a f s
  | .twld a f => Sys2Proof.Machine.execTwld a f s
  | .tmma a f => Sys2Proof.Machine.execTmma a f s
  | .tmmr a f => Sys2Proof.Machine.execTmmr a f s
  | .tham a f => Sys2Proof.Machine.execTham a f s
  | .tl1 a f => Sys2Proof.Machine.execTl1 a f s
  | .tminp a f => Sys2Proof.Machine.execTminp a f s
  | .tmaxp a f => Sys2Proof.Machine.execTmaxp a f s
  | .tld a f => Sys2Proof.Machine.execTld a f s
  | .tst a f => Sys2Proof.Machine.execTst a f s
  | .tacld a f => Sys2Proof.Machine.execTacld a f s
  | .tacst a f => Sys2Proof.Machine.execTacst a f s
  | .taczero a f => Sys2Proof.Machine.execTaczero a f s
  | .tcfg a f => Sys2Proof.Machine.execTcfg a f s
  | .tcfgrd a f => Sys2Proof.Machine.execTcfgrd a f s
  | .twait a f => Sys2Proof.Machine.execTwait a f s
  | .tfrd a f => Sys2Proof.Machine.execTfrd a f s
  | .tfclr a f => Sys2Proof.Machine.execTfclr a f s
  | .tfltrd a f => Sys2Proof.Machine.execTfltrd a f s
  | .trpsv a f => Sys2Proof.Machine.execTrpsv a f s
  | .trpld a f => Sys2Proof.Machine.execTrpld a f s
  | .trpclr a f => Sys2Proof.Machine.execTrpclr a f s
  | .tileOpBegin t k => Sys2Proof.Machine.execTileOpBegin t k s
  | .tileRowReturn t k => Sys2Proof.Machine.execTileRowReturn t k s
  | .tileOpCommit t k => Sys2Proof.Machine.execTileOpCommit t k s
  | .dummyRowFeed t arr => Sys2Proof.Machine.execDummyRowFeed t arr s
  | .tileCfgStore t v => Sys2Proof.Machine.execTileCfgStore t v s
  | .arrayHold t => Sys2Proof.Machine.execArrayHold t s
  | .arrayRun t => Sys2Proof.Machine.execArrayRun t s
  | .arrayDrainDone t => Sys2Proof.Machine.execArrayDrainDone t s
  | .fence a f => Sys2Proof.Machine.execFence a f s
  | .fenceLd a f => Sys2Proof.Machine.execFenceLd a f s
  | .dcl a f => Sys2Proof.Machine.execDcl a f s
  | .dci a f => Sys2Proof.Machine.execDci a f s
  | .dinv a f => Sys2Proof.Machine.execDinv a f s
  | .dclr a f => Sys2Proof.Machine.execDclr a f s
  | .dcir a f => Sys2Proof.Machine.execDcir a f s
  | .dinvr a f => Sys2Proof.Machine.execDinvr a f s
  | .dclsw a f => Sys2Proof.Machine.execDclsw a f s
  | .dcisw a f => Sys2Proof.Machine.execDcisw a f s
  | .dinvsw a f => Sys2Proof.Machine.execDinvsw a f s
  | .dclAll a f => Sys2Proof.Machine.execDclAll a f s
  | .dciAll a f => Sys2Proof.Machine.execDciAll a f s
  | .dinvAll a f => Sys2Proof.Machine.execDinvAll a f s
  | .pfl a f => Sys2Proof.Machine.execPfl a f s
  | .pfs a f => Sys2Proof.Machine.execPfs a f s
  | .pfstop a f => Sys2Proof.Machine.execPfstop a f s
  | .pfrd a f => Sys2Proof.Machine.execPfrd a f s
  | .streamPrefetchRequest t k => Sys2Proof.Machine.execStreamPrefetchRequest t k s
  | .fillReturn t place weak torn => Sys2Proof.Machine.execFillReturn t place weak torn s
  | .mergingBufferSend t k => Sys2Proof.Machine.execMergingBufferSend t k s
  | .writebackRefused t => Sys2Proof.Machine.execWritebackRefused t s
  | .meshPacketDeliver c src dst => Sys2Proof.Machine.execMeshPacketDeliver c src dst s
  | .stackPortAccept m => Sys2Proof.Machine.execStackPortAccept m s
  | .memoryRequest c unit e => Sys2Proof.Machine.execMemoryRequest c unit e s
  | .regulatorRefill m q ns => Sys2Proof.Machine.execRegulatorRefill m q ns s
  | .hbmRefresh c => Sys2Proof.Machine.execHbmRefresh c s
  | .stackTempRead m temp => Sys2Proof.Machine.execStackTempRead m temp s
  | .thermalStopBound m => Sys2Proof.Machine.execThermalStopBound m s
  | .patrolScrub m u e => Sys2Proof.Machine.execPatrolScrub m u e s
  | .retrainStart c ms => Sys2Proof.Machine.execRetrainStart c ms s
  | .retrainQuiesceDone c => Sys2Proof.Machine.execRetrainQuiesceDone c s
  | .retrainTrainDone c ok => Sys2Proof.Machine.execRetrainTrainDone c ok s
  | .retrainResumeDone c => Sys2Proof.Machine.execRetrainResumeDone c s
  | .lanePhaseTrack c lane up => Sys2Proof.Machine.execLanePhaseTrack c lane up s
  | .restripeStart => Sys2Proof.Machine.execRestripeStart s
  | .restripeBatch => Sys2Proof.Machine.execRestripeBatch s
  | .channelDead c => Sys2Proof.Machine.execChannelDead c s
  | .keySweepRegion q => Sys2Proof.Machine.execKeySweepRegion q s
  | .fillRegion q => Sys2Proof.Machine.execFillRegion q s
  | .frameSend p => Sys2Proof.Machine.execFrameSend p s
  | .frameReceive p fr => Sys2Proof.Machine.execFrameReceive p fr s
  | .retryTimeout p => Sys2Proof.Machine.execRetryTimeout p s
  | .spliceKeyChange p => Sys2Proof.Machine.execSpliceKeyChange p s
  | .remoteRequest p => Sys2Proof.Machine.execRemoteRequest p s
  | .remoteWriteResponse p => Sys2Proof.Machine.execRemoteWriteResponse p s
  | .eventSignalPacket p => Sys2Proof.Machine.execEventSignalPacket p s
  | .portEnable p => Sys2Proof.Machine.execPortEnable p s
  | .laneAdaptationDone p lowOk highOk => Sys2Proof.Machine.execLaneAdaptationDone p lowOk highOk s
  | .alignmentDone p ok => Sys2Proof.Machine.execAlignmentDone p ok s
  | .keyExchangeDone p peer => Sys2Proof.Machine.execKeyExchangeDone p peer s
  | .portRetrainRequest p => Sys2Proof.Machine.execPortRetrainRequest p s
  | .adaptationLoss p => Sys2Proof.Machine.execAdaptationLoss p s
  | .liveRetrainDone p ok => Sys2Proof.Machine.execLiveRetrainDone p ok s
  | .portDisable p => Sys2Proof.Machine.execPortDisable p s
  | .portDrainTimeout p => Sys2Proof.Machine.execPortDrainTimeout p s
  | .cgset a f => Sys2Proof.Machine.execCgset a f s
  | .cgget a f => Sys2Proof.Machine.execCgget a f s
  | .cgclr a f => Sys2Proof.Machine.execCgclr a f s
  | .ccol a f => Sys2Proof.Machine.execCcol a f s
  | .xstart a f => Sys2Proof.Machine.execXstart a f s
  | .collectivePacket p => Sys2Proof.Machine.execCollectivePacket p s
  | .collectiveBoundExpiry g => Sys2Proof.Machine.execCollectiveBoundExpiry g s
  | .collectiveEnd g => Sys2Proof.Machine.execCollectiveEnd g s
  | .transferPieceDone k => Sys2Proof.Machine.execTransferPieceDone k s
  | .hello c p => Sys2Proof.Machine.execHello c p s
  | .auth c p => Sys2Proof.Machine.execAuth c p s
  | .close c => Sys2Proof.Machine.execClose c s
  | .rekey c p => Sys2Proof.Machine.execRekey c p s
  | .ping c echo => Sys2Proof.Machine.execPing c echo s
  | .sessions c => Sys2Proof.Machine.execSessions c s
  | .evict c id => Sys2Proof.Machine.execEvict c id s
  | .netcfg c p => Sys2Proof.Machine.execNetcfg c p s
  | .netport c mask enable => Sys2Proof.Machine.execNetport c mask enable s
  | .status c => Sys2Proof.Machine.execStatus c s
  | .health c => Sys2Proof.Machine.execHealth c s
  | .inventory c => Sys2Proof.Machine.execInventory c s
  | .lostlist c first => Sys2Proof.Machine.execLostlist c first s
  | .alarms c n => Sys2Proof.Machine.execAlarms c n s
  | .alarmack c n => Sys2Proof.Machine.execAlarmack c n s
  | .qcreate c p => Sys2Proof.Machine.execQcreate c p s
  | .qquery c => Sys2Proof.Machine.execQquery c s
  | .qmodify c p => Sys2Proof.Machine.execQmodify c p s
  | .qdrain c bound => Sys2Proof.Machine.execQdrain c bound s
  | .qrelease c => Sys2Proof.Machine.execQrelease c s
  | .keyrotate c => Sys2Proof.Machine.execKeyrotate c s
  | .load c p => Sys2Proof.Machine.execLoad c p s
  | .read c addr len => Sys2Proof.Machine.execRead c addr len s
  | .write c addr bytes => Sys2Proof.Machine.execWrite c addr bytes s
  | .bulkopen c p => Sys2Proof.Machine.execBulkopen c p s
  | .bulkstatus c xid => Sys2Proof.Machine.execBulkstatus c xid s
  | .bulkcancel c xid => Sys2Proof.Machine.execBulkcancel c xid s
  | .start c tiles strands rec => Sys2Proof.Machine.execStart c tiles strands rec s
  | .halt c tiles strands => Sys2Proof.Machine.execHalt c tiles strands s
  | .tilereset c tiles => Sys2Proof.Machine.execTilereset c tiles s
  | .strands c tiles => Sys2Proof.Machine.execStrands c tiles s
  | .signal c tile strand line => Sys2Proof.Machine.execSignal c tile strand line s
  | .attest c nonce => Sys2Proof.Machine.execAttest c nonce s
  | .certs c => Sys2Proof.Machine.execCerts c s
  | .measlog c first => Sys2Proof.Machine.execMeaslog c first s
  | .partner c p => Sys2Proof.Machine.execPartner c p s
  | .ckestimate c => Sys2Proof.Machine.execCkestimate c s
  | .checkpoint c bound => Sys2Proof.Machine.execCheckpoint c bound s
  | .restore c p => Sys2Proof.Machine.execRestore c p s
  | .replayrec c => Sys2Proof.Machine.execReplayrec c s
  | .recoverregion c regions => Sys2Proof.Machine.execRecoverregion c regions s
  | .mapout c ch => Sys2Proof.Machine.execMapout c ch s
  | .failover c => Sys2Proof.Machine.execFailover c s
  | .geometry c p => Sys2Proof.Machine.execGeometry c p s
  | .portcfg c p => Sys2Proof.Machine.execPortcfg c p s
  | .porten c mask enable => Sys2Proof.Machine.execPorten c mask enable s
  | .portstat c mask => Sys2Proof.Machine.execPortstat c mask s
  | .override c es => Sys2Proof.Machine.execOverride c es s
  | .groupsave c b => Sys2Proof.Machine.execGroupsave c b s
  | .grouprestore c quire b => Sys2Proof.Machine.execGrouprestore c quire b s
  | .planset c p => Sys2Proof.Machine.execPlanset c p s
  | .planget c => Sys2Proof.Machine.execPlanget c s
  | .reading c windows => Sys2Proof.Machine.execReading c windows s
  | .feeds c => Sys2Proof.Machine.execFeeds c s
  | .subscribe c classes dest => Sys2Proof.Machine.execSubscribe c classes dest s
  | .unsubscribe c id => Sys2Proof.Machine.execUnsubscribe c id s
  | .logread c first limit => Sys2Proof.Machine.execLogread c first limit s
  | .exportcfg c share => Sys2Proof.Machine.execExportcfg c share s
  | .counters c set => Sys2Proof.Machine.execCounters c set s
  | .fwstage c len image b => Sys2Proof.Machine.execFwstage c len image b s
  | .fwverify c => Sys2Proof.Machine.execFwverify c s
  | .fwactivate c now => Sys2Proof.Machine.execFwactivate c now s
  | .fwinfo c => Sys2Proof.Machine.execFwinfo c s
  | .messagePartTimeout session seq => Sys2Proof.Machine.execMessagePartTimeout session seq s
  | .sessionIdleTimeout session => Sys2Proof.Machine.execSessionIdleTimeout session s
  | .sessionRekeyTimeout session => Sys2Proof.Machine.execSessionRekeyTimeout session s
  | .epochGraceExpiry session => Sys2Proof.Machine.execEpochGraceExpiry session s
  | .bulkData p => Sys2Proof.Machine.execBulkData p s
  | .bulkAcknowledgement p => Sys2Proof.Machine.execBulkAcknowledgement p s
  | .bulkDone xid session status detail => Sys2Proof.Machine.execBulkDone xid session status detail s
  | .bulkAbort xid session status detail => Sys2Proof.Machine.execBulkAbort xid session status detail s
  | .bulkAckTimer xid => Sys2Proof.Machine.execBulkAckTimer xid s
  | .bulkResendTimeout xid => Sys2Proof.Machine.execBulkResendTimeout xid s
  | .bulkPeerTimeout xid => Sys2Proof.Machine.execBulkPeerTimeout xid s
  | .ethPortEnable e => Sys2Proof.Machine.execEthPortEnable e s
  | .ethPortDisable e => Sys2Proof.Machine.execEthPortDisable e s
  | .ethPortDrained e => Sys2Proof.Machine.execEthPortDrained e s
  | .ethLinkDrop e => Sys2Proof.Machine.execEthLinkDrop e s
  | .icmpEcho e p => Sys2Proof.Machine.execIcmpEcho e p s
  | .arpRequest e p => Sys2Proof.Machine.execArpRequest e p s
  | .neighbourDiscovery e p => Sys2Proof.Machine.execNeighbourDiscovery e p s
  | .priorityFlowControl e prio pause => Sys2Proof.Machine.execPriorityFlowControl e prio pause s
  | .qread a f => Sys2Proof.Machine.execQread a f s
  | .qrekey a f => Sys2Proof.Machine.execQrekey a f s
  | .discardRetry q => Sys2Proof.Machine.execDiscardRetry q s
  | .grantRefill => Sys2Proof.Machine.execGrantRefill s
  | .energyPlan m => Sys2Proof.Machine.execEnergyPlan m s
  | .feedFail f => Sys2Proof.Machine.execFeedFail f s
  | .feedGood f => Sys2Proof.Machine.execFeedGood f s
  | .feedTransferDone tags => Sys2Proof.Machine.execFeedTransferDone tags s
  | .mainGoodTimer => Sys2Proof.Machine.execMainGoodTimer s
  | .holdupExhausted => Sys2Proof.Machine.execHoldupExhausted s
  | .pmbusPoll f r => Sys2Proof.Machine.execPmbusPoll f r s
  | .ringCalibration island period => Sys2Proof.Machine.execRingCalibration island period s
  | .powerUp mainGood backupGood tags => Sys2Proof.Machine.execPowerUp mainGood backupGood tags s
  | .moduleReset => Sys2Proof.Machine.execModuleReset s
  | .stageRom ok0 ok1 eth => Sys2Proof.Machine.execStageRom ok0 ok1 eth s
  | .stageFirmware p => Sys2Proof.Machine.execStageFirmware p s
  | .stageKeys ok0 ok1 => Sys2Proof.Machine.execStageKeys ok0 ok1 s
  | .stageRecord r => Sys2Proof.Machine.execStageRecord r s
  | .stageMemory okTb failed => Sys2Proof.Machine.execStageMemory okTb failed s
  | .stageLinks => Sys2Proof.Machine.execStageLinks s
  | .stageLinksTimeout => Sys2Proof.Machine.execStageLinksTimeout s
  | .stageTiles meshOk failed steps => Sys2Proof.Machine.execStageTiles meshOk failed steps s
  | .marginLengthen t => Sys2Proof.Machine.execMarginLengthen t s
  | .delayLimit t => Sys2Proof.Machine.execDelayLimit t s
  | .riskDecay => Sys2Proof.Machine.execRiskDecay s
  | .qmark a f => Sys2Proof.Machine.execQmark a f s
  | .qnorep a f => Sys2Proof.Machine.execQnorep a f s
  | .qckpt a f => Sys2Proof.Machine.execQckpt a f s
  | .hungTileDetect t => Sys2Proof.Machine.execHungTileDetect t s
  | .checkpointBoundExpiry => Sys2Proof.Machine.execCheckpointBoundExpiry s
  | .abort group seq status rank => Sys2Proof.Machine.execAbort group seq status rank s
  | .goingDown d inc => Sys2Proof.Machine.execGoingDown d inc s
  | .deviceLost d inc => Sys2Proof.Machine.execDeviceLost d inc s
  | .probe d inc => Sys2Proof.Machine.execProbe d inc s
  | .probeReply d inc => Sys2Proof.Machine.execProbeReply d inc s
  | .feedTags d main backup => Sys2Proof.Machine.execFeedTags d main backup s
  | .portLossTimer d inc => Sys2Proof.Machine.execPortLossTimer d inc s
  | .probeTimeout d inc => Sys2Proof.Machine.execProbeTimeout d inc s
  | .hold g => Sys2Proof.Machine.execHold g s
  | .held g => Sys2Proof.Machine.execHeld g s
  | .rejoin g => Sys2Proof.Machine.execRejoin g s
  | .release g => Sys2Proof.Machine.execRelease g s
  | .mismatch g => Sys2Proof.Machine.execMismatch g s
  | .begin m seals => Sys2Proof.Machine.execBegin m seals s
  | .committed m => Sys2Proof.Machine.execCommitted m s
  | .checkpointAbandon m => Sys2Proof.Machine.execCheckpointAbandon m s
  | .restoreRequest m => Sys2Proof.Machine.execRestoreRequest m s
  | .restoreDone m => Sys2Proof.Machine.execRestoreDone m s
  | .discard m => Sys2Proof.Machine.execDiscard m s
  | .discarded m => Sys2Proof.Machine.execDiscarded m s
  | .spineHeartbeatTimeout => Sys2Proof.Machine.execSpineHeartbeatTimeout s
  | .spineFaultReport => Sys2Proof.Machine.execSpineFaultReport s
  | .spineWatchdogExpiry => Sys2Proof.Machine.execSpineWatchdogExpiry s
  | .logRecordWrite => Sys2Proof.Machine.execLogRecordWrite s
  | .qdrainTileTimeout q => Sys2Proof.Machine.execQdrainTileTimeout q s
  | .qdrainBoundExpiry q => Sys2Proof.Machine.execQdrainBoundExpiry q s
  | .tileDrainRemoteTimeout t => Sys2Proof.Machine.execTileDrainRemoteTimeout t s
  | .thermtrip tj tstack => Sys2Proof.Machine.execThermtrip tj tstack s
  | .smbusStatusRead addr r => Sys2Proof.Machine.execSmbusStatusRead addr r s
  | .smbusOtherCommand addr cmd => Sys2Proof.Machine.execSmbusOtherCommand addr cmd s
  | .registerWrite addr v => Sys2Proof.Machine.execRegisterWrite addr v s
  | .feedNotGood f => Sys2Proof.Machine.execFeedNotGood f s
  | .spliceConnectorMated p => Sys2Proof.Machine.execSpliceConnectorMated p s
  | .ethPortTrained e ok => Sys2Proof.Machine.execEthPortTrained e ok s
  | .commandPacketDiscard e why => Sys2Proof.Machine.execCommandPacketDiscard e why s
  | .unknownOpcode c op => Sys2Proof.Machine.execUnknownOpcode c op s
  | .mrstNRelease => Sys2Proof.Machine.execMrstNRelease s

end Sys2Proof.Machine
end

