-- ==== Sys2Proof/Machine/Step.lean ====
section
/-! DEFINITION. One step of the block: the command at the front of the queue, or, on an empty queue, the Spine's work in progress. -/

namespace Sys2Proof.Machine

/-- The oldest waiting command runs with the rest of the queue. On an empty queue no command comes, and the Spine carries on what it has
begun, with the bound of 16 R390 past (DESIGN CHOICE, log 1). -/
def step (s : State) : Host.Outcome State Fault Refusal :=
  match s.pending with
  | [] => .next (s.spineWork true)
  | c :: rest => exec c { s with pending := rest }

/-- A state with the command that a word spells at the front of its queue. -/
def State.withFetchWord (s : State) (nbits w : Nat) : State :=
  match decodeTableWord nbits w with
  | some c => { s with pending := c :: s.pending }
  | none => s

end Sys2Proof.Machine
end

