-- ==== Sys2Proof/Safety.lean ====
section
/-! DEFINITION. The terms that the statements use: the canonical form of memory and what a step leaves of the queue; when an instruction
issues and how it completes; when the gateway lets a command run; and, for commands of one shape, the table of what each does. -/

namespace Sys2Proof.Machine

/-- Memory is in its canonical form: addresses strictly rising, and no entry equal to what an unlisted address reads as. -/
def Memory.wf (m : Sparse Byte) : Bool := Sparse.wf 0 m

/-- `t` has the queue of `s`, and its memory is canonical if that of `s` is. -/
structure State.Kept (s t : State) : Prop where
  pending : t.pending = s.pending
  wf : Memory.wf s.mem.bytes = true → Memory.wf t.mem.bytes = true

/-- The `len` bytes at `pc`, within one line, are in the line buffer and at an address that may be fetched (02 R46, R55). -/
def State.hasCode (s : State) (a : At) (first : Bool) (pc : Word) (len : Nat) : Bool :=
  (decide (pc.toNat < 2 ^ 48) || inBackstop (s.tile a.t) pc.toNat len) && (s.strand a).holdsLine first (lineOf pc)

/-- The instruction of `len` bytes at the strand's pc issues: the strand may issue (02 R32, 03 R79), the instruction is fetched
(02 R46, 03 R70), it may stand where it stands (02 R41, R45: `plain` as in `Strand.misplaced`), and no scoreboard bit of a register that it
names is set (02 R34). -/
def State.ready (s : State) (a : At) (len : Nat) (plain : Bool) (uses : List (BitVec 5)) : Bool :=
  let r := s.strand a
  r.mayIssue && s.hasCode a true r.pc (lenHere r.pc len) &&
    (lenHere r.pc len == len || s.hasCode a false (r.pc + word (lenHere r.pc len)) (len - lenHere r.pc len)) &&
    !r.misplaced plain && !uses.any r.busy

/-- An instruction that has set the pc itself has had its effect: it took a beat of its tile, and is counted (01 R15;
13 Table 13-7). -/
def State.issued (s : State) (a : At) : State := (s.beat a.t).countTile a.t 0 1

/-- An instruction of `len` bytes has had its effect, completes, took a beat of its tile, and is counted (02 R38, R43; 01 R15; 13 Table 13-7). -/
def State.completed (s : State) (a : At) (len : Nat) : State := ((s.beat a.t).countTile a.t 0 1).updStrand a fun r => r.advance len

/-- Write a general register of a strand. -/
def State.putG (s : State) (a : At) (i : BitVec 5) (v : Word) : State := s.updStrand a fun r => r.setG i v

/-- General register `i` of a strand. -/
def State.getG (s : State) (a : At) (i : BitVec 5) : Word := (s.strand a).g i

/-- The session as a request finds it: with its port and source, and the request's number accepted (12 R306, R311). -/
def Session.takes (x : Session) (c : Hdr) : Session := (x.heard c).accept c.seq

/-- The state in which an accepted command runs. -/
def State.opened (s : State) (c : Hdr) (x : Session) : State := s.setSession c.session (some (x.takes c))

/-- A packet that is a whole message of the session, well formed and encrypted under its keys (12 R307, R308, R310, R321). -/
def wholePacket (c : Hdr) (x : Session) : Bool :=
  packetOk c && !c.clear && c.part == 0 && !c.more && (c.epoch == x.epoch || (x.graced && c.epoch + 1 == x.epoch)) && c.tagOk

/-- The gateway lets a request of the session run (12 R306, R307, R311, R312, R314–R317; 15 Table 15-1): the port is up, a Spine serves, keys
exist, the packet is a whole message under the session's keys, its sequence number is fresh, the version is 1, fewer than 16 requests are
outstanding, and nothing in the roles, the bring-up state, the request's TLVs or the state of the quire refuses it. -/
def State.admits (s : State) (c : Hdr) (x : Session) (op : Nat) : Bool :=
  (s.eth c.port.val).isUp && s.spineUp && decide (3 ≤ s.boot.stage) && s.session c.session == some x && wholePacket c x &&
    decide (c.seq < 0xFFFFFF00) && !s.acceptedSeq x c && decide (x.high < c.seq + 64) && c.version == 1 &&
    decide (s.outstanding c.session < 16) && ((s.opened c x).gate x.role c op).isNone

/-- The final reply of a command that ran. -/
def State.answer (s : State) (c : Hdr) (op status : Nat) (tlvs : List Tlv) : State :=
  s.reply c.session c.seq op 0 status tlvs c.port.val c.source

/-- The first reply of a command that has still to complete, and the request that waits (12 R313). -/
def State.defer (s : State) (c : Hdr) (op status : Nat) (tlvs : List Tlv) (w : Wait) : State :=
  ({ s with net := { s.net with requests := s.net.requests ++ [{ session := c.session, seq := c.seq, opcode := op, port := c.port.val, source := c.source, wait := w }] } } :
    State).reply c.session c.seq op 0 status tlvs c.port.val c.source

/-- The two replies of a command that is pending and completes at once (12 R313). -/
def State.twice (s : State) (c : Hdr) (op first : Nat) (ftlvs : List Tlv) (status : Nat) (tlvs : List Tlv) : State :=
  let q : Request := { session := c.session, seq := c.seq, opcode := op, port := c.port.val, source := c.source, wait := .restore }
  (({ s with net := { s.net with requests := s.net.requests ++ [q] } } : State).reply c.session c.seq op 0 first ftlvs c.port.val c.source).finish q status tlvs

/-- 02 Table 02-5: rd := op rs1 rs2. -/
def intRegisterOps : List ((At → RF → Instr) × (Word → Word → Word)) :=
  [(.add, fun x y => x + y), (.sub, fun x y => x - y), (.and, fun x y => x &&& y), (.or, fun x y => x ||| y), (.xor, fun x y => x ^^^ y),
   (.sll, fun x y => x <<< (y.toNat % 64)), (.srl, fun x y => x >>> (y.toNat % 64)), (.sra, fun x y => x.sshiftRight (y.toNat % 64)),
   (.slt, fun x y => if x.slt y then 1 else 0), (.sltu, fun x y => if x.ult y then 1 else 0),
   (.min, fun x y => if x.slt y then x else y), (.max, fun x y => if x.slt y then y else x),
   (.minu, fun x y => if x.ult y then x else y), (.maxu, fun x y => if x.ult y then y else x),
   (.mul, fun x y => x * y), (.mulh, mulHigh), (.mulhu, mulHighU), (.div, divS), (.divu, divU), (.rem, remS), (.remu, remU)]

/-- 02 Table 02-5: rd := op rs1, with rs2 zero. -/
def intUnaryOps : List ((At → RF → Instr) × (Word → Word)) :=
  [(.clz, leadingZeros), (.ctz, trailingZeros), (.popc, onesCount)]

/-- 02 Table 02-4: rd := op rs1 (the immediate sign-extended). -/
def intImmediateOps : List ((At → IF → Instr) × (Word → Word → Word)) :=
  [(.addi, fun x y => x + y), (.andi, fun x y => x &&& y), (.ori, fun x y => x ||| y), (.xori, fun x y => x ^^^ y),
   (.slti, fun x y => if x.slt y then 1 else 0), (.sltiu, fun x y => if x.ult y then 1 else 0)]

/-- 02 Table 02-4: the conditional branches. -/
def branchOps : List ((At → BF → Instr) × (Word → Word → Bool)) :=
  [(.beq, fun x y => x == y), (.bne, fun x y => x != y), (.blt, fun x y => x.slt y), (.bge, fun x y => !x.slt y),
   (.bltu, fun x y => x.ult y), (.bgeu, fun x y => !x.ult y)]

/-- Control goes to the delay slot of the branch at the pc, and from there to `next` (02 R38). -/
def State.toSlotOf (s : State) (a : At) (next : Word) (link : Option (BitVec 5 × Word)) : State :=
  (s.updStrand a fun r => { r with slot := some { branch := r.pc, next := next, link := link }, pc := r.pc + 4 }).issued a

/-- 02 Table 02-4: the scalar loads, with their bytes and whether they extend the sign. -/
def scalarLoads : List ((At → IF → Instr) × Nat × Bool) :=
  [(.lb, 1, true), (.lbu, 1, false), (.lh, 2, true), (.lhu, 2, false), (.lw, 4, true), (.lwu, 4, false), (.ld, 8, true)]

/-- 02 Table 02-4: the scalar stores, with their bytes. -/
def scalarStores : List ((At → SF → Instr) × Nat) := [(.sb, 1), (.sh, 2), (.sw, 4), (.sd, 8)]

/-- 02 Table 02-6 and 03 Table 03-12: rd := what the instruction reads, with its source fields zero. -/
def readOps : List ((At → RF → Instr) × (State → At → Word)) :=
  [(.rdcal, fun s a => (s.island (islandOf a.t)).ringCal), (.rdself, fun _ a => word (a.t.val + 256 * a.h.val)),
   (.rdstat, fun s a => (s.strand a).status.word), (.rdcause, fun s a => (s.strand a).cause), (.rdfault, fun s a => (s.strand a).faultaddr),
   (.rdxsp, fun s a => (s.strand a).xsp), (.rdevt, fun s a => (s.strand a).evtPend.setWidth 64)]

/-- A visible warrant register that is valid on the tile, with its warrant (03 R63, R75). -/
def State.holdsWarrant (s : State) (a : At) (i : BitVec 5) (w : Warrant) : Bool :=
  wregOk i && (s.tile a.t).seen (s.strand a) i.toNat == some w && (s.tile a.t).warrantOk w

/-- A warrant register that an instruction may write: visible, and not while bs = 1 (03 R75, R86). -/
def State.mayWriteW (s : State) (a : At) (i : BitVec 5) : Bool :=
  wregOk i && ((s.tile a.t).seen (s.strand a) i.toNat).isSome && !(s.strand a).status.bs

/-- The vector instructions that go to a pipe, each with its kind (04 Table 04-5), in four parts. -/
def vectorOps1 : List ((At → VF → Instr) × VKind) :=
  [(.vadd, .add), (.vsub, .sub), (.vrsub, .rsub), (.vmul, .mul), (.vmin, .min), (.vmax, .max), (.vminu, .minu),
   (.vmaxu, .maxu), (.vand, .and), (.vor, .or), (.vxor, .xor), (.vsll, .sll), (.vsrl, .srl), (.vsra, .sra),
   (.vmulh, .mulh), (.vmulhu, .mulhu), (.vfma, .fma), (.vfms, .fms), (.vfnma, .fnma), (.vdiv, .div), (.vsqrt, .sqrt),
   (.vabs, .abs)]

def vectorOps2 : List ((At → VF → Instr) × VKind) :=
  [(.vneg, .neg), (.vcmpeq, .cmpeq), (.vcmpne, .cmpne), (.vcmplt, .cmplt), (.vcmple, .cmple), (.vcmpltu, .cmpltu), (.vcmpleu, .cmpleu),
   (.vcmpun, .cmpun), (.vcvt, .cvt), (.vmerge, .merge), (.vmv, .mv), (.vwadd, .wadd), (.vwaddu, .waddu), (.vwmul, .wmul),
   (.vwmulu, .wmulu), (.vwfma, .wfma), (.vdot2, .dot2), (.vdot4, .dot4), (.vdot8, .dot8), (.vsadd, .sadd), (.vsaddu, .saddu),
   (.vssub, .ssub)]

def vectorOps3 : List ((At → VF → Instr) × VKind) :=
  [(.vssubu, .ssubu), (.vsmul, .smul), (.vssra, .ssra), (.vssrl, .ssrl), (.vnclip, .nclip), (.vnclipu, .nclipu), (.vaadd, .aadd),
   (.vmxq, .mxq), (.vmxdq, .mxdq), (.vld, .ld), (.vlds, .lds), (.vldx, .ldx), (.vst, .st), (.vsts, .sts),
   (.vstx, .stx), (.vldm, .ldm), (.vstm, .stm), (.vamox, .amox), (.mand, .mand), (.mor, .mor), (.mxor, .mxor),
   (.mandn, .mandn)]

def vectorOps4 : List ((At → VF → Instr) × VKind) :=
  [(.mnot, .mnot), (.mpopc, .mpopc), (.mfirst, .mfirst), (.vcompress, .compress), (.vexpand, .expand), (.vslideup, .slideup), (.vslidedown, .slidedown),
   (.vperm, .perm), (.vmvxs, .mvxs), (.vmvsx, .mvsx), (.vredsum, .redsum), (.vredmin, .redmin), (.vredmax, .redmax), (.vredminu, .redminu),
   (.vredmaxu, .redmaxu), (.vredand, .redand), (.vredor, .redor), (.vredxor, .redxor), (.vwredsum, .wredsum), (.vscansum, .scansum), (.vscanmin, .scanmin),
   (.vscanmax, .scanmax)]

/-- All of them. -/
def vectorOps : List ((At → VF → Instr) × VKind) := vectorOps1 ++ vectorOps2 ++ vectorOps3 ++ vectorOps4

/-- The queued tile operations on arrays (06 Table 06-3), and those on memory and accumulators (07 Table 07-6). -/
def matrixOps : List ((At → MF → Instr) × MKind) :=
  [(.twld, .twld), (.tmma, .tmma), (.tmmr, .tmmr), (.tham, .tham), (.tl1, .tl1), (.tminp, .tminp), (.tmaxp, .tmaxp)]
def tileMemOps : List ((At → QF → Instr) × QKind) :=
  [(.tld, .tld), (.tst, .tst), (.tacld, .tacld), (.tacst, .tacst), (.taczero, .taczero)]

/-- A tile instruction is not stopped by a recorded fault, and may run (07 R178, R189). -/
def State.tileFree (s : State) (a : At) : Bool := !(s.strand a).tfault.getLsbD 24 && !(s.strand a).status.bs

/-- The maintenance instructions of one address, of a range, of a set and way, and of all lines, with what they do (08 Table 08-2). -/
def upkeepOnes : List ((At → RF → Instr) × Upkeep) := [(.dcl, .clean), (.dci, .cleanInv), (.dinv, .inv)]
def upkeepRanges : List ((At → RF → Instr) × Upkeep) := [(.dclr, .clean), (.dcir, .cleanInv), (.dinvr, .inv)]
def upkeepSetWays : List ((At → RF → Instr) × Upkeep) := [(.dclsw, .clean), (.dcisw, .cleanInv), (.dinvsw, .inv)]
def upkeepAlls : List ((At → RF → Instr) × Upkeep) := [(.dclAll, .clean), (.dciAll, .cleanInv), (.dinvAll, .inv)]

/-- Of the machine only the strand `a`, its tile's count of beats and the counts of quires differ between `s` and `t`. -/
structure State.onlyStrand (s t : State) (a : At) : Prop where
  rest : t = { s with tiles := t.tiles, counts := t.counts }
  tiles : ∀ u : TileId, u ≠ a.t → t.tile u = s.tile u
  tile : t.tile a.t = { s.tile a.t with strands := (t.tile a.t).strands, beats := (t.tile a.t).beats }
  strands : ∀ b : At, b ≠ a → t.strand b = s.strand b

/-- What an instruction changes that has no effect but to write the registers `rds` and to move control: of its strand these registers, the
link register of the branch in whose slot it stands, the pc, the slot and the hardware loop; of all else nothing but the counts. -/
structure State.framed (s t : State) (a : At) (rds : List (BitVec 5)) : Prop where
  only : s.onlyStrand t a
  strand : t.strand a =
    { s.strand a with
      regs := (t.strand a).regs, pc := (t.strand a).pc, slot := (t.strand a).slot
      lstart := (t.strand a).lstart, lend := (t.strand a).lend, lcount := (t.strand a).lcount
      status := { (s.strand a).status with loop := (t.strand a).status.loop } }
  regs : ∀ j : BitVec 5, j ∉ rds → ((s.strand a).slot.bind (·.link)).map (·.1) ≠ some j → t.getG a j = s.getG a j

end Sys2Proof.Machine
end

