-- ==== Sys2Proof/Certificates/Slice0/Obligations.lean ====
section
/-! DEFINITION. The statements about the model, for the provers. -/

open Sys2Proof Sys2Proof.Machine

/-! ### The queue, the step and reset -/

/-- A step takes the command at the front of the queue and is that command on the state with the queue's rest.
On an empty queue a step answers a next state: that of the Spine's work in progress. This is the model's choice (log 1). -/
def Obligations.StepRunsTheFrontCommand : Prop :=
  (∀ (s : State) (c : Instr) (rest : List Instr), step { s with pending := c :: rest } = exec c { s with pending := rest }) ∧
  (∀ s : State, s.pending = [] → step s = .next (s.spineWork true))

/-- Every step keeps the canonical form of memory (log 3: what an unlisted byte reads as is the model's choice). -/
def Obligations.StepKeepsMemoryCanonical : Prop :=
  ∀ s t : State, Memory.wf s.mem.bytes = true → step s = .next t → Memory.wf t.mem.bytes = true

/-- No command ends the machine: every step of every state answers a next state.
Every step removes exactly the front command from the queue, and no command adds one. -/
def Obligations.StepTakesOneCommand : Prop :=
  (∀ s : State, ∃ t, step s = .next t) ∧
  (∀ s t : State, step s = .next t → t.pending = s.pending.tail)

/-- After reset: the queue is empty, memory lists nothing in canonical form, every strand is halted with hush set, an event compare of all
ones and no gate level, and every array is held. -/
def Obligations.ResetState : Prop :=
  State.reset.pending = [] ∧ Memory.wf State.reset.mem.bytes = true ∧ State.reset.mem.bytes = [] ∧
  (∀ a : At, (State.reset.strand a).run = .halted ∧ (State.reset.strand a).status.hush = true ∧ (State.reset.strand a).status.precise = false ∧
    (State.reset.strand a).status.loop = 0 ∧ (State.reset.strand a).status.gdepth = 0 ∧ (State.reset.strand a).status.bs = false ∧
    (State.reset.strand a).status.aten = 0 ∧ (State.reset.strand a).cmp = BitVec.allOnes 64 ∧ (State.reset.strand a).evtPend = 0 ∧
    (State.reset.strand a).evtEn = 0) ∧
  (∀ t : TileId, (State.reset.tile t).hold = true ∧ (State.reset.tile t).smooth = false ∧ (State.reset.tile t).tsCtl = 0x4003)

/-! ### Scalar instructions (02) -/

/-- The register forms of Table 02-5: rd takes the result, and the instruction completes. A write of g0 is discarded.
clz, ctz and popc with a zero rs2 field write their count; with another rs2 field they are illegal instructions. -/
def Obligations.IntegerRegisterResult : Prop :=
  (∀ e ∈ intRegisterOps, ∀ (a : At) (f : RF) (s : State), s.ready a 4 true [f.rd, f.rs1, f.rs2] = true →
    exec (e.1 a f) s = .next ((s.putG a f.rd (e.2 (s.getG a f.rs1) (s.getG a f.rs2))).completed a 4)) ∧
  (∀ e ∈ intUnaryOps, ∀ (a : At) (f : RF) (s : State), s.ready a 4 true [f.rd, f.rs1] = true →
    (f.rs2 = 0 → exec (e.1 a f) s = .next ((s.putG a f.rd (e.2 (s.getG a f.rs1))).completed a 4)) ∧
    (f.rs2 ≠ 0 → exec (e.1 a f) s = .next (s.raise a cIllegal 0 0 (s.strand a).pc)))

/-- The immediate forms of Table 02-4, with shi and lui. -/
def Obligations.IntegerImmediateResult : Prop :=
  (∀ e ∈ intImmediateOps, ∀ (a : At) (f : IF) (s : State), s.ready a 4 true [f.rd, f.rs1] = true →
    exec (e.1 a f) s = .next ((s.putG a f.rd (e.2 (s.getG a f.rs1) (f.imm.signExtend 64))).completed a 4)) ∧
  (∀ (a : At) (f : IF) (s : State), s.ready a 4 true [f.rd, f.rs1] = true →
    (f.imm.toNat < 64 → exec (.shi a f) s = .next ((s.putG a f.rd (s.getG a f.rs1 <<< f.imm.toNat)).completed a 4)) ∧
    (64 ≤ f.imm.toNat ∧ f.imm.toNat < 128 →
      exec (.shi a f) s = .next ((s.putG a f.rd (s.getG a f.rs1 >>> (f.imm.toNat - 64))).completed a 4)) ∧
    (128 ≤ f.imm.toNat ∧ f.imm.toNat < 192 →
      exec (.shi a f) s = .next ((s.putG a f.rd ((s.getG a f.rs1).sshiftRight (f.imm.toNat - 128))).completed a 4)) ∧
    (192 ≤ f.imm.toNat → exec (.shi a f) s = .next (s.raise a cIllegal 0 0 (s.strand a).pc))) ∧
  (∀ (a : At) (rd : BitVec 5) (imm : BitVec 21) (s : State), s.ready a 4 true [rd] = true →
    exec (.lui a rd imm) s = .next ((s.putG a rd (imm.signExtend 64 <<< 16)).completed a 4))

/-- What the high products, the quotients and the remainders are as integers: the signed quotient rounds toward zero.
Division by zero gives all ones, its remainder is the dividend; the most negative number by −1 is itself, with remainder zero. In
every case the instruction completes: no division faults (02 R35). -/
def Obligations.IntegerArithmeticMeaning : Prop :=
  (∀ x y : Word,
    mulHigh x y = BitVec.ofInt 64 (x.toInt * y.toInt / 2 ^ 64) ∧ mulHighU x y = BitVec.ofNat 64 (x.toNat * y.toNat / 2 ^ 64) ∧
    (y ≠ 0 → divS x y = BitVec.ofInt 64 (x.toInt.tdiv y.toInt) ∧ remS x y = BitVec.ofInt 64 (x.toInt.tmod y.toInt) ∧
      divS x y * y + remS x y = x ∧ (remS x y).toInt.natAbs < y.toInt.natAbs ∧ (0 ≤ x.toInt → 0 ≤ (remS x y).toInt) ∧
      (x.toInt ≤ 0 → (remS x y).toInt ≤ 0) ∧ (divU x y).toNat = x.toNat / y.toNat ∧ (remU x y).toNat = x.toNat % y.toNat)) ∧
  ((∀ x : Word, divS x 0 = BitVec.allOnes 64 ∧ divU x 0 = BitVec.allOnes 64 ∧ remS x 0 = x ∧ remU x 0 = x) ∧
  divS (BitVec.intMin 64) (BitVec.allOnes 64) = BitVec.intMin 64 ∧ remS (BitVec.intMin 64) (BitVec.allOnes 64) = 0 ∧
  (∀ (a : At) (f : RF) (s : State), s.ready a 4 true [f.rd, f.rs1, f.rs2] = true → (let x := s.getG a f.rs1; let y := s.getG a f.rs2
    exec (.div a f) s = .next ((s.putG a f.rd (divS x y)).completed a 4) ∧ exec (.divu a f) s = .next ((s.putG a f.rd (divU x y)).completed a 4) ∧
    exec (.rem a f) s = .next ((s.putG a f.rd (remS x y)).completed a 4) ∧ exec (.remu a f) s = .next ((s.putG a f.rd (remU x y)).completed a 4))))

/-- g0 reads zero and discards what is written to it; every other general register reads what was last written to it. -/
def Obligations.GeneralRegisterFile : Prop :=
  ∀ (s : State) (a b : At) (i j : BitVec 5) (v : Word),
    s.getG a 0 = 0 ∧ (s.putG a i v).getG b j = if b = a ∧ j = i ∧ i ≠ 0 then v else s.getG b j

/-- The frame of the scalar instructions when they issue: no other strand, no byte of memory or of a tile store, no special register and no status field but the
loop level changes; of the general registers only rd, and the link register of the branch in whose slot the instruction stands. -/
def Obligations.ScalarFrame : Prop :=
  ∀ (a : At) (s t : State),
    (∀ e ∈ intRegisterOps, ∀ f : RF, s.ready a 4 true [f.rd, f.rs1, f.rs2] = true → exec (e.1 a f) s = .next t → s.framed t a [f.rd]) ∧
    (∀ e ∈ intUnaryOps, ∀ f : RF, s.ready a 4 true [f.rd, f.rs1] = true → f.rs2 = 0 → exec (e.1 a f) s = .next t → s.framed t a [f.rd]) ∧
    (∀ e ∈ intImmediateOps, ∀ f : IF, s.ready a 4 true [f.rd, f.rs1] = true → exec (e.1 a f) s = .next t → s.framed t a [f.rd]) ∧
    (∀ f : IF, s.ready a 4 true [f.rd, f.rs1] = true → f.imm.toNat < 192 → exec (.shi a f) s = .next t → s.framed t a [f.rd]) ∧
    (∀ (rd : BitVec 5) (imm : BitVec 21), s.ready a 4 true [rd] = true → exec (.lui a rd imm) s = .next t → s.framed t a [rd]) ∧
    (∀ e ∈ readOps, ∀ f : RF, s.ready a 4 true [f.rd] = true → f.rs1 = 0 → f.rs2 = 0 → exec (e.1 a f) s = .next t → s.framed t a [f.rd]) ∧
    (∀ e ∈ branchOps, ∀ f : BF, s.ready a 4 false [f.rs1, f.rs2] = true → exec (e.1 a f) s = .next t → s.framed t a []) ∧
    (∀ off : BitVec 26, s.ready a 4 false [] = true → exec (.j a off) s = .next t → s.framed t a [])

/-- An instruction in a delay slot ends where the branch goes, after the link write; one at lend counts down; any other goes on. -/
def Obligations.CompletionMovesControl : Prop :=
  ∀ (r : Strand) (n : Nat),
    (∀ b : Slot, r.slot = some b → b.link = none → r.advance n = { r with slot := none, pc := b.next }) ∧
    (∀ (b : Slot) (g : BitVec 5) (v : Word), r.slot = some b → b.link = some (g, v) →
      r.advance n = { r.setG g v with slot := none, pc := b.next }) ∧
    (r.slot = none → r.atLend = false → r.advance n = { r with pc := r.pc + word n }) ∧
    (r.slot = none → r.atLend = true → r.lcount.setWidth 32 - 1 ≠ (0 : BitVec 32) →
      (r.advance n).pc = (r.lstart.setWidth 48).setWidth 64 ∧ (r.advance n).lcount.setWidth 32 = r.lcount.setWidth 32 - (1 : BitVec 32) ∧
      (r.advance n).status = r.status) ∧
    (r.slot = none → r.atLend = true → r.lcount.setWidth 32 = (1 : BitVec 32) → r.status.loop = 1 →
      (r.advance n).pc = r.pc + 4 ∧ (r.advance n).status = { r.status with loop := 0 })

/-- A conditional branch goes to its delay slot, and from there to its target if the condition holds, else to the word after the slot.
The jumps and their links; a jump through a register whose unused fields are not zero is an illegal instruction. -/
def Obligations.BranchAndJumpResult : Prop :=
  (∀ e ∈ branchOps, ∀ (a : At) (f : BF) (s : State), s.ready a 4 false [f.rs1, f.rs2] = true →
    exec (e.1 a f) s = .next (s.toSlotOf a (if e.2 (s.getG a f.rs1) (s.getG a f.rs2) then (s.strand a).pc + f.off.signExtend 64 * 4
      else (s.strand a).pc + 8) none)) ∧
  ((∀ (a : At) (off : BitVec 26) (s : State), s.ready a 4 false [] = true →
    exec (.j a off) s = .next (s.toSlotOf a ((s.strand a).pc + off.signExtend 64 * 4) none)) ∧
  (∀ (a : At) (off : BitVec 26) (s : State), s.ready a 4 false [1] = true →
    exec (.jal a off) s = .next (s.toSlotOf a ((s.strand a).pc + off.signExtend 64 * 4) (some (1, (s.strand a).pc + 8)))) ∧
  (∀ (a : At) (f : RF) (fn : BitVec 11) (s : State), s.ready a 4 false [f.rs1] = true →
    (f.rd = 0 ∧ f.rs2 = 0 ∧ fn = 0 → exec (.jr a f fn) s = .next (s.toSlotOf a (s.getG a f.rs1) none)) ∧
    (¬ (f.rd = 0 ∧ f.rs2 = 0 ∧ fn = 0) → exec (.jr a f fn) s = .next (s.raise a cIllegal 0 0 (s.strand a).pc))) ∧
  (∀ (a : At) (f : RF) (fn : BitVec 11) (s : State), s.ready a 4 false [f.rd, f.rs1] = true →
    (f.rs2 = 0 ∧ fn = 0 → exec (.jalr a f fn) s = .next (s.toSlotOf a (s.getG a f.rs1) (some (f.rd, (s.strand a).pc + 8)))) ∧
    (¬ (f.rs2 = 0 ∧ fn = 0) → exec (.jalr a f fn) s = .next (s.raise a cIllegal 0 0 (s.strand a).pc))))

/-- loop with a count of zero skips its body; else outside a loop it starts the first level. -/
def Obligations.LoopResult : Prop :=
  ∀ (a : At) (rs1 : BitVec 5) (n : BitVec 16) (s : State), s.ready a 4 false [rs1] = true → n ≠ 0 →
    ((s.getG a rs1).setWidth 32 = (0 : BitVec 32) → exec (.loop a 0 rs1 n) s =
      .next ((s.updStrand a fun r => { r with pc := r.pc + word (4 * n.toNat + 4) }).issued a)) ∧
    ((s.getG a rs1).setWidth 32 ≠ (0 : BitVec 32) → (s.strand a).status.loop = 0 → exec (.loop a 0 rs1 n) s =
      .next ((s.updStrand a fun r => { r with
        lstart := r.pc + 4, lend := r.pc + word (4 * n.toNat), lcount := ((s.getG a rs1).setWidth 32 : BitVec 32).setWidth 64,
        status := { r.status with loop := 1 }, pc := r.pc + 4 }).issued a))

/-- A strand that is not running, is held, or has something to take at its boundary first issues nothing (named for the integer and branch
instructions).
An instruction whose line is not in the line buffer is fetched first: from the instruction cache in the same step, else with a request for
its line, and it issues after that (named for add; every instruction is fetched alike). -/
def Obligations.FetchBeforeIssue : Prop :=
  (∀ (a : At) (s : State), (s.strand a).mayIssue = false →
    (∀ e ∈ intRegisterOps, ∀ f, exec (e.1 a f) s = .next s) ∧ (∀ e ∈ branchOps, ∀ f, exec (e.1 a f) s = .next s)) ∧
  (∀ (a : At) (f : RF) (s : State) (l : Xlate), (s.strand a).mayIssue = true → (s.strand a).pc.toNat < 2 ^ 48 →
    (s.strand a).lineBuf ≠ some (lineOf (s.strand a).pc) → (s.strand a).lineNext ≠ some (lineOf (s.strand a).pc) →
    (s.strand a).fetchFail = none → (s.strand a).fetchWait = none →
    s.check a.t (s.auth a) .fetch (s.strand a).pc.toNat (lenHere (s.strand a).pc 4) false = .ok l →
    (l.backstop = true ∨ (s.tile a.t).icache.contains (l.addr / 128) = true →
      exec (.add a f) s = exec (.add a f) (s.updStrand a fun r => { r with lineBuf := some (lineOf r.pc), lineNext := none })) ∧
    (l.backstop = false → (s.tile a.t).icache.contains (l.addr / 128) = false →
      exec (.add a f) s = .next ((s.ask a.t a.h .fetch (s.strand a).pc (l.addr / 128 * 128) false (.read (l.addr / 128 * 128) 128)).2.updStrand a
        fun r => { r with fetchWait := some s.nextTag })))

/-- A scalar load whose halves pass their checks is issued with the parts of its access, and a store enters the store buffer while there is
room. An uncached load without a credit of its stack port is not ready. -/
def Obligations.ScalarAccessIssues : Prop :=
  (∀ e ∈ scalarLoads, ∀ (a : At) (f : IF) (s : State) (ps : List (Word × Nat × Xlate)), s.ready a 4 true [f.rd, f.rs1] = true →
    s.checkHalves a .load (s.getG a f.rs1 + f.imm.signExtend 64) e.2.1 = .ok ps →
    (s.hasCredit a.t false (partsOf ps) = true →
      exec (e.1 a f) s = .next ((s.startLoad a (.reg e.2.2) f.rd e.2.1 false (partsOf ps)).completed a 4)) ∧
    (s.hasCredit a.t false (partsOf ps) = false → exec (e.1 a f) s = .next s)) ∧
  (∀ e ∈ scalarStores, ∀ (a : At) (f : SF) (s : State) (ps : List (Word × Nat × Xlate)), s.ready a 4 true [f.rs1, f.rs2] = true →
    s.checkHalves a .store (s.getG a f.rs1 + f.imm.signExtend 64) e.2 = .ok ps → s.sbRoom a ps.length = true →
    exec (e.1 a f) s = .next ((s.updStrand a fun r => { r with
      sb := r.sb ++ entriesOf r.seq ps (leBytes e.2 (s.getG a f.rs2).toNat), seq := r.seq + 1 }).completed a 4)) ∧
  (∀ e ∈ scalarLoads, ∀ (a : At) (f : IF) (s : State) (c k w : Nat) (v : Word), s.ready a 4 true [f.rd, f.rs1] = true →
    s.checkHalves a .load (s.getG a f.rs1 + f.imm.signExtend 64) e.2.1 = .fail c k w v → exec (e.1 a f) s = .next (s.raise a c k w v))

/-- A load that meets nothing older and finds its bytes in the tile store, in words without an error, writes its register, extended as its mnemonic says, in the step
that issues it. -/
def Obligations.LoadFromTileStore : Prop :=
  ∀ e ∈ scalarLoads, ∀ (a : At) (f : IF) (s : State) (l : Xlate), s.ready a 4 true [f.rd, f.rs1] = true →
    (let va := s.getG a f.rs1 + f.imm.signExtend 64
     s.checkHalves a .load va e.2.1 = .ok [(va, e.2.1, l)]) →
    l.target = .memory → l.policy = .writeBack → l.backstop = false →
    (∀ b : At, (s.strand b).sb = []) → (∀ b : At, (s.strand b).loads = []) → (s.tile a.t).present l.addr e.2.1 = true →
    (s.tile a.t).hurt l.addr (wordsMet (l.addr % 256) e.2.1) = false →
    ∃ t : State, exec (e.1 a f) s = .next (t.completed a 4) ∧
      (∀ j, t.getG a j = if j = f.rd ∧ f.rd ≠ 0 then
        (let n := leNat ((s.tile a.t).readLine l.addr e.2.1); if e.2.2 then sext (8 * e.2.1) n else word n) else s.getG a j) ∧
      (∀ b : At, b ≠ a → t.strand b = s.strand b) ∧ (∀ u n, t.bytes u n = s.bytes u n) ∧ (t.strand a).loads = [] ∧
      (t.strand a).busy f.rd = false

/-! ### Special registers, strands and exceptions (02, 03) -/

/-- The instructions that read a special register: with their source fields zero they write it to rd; with another field they are illegal
instructions. -/
def Obligations.SpecialRegisterReads : Prop :=
  (∀ e ∈ readOps, ∀ (a : At) (f : RF) (s : State), s.ready a 4 true [f.rd] = true →
    (f.rs1 = 0 ∧ f.rs2 = 0 → exec (e.1 a f) s = .next ((s.putG a f.rd (e.2 s a)).completed a 4)) ∧
    (¬ (f.rs1 = 0 ∧ f.rs2 = 0) → exec (e.1 a f) s = .next (s.raise a cIllegal 0 0 (s.strand a).pc))) ∧
  (∀ (a : At) (f : RF) (s : State), s.ready a 4 true [f.rd] = true → f.rs1 = 0 ∧ f.rs2 = 0 →
    exec (.rdbeat a f) s = .next (((s.readBeats a.t).2.putG a f.rd (s.readBeats a.t).1).completed a 4) ∧
    exec (.rdint a f) s = .next (((s.readTicks a.t).2.putG a f.rd (s.readTicks a.t).1).completed a 4)) ∧
  (∀ (s : State) (t : TileId), let i := islandOf t
    ((s.tile t).beats < 2 ^ 64 - 1 → (s.tile t).beats < ((s.readBeats t).2.tile t).beats) ∧
    (s.readBeats t).1 = word ((s.readBeats t).2.tile t).beats ∧ ((s.readBeats t).2.tile t).beats < 2 ^ 64 ∧
    ((s.island i).ticks < 2 ^ 64 → (s.island i).ticks ≤ ((s.readTicks t).2.island i).ticks) ∧
    (s.readTicks t).1 = word ((s.readTicks t).2.island i).ticks ∧ ((s.readTicks t).2.island i).ticks < 2 ^ 64) ∧
  (∀ st : Status, st.word.getLsbD 0 = st.hush ∧ st.word.getLsbD 1 = st.precise ∧ st.word.extractLsb' 2 2 = st.loop ∧
    st.word.extractLsb' 4 5 = st.gdepth ∧ st.word.getLsbD 9 = st.bs ∧ st.word.getLsbD 10 = false ∧ st.word.extractLsb' 11 5 = st.aten ∧
    st.word.extractLsb' 16 48 = (0 : BitVec 48))

/-- The instructions that write the status, event and compare registers; wrstat that sets precise waits for the strand's vector
instructions, and hush is kept while bs = 1. -/
def Obligations.SpecialRegisterWrites : Prop :=
  ∀ (a : At) (f : RF) (s : State),
    (s.ready a 4 true [f.rs1] = true → f.rd = 0 → f.rs2 = 0 →
      (let v := s.getG a f.rs1; let st := (s.strand a).status; let busy := ((s.tile a.t).aq ++ (s.tile a.t).mq).any (·.h == a.h)
       (¬ (v.getLsbD 1 = true ∧ busy = true) → exec (.wrstat a f) s = .next ((s.updStrand a fun r => { r with status :=
          { st with hush := if st.bs then st.hush else v.getLsbD 0, precise := v.getLsbD 1, aten := v.extractLsb' 11 5 } }).completed a 4)) ∧
       (v.getLsbD 1 = true → busy = true → exec (.wrstat a f) s = .next s) ∧
       exec (.evclr a f) s = .next ((s.updStrand a fun r => { r with
          evtPend := r.evtPend &&& ~~~ v.setWidth 32, line4 := if v.getLsbD 4 then none else r.line4 }).completed a 4) ∧
       exec (.wreven a f) s = .next ((s.updStrand a fun r => { r with evtEn := v.setWidth 32 }).completed a 4) ∧
       exec (.wrcmp a f) s = .next ((s.updStrand a fun r => { r with cmp := v }).completed a 4))) ∧
    (s.ready a 4 true [f.rd] = true → f.rs1 = 0 → f.rs2 = 0 →
      exec (.hushset a f) s = .next ((s.updStrand a fun r => ({ r with status := { r.status with hush := true } } : Strand).setG f.rd
        (flag r.status.hush)).completed a 4)) ∧
    (s.ready a 4 true [] = true → f.rd = 0 → f.rs1 = 0 → f.rs2 = 0 →
      exec (.hushclr a f) s = .next ((s.updStrand a fun r => { r with status :=
        { r.status with hush := r.status.bs && r.status.hush } }).completed a 4))

/-- fsync empties the line buffer, icinv.all the instruction cache, icinv takes the line of a translated address out of it, where the
translation serves also if no access could use it, and never faults, and park parks the strand unless an enabled line is pending.
An event line that becomes pending, or becomes enabled, wakes a parked strand (03 R80), and changes nothing else of it. -/
def Obligations.FetchControlAndPark : Prop :=
  (∀ (a : At) (f : RF) (s : State),
    (s.ready a 4 false [] = true → f.rd = 0 → f.rs1 = 0 → f.rs2 = 0 →
      exec (.fsync a f) s = .next ((s.updStrand a fun r => { r with lineBuf := none, lineNext := none }).completed a 4) ∧
      ((s.strand a).event = 0 → exec (.park a f) s = .next ((s.updStrand a fun r => { r with run := .parked }).completed a 4)) ∧
      ((s.strand a).event ≠ 0 → exec (.park a f) s = .next ((s.updStrand a fun r => r).completed a 4))) ∧
    (s.ready a 4 true [] = true → f.rd = 0 → f.rs1 = 0 → f.rs2 = 0 →
      exec (.icinvAll a f) s = .next ((s.updTile a.t fun x => { x with icache := [] }).completed a 4)) ∧
    (s.ready a 4 true [f.rs1] = true → f.rd = 0 → f.rs2 = 0 →
      (let va := (s.getG a f.rs1).toNat
       let look := lookTlb (s.tile a.t) (.strand a.h) (va / 2 ^ 16)
       (inControl va = true ∨ 2 ^ 56 ≤ va ∨ inBackstop (s.tile a.t) va 1 = true → exec (.icinv a f) s = .next (s.completed a 4)) ∧
       (inControl va = false → va < 2 ^ 56 → inBackstop (s.tile a.t) va 1 = false →
         (∀ e : TlbEntry, look = .hit e → bitsOf (e.phys + (va - e.page * 2 ^ 16)) 44 20 = s.device.toNat →
           exec (.icinv a f) s = .next ((s.updTile a.t fun x => { x with
             icache := x.icache.filter (· ≠ bitsOf (e.phys + (va - e.page * 2 ^ 16)) 0 44 / 128) }).completed a 4)) ∧
         (∀ e : TlbEntry, look = .hit e → bitsOf (e.phys + (va - e.page * 2 ^ 16)) 44 20 ≠ s.device.toNat →
           exec (.icinv a f) s = .next ((s.updTile a.t fun x => x).completed a 4)) ∧
         (∀ c k : Nat, look = .fail c k none → exec (.icinv a f) s = .next ((s.updTile a.t fun x => x.forget (.strand a.h)).completed a 4)) ∧
         (∀ (c k : Nat) (e : TlbEntry), look = .fail c k (some e) → bitsOf (e.phys + (va - e.page * 2 ^ 16)) 44 20 = s.device.toNat →
           exec (.icinv a f) s = .next ((s.updTile a.t fun x => ({ x with
             icache := x.icache.filter (· ≠ bitsOf (e.phys + (va - e.page * 2 ^ 16)) 0 44 / 128) } : Tile).forget (.strand a.h)).completed a 4)) ∧
         (look = .miss → exec (.icinv a f) s = .next (s.startWalk a.t { page := va / 2 ^ 16, who := .strand a.h })))))) ∧
  (∀ (r : Strand) (lines : BitVec 32),
    (r.pend lines).evtPend = r.evtPend ||| lines ∧ (r.pend lines).evtEn = r.evtEn ∧ (r.pend lines).pc = r.pc ∧
    (r.pend lines).status = r.status ∧ (r.pend lines).regs = r.regs ∧
    (r.pend lines).run = (if r.run = .parked ∧ (r.evtPend ||| lines) &&& r.evtEn ≠ 0 then .running else r.run) ∧
    (∀ (a : At) (s : State), (s.strand a).run = .parked → (s.strand a).event ≠ 0 →
      ((s.updStrand a Strand.wake).strand a).run = .running))

/-- The strand controls: a request to halt, its being taken, the release, the write of a halted strand's pc, the upper half of WX, and the
match of the interval compare. -/
def Obligations.StrandControlCommands : Prop :=
  ∀ (a : At) (v : Word) (s : State), let r := s.strand a
    (r.run = .running ∨ r.run = .parked → exec (.strandHalt a) s = .next (s.updStrand a fun r => { r with haltReq := true })) ∧
    (r.haltReq = true → r.hold = none → r.atBoundary = true →
      exec (.strandHaltTake a) s = .next ((s.updStrand a fun r => { r with run := .halted, haltReq := false }).settleHalts)) ∧
    ((s.tile a.t).use = .normal → r.run = .halted → exec (.strandRelease a) s = .next (s.updStrand a fun r => { r with
      run := .running, haltReq := false, lineBuf := none, lineNext := none, fetchFail := none })) ∧
    (r.run = .halted → exec (.strandPcWrite a v) s = .next (s.updStrand a fun r => { r with pc := (v.setWidth 48).setWidth 64 })) ∧
    (r.run ≠ .halted → exec (.strandPcWrite a v) s = .next (s.updStrand a fun r => r)) ∧
    exec (.wxHiWrite a v) s = .next (s.updStrand a fun r => { r with wx := v ++ r.wxLo }) ∧
    exec (.intervalCompareMatch a) s = .next ((s.setIsland (islandOf a.t) { s.island (islandOf a.t) with
      ticks := max (s.island (islandOf a.t)).ticks r.cmp.toNat }).updStrand a fun r => r.pend 1)

/-- A write of a register of control space acts on the register that its address names, and a read of a readable register then gives what was
written: shown of XSP, XVEC, the interval compare and the event enables of every strand; a write where no table places a register does
nothing. -/
def Obligations.ControlRegisterWrites : Prop :=
  ∀ (t : TileId) (h : StrandId) (v : Word) (s : State), let a : At := ⟨t, h⟩
    let reg (off : Nat) : BitVec 44 := BitVec.ofNat 44 (0xF0000000000 + t.val * 2 ^ 24 + 0x1000 + h.val * 0x100 + off)
    exec (.registerWrite (reg 0x40) v) s = .next (s.updStrand a fun r => { r with xsp := v }) ∧
    exec (.registerWrite (reg 0x48) v) s = .next (s.updStrand a fun r => { r with xvec := v >>> 10 <<< 10 }) ∧
    exec (.registerWrite (reg 0x78) v) s = .next (s.updStrand a fun r => { r with cmp := v }) ∧
    exec (.registerWrite (reg 0x70) v) s = .next (s.updStrand a fun r => ({ r with evtEn := v.setWidth 32 } : Strand).wake) ∧
    s.ctlRead (reg 0x40).toNat = (s.strand a).xsp ∧ s.ctlRead (reg 0x78).toNat = (s.strand a).cmp ∧
    exec (.registerWrite (reg 0xB0) v) s = .next (s.updTile t fun x => x)

/-- At a boundary an enabled event is taken where neither hush nor bs is set: the lowest-numbered line, with cause 0x20 plus its number and
the asynchronous mark. -/
def Obligations.EventEntryTaken : Prop :=
  ∀ (a : At) (s : State) (i : Nat), let r := s.strand a
    r.run = .running → r.hold = none → r.atBoundary = true → r.haltReq = false → r.recur = none → r.late = [] → r.status.hush = false → r.status.bs = false →
    r.readback = false → (∀ g ∈ frameRegs, r.busy g = false) → i < 32 → r.event.getLsbD i = true → (∀ j < i, r.event.getLsbD j = false) →
    exec (.exceptionEntry a) s = .next (s.enter a { Cause.sync (0x20 + i) 0 0 with async := true } (if i = 4 then r.line4.getD 0 else 0) r.pc)

/-- A successful exception entry (03 R83, Table 03-13), after the walks that it needs: hush is set, loop cleared, the cause and fault address
recorded, XSP lowered by a frame of 128 bytes, WX in w15, nothing else visible, and control at XVEC + 16 × code. An entry whose strand still
awaits a register of the frame changes nothing. -/
def Obligations.ExceptionEntrySaves : Prop :=
  ∀ (a : At) (c : Cause) (addr pc : Word) (s : State), let r := s.strand a; let w := s.walkEntry a c.code
    r.status.bs = false →
    (r.entryClear = false → s.enter a c addr pc = s) ∧
    (r.entryClear = true → w.entryFailure a c.code = none →
      (((w.countTile a.t 7 1).enterTile a).putFrame a (w.entryAuth a) r.frameAt (frameBytes r pc c.word addr) [0, 64]).isSome = true →
      (let q := (s.enter a c addr pc).strand a
       q.pc = r.xvec + word (16 * c.code) ∧ q.cause = c.word ∧ q.faultaddr = addr ∧ q.xsp = r.xsp - 128 ∧
       q.status.hush = true ∧ q.status.loop = 0 ∧ q.status.gdepth = r.status.gdepth + 1 ∧ q.status.bs = false ∧
       q.status.precise = r.status.precise ∧ q.status.aten = r.status.aten ∧ q.vresume = 0 ∧ q.slot = none ∧ q.run = .running ∧
       Sparse.get 0 q.wregs 15 = r.wx ∧ q.vis = 0 ∧
       q.frames.head? = some { savedw15 := Sparse.get 0 r.wregs 15, retpc := 0, savedvis := r.vis, exc := true } ∧
       q.regs = r.regs ∧ q.lstart = r.lstart ∧ q.lend = r.lend ∧ q.lcount = r.lcount ∧ q.evtEn = r.evtEn)) ∧
    (r.entryClear = true → w.entryFailure a c.code = none →
      ((w.countTile a.t 7 1).enterTile a).putFrame a (w.entryAuth a) r.frameAt (frameBytes r pc c.word addr) [0, 64] = none →
      s.enter a c addr pc = w)

/-- An entry that would fail escalates to the backstop handler, and an exception while bs = 1 stops the strand (03 R86, R87). An imprecise
trap or a delayed load fault that escalated is taken again once the backstop handler has returned. -/
def Obligations.EscalationAndStop : Prop :=
  ∀ (a : At) (c : Cause) (addr pc : Word) (s : State), let r := s.strand a; let u := s.enter a c addr pc; let q := u.strand a
    (r.status.bs = true → q = { r with run := .stopped, slot := none, hold := none }) ∧
    (∀ code check va, r.status.bs = false → r.entryClear = true → (s.walkEntry a c.code).entryFailure a c.code = some (code, check, va) →
      q.bsCause = BitVec.ofNat 11 (code + 256 * check) ∧ q.bsAddr = causeAddr code (word va) ∧ q.bsCount = r.bsCount + 1 ∧
      q.status.bs = true ∧ q.status.hush = true ∧ q.status.loop = 0 ∧ q.status.gdepth = r.status.gdepth ∧ q.pc = (s.tile a.t).bsBase ∧
      q.slot = none ∧ q.run = .running ∧ q.cause = r.cause ∧ q.faultaddr = r.faultaddr ∧ q.xsp = r.xsp ∧ q.regs = r.regs ∧
      q.wregs = r.wregs ∧ q.recur = (if c.imp then some (c, addr) else r.recur) ∧
      (u.tile a.t).backstopRead (backstopFrame a.h) 128 = frameBytes r pc c.word addr) ∧
    (∀ (k : Cause) (v : Word), r.recur = some (k, v) → r.run = .running → r.hold = none → r.atBoundary = true → r.haltReq = false →
      r.status.bs = false → r.entryClear = true →
      exec (.exceptionEntry a) s = .next ((s.updStrand a fun r => { r with recur := none }).enter a k v r.pc))

/-- xret reads its frame and holds the strand meanwhile; with bs = 1 it returns from the backstop handler at once; a frame that is not of an
exception is a gate fault. It waits for the registers that it writes (02 R34). -/
def Obligations.ExceptionReturnIssues : Prop :=
  ∀ (a : At) (f : RF) (s : State), s.ready a 4 false frameRegs = true → f.rd = 0 → f.rs1 = 0 → f.rs2 = 0 → (let r := s.strand a
    (r.status.bs = true → r.sb = [] → exec (.xret a f) s = .next ((s.leaveBackstop a).issued a)) ∧
    (∀ (fr : EntryFrame) (ps : List (Word × Nat × Xlate)), r.status.bs = false → r.readback = false → r.frames.head? = some fr →
      fr.exc = true → r.status.gdepth ≠ 0 → s.checkFrame a (framePieces r.xsp) [] = .ok ps → exec (.xret a f) s =
        .next (((s.updStrand a fun r => { r with hold := some .load }).startLoad a .frame 0 128 false (bigParts ps)).issued a)) ∧
    (∀ fr : EntryFrame, r.status.bs = false → r.readback = false → r.frames.head? = some fr → fr.exc = false →
      exec (.xret a f) s = .next (s.raise a cGate 0 0 0)))

/-- What an exception frame holds, the return restores: from the 128 bytes that an entry wrote, the pc, the loop registers, vresume and the
status fields come back, with g1 and g3 to g9, whatever the strand held in them before the return.
A spilled entry frame comes back as it was (03 R77): its 64-byte slot spells it. -/
def Obligations.FrameRoundTrip : Prop :=
  (∀ (r q : Strand) (pc cause addr : Word), let p := q.restore (frameBytes r pc cause addr)
    p.pc = pc ∧ p.lstart = r.lstart ∧ p.lend = r.lend ∧ p.lcount = r.lcount ∧ p.vresume = r.vresume ∧
    p.status = { r.status with gdepth := q.status.gdepth, bs := q.status.bs } ∧ (∀ g ∈ frameRegs, p.g g = r.g g) ∧
    (∀ g, g ∉ frameRegs → p.g g = q.g g) ∧ p.slot = none ∧ p.wregs = q.wregs ∧ p.frames = q.frames) ∧
  ((∀ f : EntryFrame, f.bytes.length = 64 ∧ EntryFrame.ofBytes f.bytes = f) ∧
  (∀ (a : At) (s : State), (s.strand a).readback = true → exec (.frameReadback a) s = .next (s.updStrand a fun r => { r with
    readback := false,
    frames := r.frames ++ [EntryFrame.ofBytes (s.bytes (spillAddr r (r.status.gdepth.toNat - r.frames.length)) 64)] })))

/-! ### Warrants, gates and translation (03) -/

/-- Copying and clearing a warrant register, and reading one: wmov needs a valid source with the derive bit; wget 2 says whether the warrant
is valid.
The narrowing instructions put the narrowed warrant into the register that they read it from, or fault with the check that failed. -/
def Obligations.WarrantMovesAndNarrowings : Prop :=
  (∀ (a : At) (f : RF) (s : State),
    (∀ w : Warrant, s.ready a 4 true [] = true → f.rs2 = 0 → s.holdsWarrant a f.rs1 w = true → s.mayWriteW a f.rd = true →
      (w.derive = true → exec (.wmov a f) s = .next ((s.setW a f.rd w).completed a 4)) ∧
      (w.derive = false → exec (.wmov a f) s = .next (s.raise a cWarrant 3 f.rs1.toNat 0))) ∧
    (s.ready a 4 true [] = true → f.rs1 = 0 → f.rs2 = 0 → s.mayWriteW a f.rd = true →
      exec (.wclr a f) s = .next ((s.setW a f.rd 0).completed a 4)) ∧
    (∀ w : Warrant, s.ready a 4 true [f.rd] = true → wregOk f.rs1 = true → (s.tile a.t).seen (s.strand a) f.rs1.toNat = some w →
      (f.rs2 = 0 → exec (.wget a f) s = .next ((s.putG a f.rd (w.setWidth 64)).completed a 4)) ∧
      (f.rs2 = 1 → exec (.wget a f) s = .next ((s.putG a f.rd ((w >>> 64).setWidth 64)).completed a 4)) ∧
      (f.rs2 = 2 → exec (.wget a f) s = .next ((s.putG a f.rd (flag ((s.tile a.t).warrantOk w))).completed a 4)) ∧
      (2 < f.rs2.toNat → exec (.wget a f) s = .next (s.raise a cIllegal 0 0 (s.strand a).pc)))) ∧
  (∀ (a : At) (f : RF) (s : State) (w v : Warrant), s.holdsWarrant a f.rd w = true → s.mayWriteW a f.rd = true →
    (let x := s.getG a f.rs1; let y := s.getG a f.rs2
     (s.ready a 4 true [f.rs1] = true → f.rs2 = 0 →
       exec (.wright a f) s = .next ((s.setW a f.rd (w &&& (x.setWidth 128 ||| ~~~ (0xFF000000 : BitVec 128)))).completed a 4) ∧
       (x.toNat % 2 ^ 16 ≤ w.epoch → (s.tile a.t).floor.toNat ≤ x.toNat % 2 ^ 16 →
         exec (.wlow a f) s = .next ((s.setW a f.rd (w.with 8 16 (x.toNat % 2 ^ 16))).completed a 4)) ∧
       (w.epoch < x.toNat % 2 ^ 16 ∨ x.toNat % 2 ^ 16 < (s.tile a.t).floor.toNat →
         exec (.wlow a f) s = .next (s.raise a cWarrant 5 f.rd.toNat 0))) ∧
     (s.ready a 4 true [f.rs1, f.rs2] = true →
       (w.kind = 1 ∨ w.kind = 3 → w.bound x.toNat y.toNat = .ok v →
         exec (.wbound a f) s = .next ((s.setW a f.rd v).completed a 4)) ∧
       (w.kind = 1 ∨ w.kind = 3 → y = 0 ∨ x.toNat < w.base ∨ w.top < x.toNat + y.toNat →
         exec (.wbound a f) s = .next (s.raise a cWarrant 4 f.rd.toNat 0)) ∧
       (w.kind = 4 → w.firstGroup ≤ x.toNat → x.toNat + y.toNat ≤ w.firstGroup + w.groupCount →
         exec (.wgrp a f) s = .next ((s.setW a f.rd ((w.with 32 12 x.toNat).with 44 13 y.toNat)).completed a 4)) ∧
       (w.kind = 4 → w.firstDevice ≤ x.toNat → x.toNat + y.toNat ≤ w.firstDevice + w.deviceCount →
         exec (.wdev a f) s = .next ((s.setW a f.rd ((w.with 64 20 x.toNat).with 84 21 y.toNat)).completed a 4)))))

/-- Narrowing never widens: what wbound, wright and wlow answer covers no byte, holds no right and no epoch that the warrant before did not,
and is of the same kind and quire. -/
def Obligations.NarrowingNeverWidens : Prop :=
  ∀ (w v : Warrant), w.kind = 1 →
    (∀ b n : Nat, b < 2 ^ 64 → w.bound b n = .ok v →
      v.base = b ∧ v.top = b + n ∧ w.base ≤ v.base ∧ v.top ≤ w.top ∧ v.kind = w.kind ∧ v.quire = w.quire ∧ v.epoch = w.epoch ∧
      v.rights = w.rights ∧ (∀ a k, v.covers a k = true → w.covers a k = true)) ∧
    (∀ e < 2 ^ 16, (w.with 8 16 e).epoch = e ∧ (w.with 8 16 e).kind = w.kind ∧ (w.with 8 16 e).base = w.base ∧
      (w.with 8 16 e).top = w.top ∧ (w.with 8 16 e).rights = w.rights) ∧
    (∀ m : BitVec 128, ∀ i, (w &&& m).bit i = true → w.bit i = true)

/-- Warrants go to seal pages and back: wsv puts its 16 bytes into the store buffer as two entries, wld holds the strand until its register is
loaded; an address that is not a multiple of 16 is an alignment fault. -/
def Obligations.WarrantLoadsAndStores : Prop :=
  ∀ (a : At) (f : RF) (s : State), s.ready a 4 true [f.rs1] = true → f.rs2 = 0 → (let va := s.getG a f.rs1
    (∀ (w : Warrant) (l : Xlate), s.holdsWarrant a f.rd w = true → w.derive = true →
      (va.toNat % 16 ≠ 0 → exec (.wsv a f) s = .next (s.raise a cAlign 0 0 va)) ∧
      (va.toNat % 16 = 0 → s.check a.t (s.auth a) .sealStore va.toNat 16 true = .ok l → s.sbRoom a 2 = true →
        exec (.wsv a f) s = .next ((s.updStrand a fun r => { r with
          sb := r.sb ++ entriesOf r.seq [(va, 8, l), (va + 8, 8, { l with addr := l.addr + 8 })] (leBytes 16 w.toNat), seq := r.seq + 1 }).completed
          a 4))) ∧
    (∀ l : Xlate, s.mayWriteW a f.rd = true →
      (va.toNat % 16 ≠ 0 → exec (.wld a f) s = .next (s.raise a cAlign 0 0 va)) ∧
      (va.toNat % 16 = 0 → s.check a.t (s.auth a) .sealLoad va.toNat 16 true = .ok l →
        (s.hasCredit a.t false (bigParts [(va, 16, l)]) = true →
          exec (.wld a f) s = .next (((s.updStrand a fun r => { r with hold := some .load }).startLoad a (.warrant (f.rd.setWidth 4)) 0 16 true
            (bigParts [(va, 16, l)])).issued a)) ∧
        (s.hasCredit a.t false (bigParts [(va, 16, l)]) = false → exec (.wld a f) s = .next s))))

/-- A gate call pushes an entry frame, hides registers, puts the gate's memory warrant into w15 and goes to the gate's entry; the return of a
called frame undoes it. -/
def Obligations.GateCallAndReturn : Prop :=
  ∀ (a : At) (f : RF) (s : State), let r := s.strand a
    r.readback = false →
    (∀ w : Warrant, s.ready a 4 false [f.rs2] = true → f.rd = 0 → s.holdsWarrant a f.rs1 w = true → w.kind = 2 → w.bit 24 = true →
      w.bit 27 = true → r.status.bs = false → r.status.gdepth ≠ 31 → s.pushOk a = true → exec (.gcall a f) s =
        .next (((s.pushFrame a { savedw15 := Sparse.get 0 r.wregs 15, retpc := (r.pc + 4).setWidth 48, savedvis := r.vis, exc := false }).updStrand
          a fun q => { q with vis := q.vis &&& (q.g f.rs2).setWidth 15, wregs := Sparse.set 0 q.wregs 15 w.ofGate, pc := word w.entry,
                              lineBuf := none, lineNext := none }).issued a)) ∧
    (∀ w : Warrant, s.ready a 4 false [f.rs2] = true → f.rd = 0 → s.holdsWarrant a f.rs1 w = true → w.kind = 2 → w.bit 24 = true →
      w.bit 27 = true → r.status.bs = false → r.status.gdepth = 31 ∨ s.pushOk a = false →
      exec (.gcall a f) s = .next (s.raise a cGate 0 f.rs1.toNat 0)) ∧
    (∀ fr : EntryFrame, s.ready a 4 false [] = true → f.rd = 0 → f.rs1 = 0 → f.rs2 = 0 → r.frames.head? = some fr → fr.exc = false →
      r.status.gdepth ≠ 0 → exec (.gret a f) s =
        .next ((s.updStrand a fun r => { r.pop with pc := fr.retpc.setWidth 64, lineBuf := none, lineNext := none }).issued a)) ∧
    (s.ready a 4 false [] = true → f.rd = 0 → f.rs1 = 0 → f.rs2 = 0 → r.status.gdepth = 0 ∨ (r.frames.head?.map (·.exc)) = some true →
      exec (.gret a f) s = .next (s.raise a cGate 0 0 0)) ∧
    (∀ fr : EntryFrame, ({ r with frames := fr :: r.frames, status := { r.status with gdepth := r.status.gdepth + 1 } } : Strand).pop.vis = fr.savedvis ∧
      Sparse.get 0 ({ r with frames := fr :: r.frames, status := { r.status with gdepth := r.status.gdepth + 1 } } : Strand).pop.wregs 15 = fr.savedw15 ∧
      ({ r with frames := fr :: r.frames, status := { r.status with gdepth := r.status.gdepth + 1 } } : Strand).pop.status.gdepth = r.status.gdepth)

/-- qfloor holds the strand until the tiles of its quire have the new floor; a floor never falls; the translation buffer is emptied of one page
or of all. -/
def Obligations.FloorAndTranslation : Prop :=
  ∀ (a : At) (f : RF) (s : State),
    (∀ w : Warrant, s.ready a 4 true [f.rs1] = true → f.rs2 = 0 → s.holdsWarrant a f.rd w = true → w.kind = 6 → w.bit 24 = true →
      (let v := (s.getG a f.rs1).toNat % 2 ^ 16
       ((s.tile a.t).floor.toNat < v → v ≤ w.epoch →
         exec (.qfloor a f) s = .next ((s.updStrand a fun r => { r with hold := some (.quireFloor (BitVec.ofNat 16 v)) }).completed a 4)) ∧
       (v ≤ (s.tile a.t).floor.toNat ∨ w.epoch < v → exec (.qfloor a f) s = .next (s.raise a cWarrant 5 f.rd.toNat 0)))) ∧
    (∀ v : BitVec 16, (s.strand a).hold = some (.quireFloor v) → ∃ t : State, exec (.qfloorApplied a) s = .next t ∧ (t.strand a).hold = none ∧
      (∀ u : TileId, (s.tile u).floor.toNat ≤ (t.tile u).floor.toNat) ∧
      (∀ u ∈ s.tilesOf (s.tile a.t).quire.toNat, v.toNat ≤ (t.tile u).floor.toNat) ∧
      (∀ u, u ∉ s.tilesOf (s.tile a.t).quire.toNat → (t.tile u).floor = (s.tile u).floor)) ∧
    (s.ready a 4 true [f.rs1] = true → f.rd = 0 → f.rs2 = 0 → (let p := (s.getG a f.rs1).toNat / 2 ^ 16
      ∃ x : Tile, exec (.tlbinv a f) s = .next ((s.setTile a.t x).completed a 4) ∧ x.tlb = (s.tile a.t).tlb.filter (fun e => !e.has p) ∧
        ∀ w ∈ x.walks, w.page = p → w.failed = none ∧ w.level = 1 ∧ w.wait = none ∧ w.table = rootOf (s.tile a.t))) ∧
    (s.ready a 4 true [] = true → f.rd = 0 → f.rs1 = 0 → f.rs2 = 0 →
      ∃ x : Tile, exec (.tlbinvAll a f) s = .next ((s.setTile a.t x).completed a 4) ∧ x.tlb = [] ∧
        ∀ w ∈ x.walks, w.failed = none ∧ w.level = 1 ∧ w.wait = none ∧ w.table = rootOf (s.tile a.t))

/-- amo checks its encoding, its alignment and its access, and is then issued with the old value still to come; a float add in memory spoils
the quire's replay. Without a credit of its stack port it is not ready. -/
def Obligations.AtomicIssues : Prop :=
  ∀ (a : At) (f : RF) (fn : BitVec 11) (s : State), s.ready a 4 true [f.rd, f.rs1, f.rs2] = true →
    (let code := fn.toNat; let va := s.getG a f.rs1; let v := s.getG a f.rs2; let ok := code < 256 ∧ amoOk code = true ∧ (10 ≤ code / 16 → v.toNat % 8 ≤ 4)
     (¬ ok → exec (.amo a f fn) s = .next (s.raise a cIllegal 0 0 (s.strand a).pc)) ∧
     (ok → va.toNat % amoSize code ≠ 0 → exec (.amo a f fn) s = .next (s.raise a cAlign 0 0 va)) ∧
     (∀ l : Xlate, ok → va.toNat % amoSize code = 0 →
       s.check a.t (s.auth a) .atomic va.toNat (amoSize code) true = .ok l →
       (let p : LoadPart := ⟨va, l.addr, amoSize code, l.target, l.policy, l.backstop, .waiting⟩
        (s.hasCredit a.t true [p] = true → exec (.amo a f fn) s =
          .next (((if code ∈ [0x17, 0x18, 0x19] then s.spoilReplay a 1 else s).startLoad a (.amo code v (s.getG a f.rd)) f.rd
            (widthOf (code % 16) / 8) false [p]).completed a 4)) ∧
        (s.hasCredit a.t true [p] = false → exec (.amo a f fn) s = .next s))))

/-! ### Vector instructions (04, 05) -/

/-- A legal vector instruction whose pipe has room, whose registers no mark holds and whose charge is granted is captured in its pipe, which
keeps its order; an illegal one is an illegal instruction; one for which the pipe is full, a mark stands in the way, or a trap of its strand is
pending waits, and one without a grant asks for it. -/
def Obligations.VectorInstructionIssue : Prop :=
  ∀ e ∈ vectorOps, ∀ (a : At) (f : VF) (s : State), s.ready a 8 false (vecRegs e.2 f) = true →
    (let o := s.captureVec a e.2 f; let x := s.tile a.t; let pipe := if e.2.isMem then x.mq else x.aq; let trap := (s.strand a).trap
     (trap ≠ none → exec (e.1 a f) s = .next s) ∧
     (trap = none → o.legal = false → exec (e.1 a f) s = .next (s.raise a cIllegal 0 0 (s.strand a).pc)) ∧
     (trap = none → o.legal = true → 8 ≤ pipe.length ∨ o.unmarked x = false → exec (e.1 a f) s = .next s) ∧
     (trap = none → o.legal = true → pipe.length < 8 → o.unmarked x = true → x.grants a.h.val o.charge = false →
       exec (e.1 a f) s = .next (s.updTile a.t fun x => x.starve a.h.val)) ∧
     (trap = none → o.legal = true → pipe.length < 8 → o.unmarked x = true → x.grants a.h.val o.charge = true →
       ∃ t : State, exec (e.1 a f) s = .next (t.completed a 8) ∧ t = s.enqueueVec a o ∧
         (t.tile a.t).mq = (if e.2.isMem then x.mq ++ [o] else x.mq) ∧ (t.tile a.t).aq = (if e.2.isMem then x.aq else x.aq ++ [o]) ∧
         (t.strand a).vresume = 0 ∧ (t.strand a).hold = (if o.holds then some (.vector o.id) else none) ∧
         o.vlen = (s.strand a).vlen.toNat ∧ o.scalar = s.getG a f.gs ∧ o.pc = (s.strand a).pc))

/-- The vector state instructions: vsetvl sets the format, the group and the length and writes the length to rd (04 R94); vsetmode, vrdst and
vwrst read and write the rest, and what these do not take is an illegal instruction (R94, R95). As vector instructions they leave vresume at
zero (R93). -/
def Obligations.VectorStateInstructions : Prop :=
  ∀ (a : At) (f : VF) (s : State), f.src = 0 → f.fmtx = 0 → (s.strand a).trap = none →
    (s.ready a 8 false [f.vs1, f.vd] = true → (let fmt := bitsOf f.imm.toNat 2 4; let lg := bitsOf f.imm.toNat 0 2
      (fmt ≠ 0 ∧ fmt ≠ 15 → exec (.vsetvl a f) s = .next ((s.updStrand a fun r => { ({ r with
        vgrp := BitVec.ofNat 2 lg, vfmt := BitVec.ofNat 11 (setBits r.vfmt.toNat 0 4 fmt),
        vlen := BitVec.ofNat 16 (min (s.getG a f.vs1).toNat (vlmax fmt lg)) } : Strand).setG f.vd
          (word (min (s.getG a f.vs1).toNat (vlmax fmt lg))) with vresume := 0 }).completed a 8)) ∧
      (fmt = 0 ∨ fmt = 15 → exec (.vsetvl a f) s = .next (s.raise a cIllegal 0 0 (s.strand a).pc)))) ∧
    (s.ready a 8 false [f.gs] = true → (let v := s.getG a f.gs; let most := vlmax (bitsOf (s.strand a).vfmt.toNat 0 4) (s.strand a).vgrp.toNat
      (roundingOk (bitsOf v.toNat 4 3) = true → exec (.vsetmode a f) s = .next ((s.updStrand a fun r => { r with
        vfmt := BitVec.ofNat 11 (setBits r.vfmt.toNat 4 7 (bitsOf v.toNat 4 7)), vresume := 0 }).completed a 8)) ∧
      (roundingOk (bitsOf v.toNat 4 3) = false → exec (.vsetmode a f) s = .next (s.raise a cIllegal 0 0 (s.strand a).pc)) ∧
      (f.imm = 0 → v.toNat % 2 ^ 16 ≤ most →
        exec (.vwrst a f) s = .next ((s.updStrand a fun r => { r with vlen := v.setWidth 16, vresume := 0 }).completed a 8)) ∧
      (f.imm = 1 → bitsOf v.toNat 0 4 ≠ 15 → roundingOk (bitsOf v.toNat 4 3) = true →
        exec (.vwrst a f) s = .next ((s.updStrand a fun r => { r with vfmt := v.setWidth 11, vresume := 0 }).completed a 8)) ∧
      (f.imm = 2 → exec (.vwrst a f) s = .next ((s.updStrand a fun r => { r with vgrp := v.setWidth 2, vresume := 0 }).completed a 8)) ∧
      (f.imm = 3 ∨ 4 < f.imm.toNat ∨ f.imm = 0 ∧ most < v.toNat % 2 ^ 16 ∨
          f.imm = 1 ∧ (bitsOf v.toNat 0 4 = 15 ∨ roundingOk (bitsOf v.toNat 4 3) = false) →
        exec (.vwrst a f) s = .next (s.raise a cIllegal 0 0 (s.strand a).pc)) ∧
      (f.imm = 4 → exec (.vwrst a f) s = .next ((s.updStrand a fun r => { r with vflags := v.setWidth 7, vresume := 0 }).completed a 8)))) ∧
    (s.ready a 8 false [f.vd] = true →
      (let give (v : Word) : State := (s.updStrand a fun r => { r.setG f.vd v with vresume := 0 }).completed a 8; let r := s.strand a
       (f.imm = 0 → exec (.vrdst a f) s = .next (give (r.vlen.setWidth 64))) ∧ (f.imm = 1 → exec (.vrdst a f) s = .next (give (r.vfmt.setWidth 64))) ∧
       (f.imm = 2 → exec (.vrdst a f) s = .next (give (r.vgrp.setWidth 64))) ∧
       (f.imm = 3 → exec (.vrdst a f) s = .next (give (r.vresume.setWidth 64))) ∧
       (f.imm = 4 → exec (.vrdst a f) s = .next (give (r.vflags.setWidth 64))) ∧
       (4 < f.imm.toNat → exec (.vrdst a f) s = .next (s.raise a cIllegal 0 0 r.pc))))

/-- The pipes at work: a load element that the tile store holds is written in one step; an arithmetic instruction that is done in units, and a
memory instruction whose elements are all served, leave their pipes, add their flags and release the strand they hold. -/
def Obligations.VectorPipesComplete : Prop :=
  ∀ (t : TileId) (o : VOp) (rest : List VOp) (s : State), let x := s.tile t
    (∀ (u : Nat) (l : Xlate), x.mq = o :: rest → (x.strand o.h).sb = [] → o.nextUnit x = some u → o.bad = none → o.wait = none →
      o.kind.isLoad = true → o.kind ≠ .amox → (o.addrOf x u).toNat % o.size = 0 →
      s.check t o.auth .load (o.addrOf x u).toNat o.size false = .ok l → l.backstop = false → l.target = .memory → l.policy ≠ .uncached →
      x.amoWaiting none l.addr o.size = false → x.hurt l.addr (wordsMet (l.addr % 256) o.size) = false → x.present l.addr o.size = true →
      exec (.vectorElementReturn t) s =
        .next ((s.setTile t ((o.loadUnit x u (x.readLine l.addr o.size)).touch l.addr)).passUnit t o u 1)) ∧
    (∀ (y : Tile) (f : Flags), x.aq = o :: rest → o.kind.isWhole = false →
      o.run x ((List.range (o.vlen / o.kind.unitSize)).drop (ceilDiv o.resume o.kind.unitSize)) x 0 = (y, f, none) →
      ∃ u : State, exec (.vectorOpComplete t .arith) s = .next u ∧
        u = (((s.countTile t 1 (o.vlen - o.resume)).setTile t (y.dropVec o)).updStrand ⟨t, o.h⟩ fun r => r.vecDone o f none)) ∧
    (x.mq = o :: rest → o.nextUnit x = none → exec (.vectorOpComplete t .mem) s =
      .next ((s.setTile t (x.dropVec o)).updStrand ⟨t, o.h⟩ fun r => r.vecDone o 0 none)) ∧
    (∀ (r : Strand) (f : Flags), (r.vecDone o f none).vflags = r.vflags ||| BitVec.ofNat 7 f ∧
      (r.hold = some (.vector o.id) → (r.vecDone o f none).hold = none) ∧ (f &&& o.aten.toNat = 0 → (r.vecDone o f none).trap = r.trap))

/-! ### Tile instructions (06, 07) -/

/-- A tile operation that may run, is legal and well described, finds an entry and is granted its charge enters the tile queue behind what is
there, with what it captures; one whose issue conditions fail is a precise tile operation fault; one without an entry waits, and one without a
grant asks for it. -/
def Obligations.TileInstructionIssue : Prop :=
  ∀ (i : TInstr) (c : At → Instr) (a : At), ((∃ e ∈ matrixOps, ∃ f : MF, i = .mat e.2 f ∧ c = fun a => e.1 a f) ∨
      (∃ e ∈ tileMemOps, ∃ f : QF, i = .mem e.2 f ∧ c = fun a => e.1 a f)) →
    ∀ s : State, s.ready a 8 false i.regs = true → (s.strand a).tfault.getLsbD 24 = false → (let x := s.tile a.t
      ((s.strand a).status.bs = true ∨ i.legal s.grade768 = false → exec (c a) s = .next (s.raise a cIllegal 0 0 (s.strand a).pc)) ∧
      ((s.strand a).status.bs = false → i.legal s.grade768 = true →
       (let charge := i.charge (match x.wlast with | some w => w.sparse | none => 0) x.cfg
        (∀ n, i.reason x.cfg x.wlast = some n → (s.strand a).entryClear = true → exec (c a) s =
          .next ((s.updStrand a fun r => { r with tfault := word n, tfaultIa := r.pc.setWidth 48 }).raise a cTile 0 0 (s.strand a).pc)) ∧
        (∀ n, i.reason x.cfg x.wlast = some n → (s.strand a).entryClear = false → exec (c a) s = .next s) ∧
        (i.reason x.cfg x.wlast = none → x.queued < 8 → x.grants a.h.val charge = true →
          exec (c a) s = .next ((s.enqueueTile a i charge).completed a 8) ∧
          (∃ o : TOp, ((s.enqueueTile a i charge).tile a.t).tq = x.tq ++ [o] ∧ o.instr = i ∧ o.h = a.h ∧ o.id = x.opNext ∧ o.cfg = x.cfg ∧
            o.ia = (s.strand a).pc ∧ o.held = false ∧ o.begun = false ∧ o.granted = true)) ∧
        (i.reason x.cfg x.wlast = none → x.queued < 8 → x.grants a.h.val charge = false →
          exec (c a) s = .next (s.updTile a.t fun x => x.starve a.h.val)) ∧
        (i.reason x.cfg x.wlast = none → 8 ≤ x.queued → exec (c a) s = .next s))))

/-- The tile control instructions, where no recorded fault comes first: the configuration, the flags, the fault words, the wait, and the held
entries. -/
def Obligations.TileControlInstructions : Prop :=
  (∀ (a : At) (f : CF) (s : State), s.tileFree a = true → CF.ok f 0 = true →
    (s.ready a 8 false [f.gs] = true → (let v := s.getG a f.gs
      (badRounding v = false → (s.tile a.t).cfgFree (s.cfgValue v) = true →
        exec (.tcfg a f) s = .next ((s.updTile a.t fun x => x.writeCfg (s.cfgValue v)).completed a 8)) ∧
      (badRounding v = true → exec (.tcfg a f) s = .next (s.raise a cIllegal 0 0 (s.strand a).pc)) ∧
      exec (.tfclr a f) s = .next ((s.updTile a.t fun x => { x with flags := x.flags &&& ~~~ (v.setWidth 9 : BitVec 9) }).completed a 8) ∧
      exec (.trpclr a f) s = .next ((s.updTile a.t fun x => { x with tq := x.tq.filter fun o =>
        !(TOp.heldBy a.h o && (v.getLsbD 5 || o.tag == some (v.toNat % 32))) }).completed a 8) ∧
      (∀ ps : List (Word × Nat × Xlate), v.toNat % 64 = 0 → s.checkSectors a .load 1 v [] = .ok ps →
        exec (.trpld a f) s = .next ((s.startReplay a ps).issued a)) ∧
      (∀ ps : List (Word × Nat × Xlate), v.toNat % 64 = 0 → (s.strand a).sb = [] → (let es := (s.tile a.t).tq.filter (TOp.heldBy a.h)
        s.checkSectors a .store (es.length + 1) v [] = .ok ps → ps.all (fun p => (s.tile a.t).sectorRoom p.2.2) = true →
        ∃ t : State, exec (.trpsv a f) s = .next (t.completed a 8) ∧ ∀ o ∈ (t.tile a.t).tq, TOp.heldBy a.h o = false)))) ∧
    (s.ready a 8 false [f.rd] = true →
      exec (.tcfgrd a f) s = .next ((s.putG a f.rd (s.tile a.t).cfg).completed a 8) ∧
      exec (.tfrd a f) s = .next ((s.putG a f.rd ((s.tile a.t).flags.setWidth 64)).completed a 8) ∧
      exec (.tfltrd a f) s = .next ((s.putG a f.rd (s.strand a).tfault).completed a 8)) ∧
    (s.ready a 8 false [] = true →
      ((∀ o ∈ (s.tile a.t).tq, o.h = a.h → o.held = true) → exec (.twait a f) s = .next (s.completed a 8)) ∧
      ((∃ o ∈ (s.tile a.t).tq, o.h = a.h ∧ o.held = false) → exec (.twait a f) s = .next s))) ∧
  (∀ (a : At) (f : CF) (s : State), s.tileFree a = true → CF.ok f 1 = true → f.sel = 1 → s.ready a 8 false [f.rd] = true →
    exec (.tfltrd a f) s = .next ((s.putG a f.rd ((s.strand a).tfaultIa.setWidth 64)).completed a 8))

/-- Every queued tile instruction is spelt by 64 bits that give it back with every field at every value; and an entry that trpsv saves is
restored by trpld with what it captured. -/
def Obligations.TileInstructionRoundTrip : Prop :=
  (∀ i : TInstr, i.encode < 2 ^ 64 ∧ tinstrOf i.encode = some i) ∧
  (∀ (s : State) (a : At) (o : TOp), o.h = a.h → o.held = true → o.instr.isLoad = false → o.instr.legal s.grade768 = true → o.ia.toNat < 2 ^ 48 → (∀ d, o.tag = some d → d < 32) →
    o.gen < 2 ^ 64 → s.savedEntry a (o.saved (s.origin a.t)) = some { o with
      id := 0, auth := (s.tile a.t).auth a.h, reissued := false, granted := false, begun := false, row := 0, pos := 0, seq := 0,
      wait := none, bad := none, staged := [], out := [], flags := 0 })

/-- The tile queue at work: an entry begins, a piece of a load that the tile store holds is staged, a finished entry commits, and the arrays are
held, run, fed dummy rows and switched off. -/
def Obligations.TileQueueAtWork : Prop :=
  ∀ (t : TileId) (k : Nat) (o : TOp) (s : State), let x := s.tile t
    (x.tq[k]? = some o → o.held = false → o.begun = false → o.granted = true → x.mayBegin k o = true →
      exec (.tileOpBegin t k) s = .next ((s.countTile t 2 (x.rowsFed o)).setTile t (x.beginOp o))) ∧
    (∀ l : Xlate, x.tq[k]? = some o → o.held = false → o.begun = true → o.row < o.memRows → o.bad = none → o.wait = none →
      o.instr.stores = false → o.misaligned = false → s.check t o.access .load o.addr.toNat 1 false = .ok l → l.backstop = false → l.target = .memory →
      l.policy ≠ .uncached → (let n := s.pieceLen t o .load l
      x.amoWaiting none l.addr n = false → x.hurt l.addr (wordsMet (l.addr % 256) n) = false → x.present l.addr n = true →
      exec (.tileRowReturn t k) s =
        .next (s.setTile t ((x.stageTop o (x.readLine l.addr n)).touch l.addr)))) ∧
    (x.tq[k]? = some o → x.mayCommit k o = true → exec (.tileOpCommit t k) s = .next (s.setTile t (x.commit o))) ∧
    (∀ arr : Fin 4, x.smooth = true → x.arrOff.getLsbD arr.val = false → arr.val < s.arrays → x.arrayIdle arr.val = true → x.noWave = true →
      (let n := min 97 (Sparse.get 0 x.gap arr.val + 1)
       exec (.dummyRowFeed t arr) s = .next (s.setTile t { x with
         gap := Sparse.set 0 x.gap arr.val n, egDummy := x.egDummy + if dummyFed n then 330 else 0 }))) ∧
    exec (.arrayHold t) s = .next (s.updTile t fun x => { x with hold := true }) ∧
    exec (.arrayRun t) s = .next (s.updTile t fun x => { x with hold := false, arrOff := 0 }) ∧
    (x.hold = true → ∃ u : State, exec (.arrayDrainDone t) s = .next u ∧
      ∀ i < 4, (u.tile t).arrOff.getLsbD i = (x.arrOff.getLsbD i || decide (s.arrays ≤ i) || x.drained i)) ∧
    (∀ v : Word, badRounding v = false → x.cfgFree (s.cfgValue v) = true →
      exec (.tileCfgStore t v) s = .next (s.updTile t fun x => x.writeCfg (s.cfgValue v)))

/-! ### Tile store, mesh and memory (08, 09) -/

/-- fence completes once the strand's loads are done and its stores have left the tile, and until then sends what the merging buffer holds of
it; fence.ld waits for the loads alone.
The maintenance instructions of one address, of a range, of a set and way and of the whole tile store. -/
def Obligations.FencesAndMaintenance : Prop :=
  (∀ (a : At) (f : RF) (s : State), s.ready a 4 true [] = true → f.rd = 0 → f.rs1 = 0 → f.rs2 = 0 → (let u := s.sendMerges a
    ((u.strand a).loads = [] → (u.tile a.t).storesDone a.h = true → exec (.fence a f) s = .next (u.completed a 4)) ∧
    ((u.strand a).loads ≠ [] ∨ (u.tile a.t).storesDone a.h = false → exec (.fence a f) s = .next u) ∧
    ((s.strand a).loads = [] → exec (.fenceLd a f) s = .next (s.completed a 4)) ∧
    ((s.strand a).loads ≠ [] → exec (.fenceLd a f) s = .next s))) ∧
  (∀ (a : At) (f : RF) (s : State),
    (∀ e ∈ upkeepOnes, ∀ (l : Xlate) (u : State), s.ready a 4 true [f.rs1] = true → f.rd = 0 → f.rs2 = 0 →
      s.check a.t (s.auth a) e.2.need (sectorAt (s.getG a f.rs1)).toNat 64 false = .ok l → s.upkeepSector a e.2 l = .done u →
      exec (e.1 a f) s = .next (u.completed a 4)) ∧
    (∀ e ∈ upkeepRanges, s.ready a 4 true [f.rs1, f.rs2] = true → f.rd = 0 →
      (let va := s.getG a f.rs1; let len := (s.getG a f.rs2).toNat; let step := 256 - va.toNat % 256
       let named := f.rs1 ≠ f.rs2 ∧ f.rs1 ≠ 0 ∧ f.rs2 ≠ 0
       (¬ named → exec (e.1 a f) s = .next (s.raise a cIllegal 0 0 (s.strand a).pc)) ∧
       (named → len = 0 → exec (e.1 a f) s = .next (s.completed a 4)) ∧
       (∀ u : State, named → 0 < len → s.upkeepParts a e.2 (sectorsOf va.toNat (min len step)) = .done u →
         (let v := u.updStrand a fun r => (r.setG f.rs1 (va + word step)).setG f.rs2 (word (len - step))
          (len ≤ step → exec (e.1 a f) s = .next (v.completed a 4)) ∧ (step < len → exec (e.1 a f) s = .next v))))) ∧
    (∀ e ∈ upkeepSetWays, ∀ u : State, s.ready a 4 true [f.rs1] = true → f.rd = 0 → f.rs2 = 0 → (let v := (s.getG a f.rs1).toNat
      bitsOf v 0 11 < 1536 → (e.2 = .inv → s.ownsTile a = true) → s.upkeepLine a e.2 (bitsOf v 0 11) (bitsOf v 16 4) = .done u →
      exec (e.1 a f) s = .next (u.completed a 4))) ∧
    (∀ e ∈ upkeepAlls, ∀ u : State, s.ready a 4 true [] = true → f.rd = 0 → f.rs1 = 0 → f.rs2 = 0 → (e.2 = .inv → s.ownsTile a = true) →
      (∀ k ∈ (s.tile a.t).asks, k.kind.isFill = false) →
      ((s.tile a.t).mbuf.foldl (fun s l => s.sendMerge a.t l) s).upkeepLines a e.2 ((s.tile a.t).lines.map (·.1)) = .done u →
      exec (e.1 a f) s = .next (u.completed a 4)))

/-- Prefetches never fault: pfl asks for the line and never waits, pfs describes a stream, pfstop stops streams, pfrd reads one, and a running
stream makes its next request, passes over a line that is there or may not be prefetched, and stops at one that fails its checks. -/
def Obligations.PrefetchInstructions : Prop :=
  ∀ (a : At) (f : RF) (s : State),
    (s.ready a 4 true [f.rs1] = true → f.rd = 0 → f.rs2 = 0 → (let va := s.getG a f.rs1; let look := s.probe a (.line a.h va) va
      (∀ l : Xlate, look = .line l → exec (.pfl a f) s = .next ((s.requestLine a.t a.h va l.addr false none false).2.completed a 4)) ∧
      (look = .dropped → exec (.pfl a f) s = .next (s.completed a 4)) ∧
      (look = .failed → exec (.pfl a f) s = .next ((s.updTile a.t fun x => x.forget (.line a.h va)).completed a 4)) ∧
      (∀ m : Miss, look = .walk m → exec (.pfl a f) s = .next ((s.startWalk a.t m).completed a 4)) ∧
      exec (.pfstop a f) s = .next ((s.updTile a.t fun x => x.stopStreams (va.toNat % 2 ^ 16)).completed a 4))) ∧
    (s.ready a 4 true [f.rs1, f.rs2] = true → (let v := (s.getG a f.rs2).toNat
      let good := f.rd.toNat < 16 ∧ v % 2 ^ 32 ≠ 0 ∧ v % 64 = 0 ∧ bitsOf v 48 8 ≠ 0 ∧ v < 2 ^ 56
      (good → exec (.pfs a f) s =
        .next ((s.updTile a.t fun x => x.setStream f.rd.toNat (some
          { base := s.getG a f.rs1, stride := BitVec.ofNat 32 v, count := bitsOf v 32 16, dist := bitsOf v 48 8, done := 0, strand := a.h,
            depth := (s.strand a).status.gdepth, state := if bitsOf v 32 16 = 0 then .finished else if x.tsCtl.getLsbD 1 then .running else .stopped,
            ahead := [] })).completed a 4)) ∧
      (¬ good → exec (.pfs a f) s = .next (s.raise a cIllegal 0 0 (s.strand a).pc)))) ∧
    (s.ready a 4 true [f.rd, f.rs1] = true → f.rs2 = 0 →
      exec (.pfrd a f) s = .next ((s.putG a f.rd ((s.tile a.t).pfState ((s.getG a f.rs1).toNat % 16))).completed a 4)) ∧
    (∀ (k : Fin 16) (p : Stream), (s.tile a.t).stream k.val = some p → p.strand = a.h → p.state = .running → (s.tile a.t).tsCtl.getLsbD 1 = true →
      (s.strand a).status.gdepth = p.depth → (s.strand a).status.bs = false → ((s.tile a.t).streamAhead p).length < p.dist →
      (let va := p.base + word p.done * p.stride.signExtend 64; let look := s.probe a (.stream k.val) va
       let q : Stream := { p with ahead := (s.tile a.t).streamAhead p }
       (∀ l : Xlate, look = .line l → (s.tile a.t).present (l.addr / 256 * 256) 256 = false →
         exec (.streamPrefetchRequest a.t k) s = .next ((s.requestLine a.t a.h va l.addr false (some k.val) false).2.updTile a.t
           fun x => x.setStream k.val (some (q.next (some (l.addr / 256)))))) ∧
       (∀ l : Xlate, look = .line l → (s.tile a.t).present (l.addr / 256 * 256) 256 = true →
         exec (.streamPrefetchRequest a.t k) s = .next (s.updTile a.t fun x => x.setStream k.val (some (q.next none)))) ∧
       (look = .dropped → exec (.streamPrefetchRequest a.t k) s = .next (s.updTile a.t fun x => x.setStream k.val (some (q.next none)))) ∧
       (look = .failed → exec (.streamPrefetchRequest a.t k) s =
         .next ((s.updTile a.t fun x => x.forget (.stream k.val)).updTile a.t fun x => x.setStream k.val (some { q with state := .stopped })))))

/-- What comes back to a tile: a line of instructions, the bytes of a load, a fill, the answer of a write-back; and what leaves it: the oldest
store and an aged entry of the merging buffer. -/
def Obligations.TileTraffic : Prop :=
  ∀ (a : At) (s : State), let x := s.tile a.t; let r := s.strand a
    (∀ (tag : Nat) (k : Ask) (m : MPacket) (y : Tile) (e : Fail), r.fetchWait = some tag → x.asks.find? (·.tag == tag) = some k →
      x.takeAnswer tag = some (m, y) →
      ((∀ e : Fail, m.body ≠ .fail e) → exec (.icacheLineFill a) s = .next ((({ s with free := s.free + 1 } : State).setTile a.t
        (y.fillIcache (k.addr / 128) s.free)).updStrand a fun r => { r with fetchWait := none })) ∧
      (m.body = .fail e → exec (.icacheLineFill a) s = .next ((({ s with free := s.free + 1 } : State).setTile a.t y).updStrand a fun r =>
        { r with fetchWait := none, fetchFail := if lineOf k.va = lineOf r.pc ∨ lineOf k.va = lineOf (r.pc + 4) then some (lineOf k.va, e.code, e.check) else r.fetchFail }))) ∧
    (∀ (tag j : Nat) (k : Ask) (m : MPacket) (y : Tile) (l : PendingLoad) (p : LoadPart) (bs : List Byte) (g : Bool),
      r.loads[j]? = some l → l.kind = .reg g → l.parts = [p] → p.state = .asked tag → p.target = .memory →
      x.asks.find? (·.tag == tag) = some k → k.kind = .read → x.takeAnswer tag = some (m, y) → m.body = .data [(0, bs)] →
      ∃ t : State, exec (.loadReply a j) s = .next t ∧ t.getG a l.rd = (if l.rd = 0 then 0 else loadValue l.kind l.len (bs.take p.len)) ∧
        (t.strand a).busy l.rd = (if l.rd = 0 then r.busy 0 else false)) ∧
    (∀ (e : SbEntry) (rest : List SbEntry) (u : State), r.sb = e :: rest → r.blocked e = false → s.drainEntry a e = (true, u) →
      exec (.storeBufferDrain a) s = .next (u.updStrand a fun r => { r with sb := r.sb.drop 1 })) ∧
    (∀ (place : Nat) (weak torn : BitVec 32), (let y := x.strike place weak torn
      (y.firstAnswer AskKind.isFill = none → exec (.fillReturn a.t place weak torn) s = .next (s.setTile a.t y)) ∧
      (∀ (k : Ask) (m : MPacket), y.firstAnswer AskKind.isFill = some (k, m) →
        (let z := { y with inbox := y.inbox.erase m, asks := y.asks.filter (·.tag ≠ k.tag) }
         (∀ secs, m.body = .data secs → exec (.fillReturn a.t place weak torn) s = .next (s.setTile a.t ((z.install k.addr secs).fillDone k none))) ∧
         (∀ e, m.body = .fail e → exec (.fillReturn a.t place weak torn) s =
           .next (s.setTile a.t ((z.install k.addr []).fillDone k (some e)))))))) ∧
    (∀ (k : Nat) (e : MergeEntry), x.mbuf[k]? = some e → exec (.mergingBufferSend a.t k) s = .next (s.sendMerge a.t e)) ∧
    (∀ (k : Ask) (m : MPacket), x.firstAnswer AskKind.isWriteback = some (k, m) → ∃ t : State, exec (.writebackRefused a.t) s = .next t ∧
      (t.tile a.t).tsFail = true ∧ (t.tile a.t).tsAddr = k.addr / 64 * 64 ∧ (t.strand a).evtPend = r.evtPend ||| 0x10)

/-- The way of a request: the mesh delivers the oldest packet of a class between two ports, unless the router there holds four of its class for a
tile; a stack port puts it into its channel's queue, or the hold queue while that is quiet, and gives the credit back; the channel performs the
request that it chooses; and a page walk asks for its entries and goes on with each answer. -/
def Obligations.MemoryRequestPath : Prop :=
  ∀ s : State,
    (∀ (c : MeshClass) (src : MeshPort) (t : TileId) (p : MPacket), firstPacket s.mesh c src (.tile t) = some p →
      (((s.tile t).inbox.filter fun q => q.cls == c).length < 4 → (let u : State := { s with mesh := s.mesh.erase p }
        (∀ m : StackId, p.body = .credit m → exec (.meshPacketDeliver c src (.tile t)) s = .next (u.creditBack t m)) ∧
        ((∀ m : StackId, p.body ≠ .credit m) → exec (.meshPacketDeliver c src (.tile t)) s = .next (u.updTile t fun x => x.answer p.tag p)))) ∧
      (4 ≤ ((s.tile t).inbox.filter fun q => q.cls == c).length → exec (.meshPacketDeliver c src (.tile t)) s = .next s)) ∧
    (∀ (c : MeshClass) (src : MeshPort) (m : StackId) (p : MPacket), firstPacket s.mesh c src (.stack m) = some p →
      exec (.meshPacketDeliver c src (.stack m)) s = .next (({ s with mesh := s.mesh.erase p } : State).setStack m.val
        { s.stackOf m.val with ingress := (s.stackOf m.val).ingress ++ [p] })) ∧
    (∀ (m : StackId) (p : MPacket) (rest : List MPacket), (s.stackOf m.val).ingress = p :: rest →
      (let c := s.channelOf p.body.addr; let u := s.setStack m.val { s.stackOf m.val with ingress := rest }
       let back : MPacket := { p with cls := .response, src := .stack m, dst := p.src, body := .credit m }
       (s.portFull m.val c = true ∨ s.portFull (c / 32) c = true → exec (.stackPortAccept m) s = .next s) ∧
       (s.portFull m.val c = false → s.portFull (c / 32) c = false →
         ((s.chan c).quiet = false → exec (.stackPortAccept m) s =
           .next { u.setChan c { s.chan c with queue := (s.chan c).queue ++ [p] } with mesh := s.mesh ++ [back] }) ∧
         ((s.chan c).quiet = true → exec (.stackPortAccept m) s =
           .next { u.setStack (c / 32) { u.stackOf (c / 32) with held := (u.stackOf (c / 32)).held ++ [(c, p)] } with mesh := s.mesh ++ [back] })))) ∧
    (∀ (c : ChannelId) (u : Nat), let ch := s.chan c.val; let st := s.stackOf (c.val / 32); let t := s.setChan c.val { ch with slot := ch.slot + 1 }
      (s.mem.isOpen = false ∨ ch.quiet = true → exec (.memoryRequest c u .ok) s = .next s) ∧
      (s.mem.isOpen = true → ch.quiet = false → st.level ≤ ch.slot % 8 → exec (.memoryRequest c u .ok) s = .next t) ∧
      (∀ i p, s.mem.isOpen = true → ch.quiet = false → ch.slot % 8 < st.level → s.choose c.val = some (i, p) →
        exec (.memoryRequest c u .ok) s = .next (t.serve c.val i p)) ∧
      (∀ e, e ≠ .ok → exec (.memoryRequest c u e) s = exec (.memoryRequest c u .ok) (s.strike u e))) ∧
    (∀ (c : ChannelId) (i : Nat) (p : MPacket) (b : Body) (u : State), s.channelOf p.body.addr = c.val →
      (s.setChan c.val ((s.chan c.val).take i)).refuses p.quire p.isSeal p.copy p.body.addr = none →
      ((s.setChan c.val ((s.chan c.val).take i)).chargeBody (c.val / 32) p.quire p.body).perform p.quire p.isSeal p.copy p.body = (b, u) →
      s.serve c.val i p = { u with
        mesh := u.mesh ++ [{ p with cls := .response, src := .stack (stackOfChan c.val), dst := p.src, body := b }] }) ∧
    (∀ (t : TileId) (k : Nat) (w : Walk), (s.tile t).walks[k]? = some w → w.failed = none →
      (w.wait = none → (let a := w.table + pteOffset w.level w.page; exec (.pageWalkRead t k) s =
        .next ((s.ask t 0 .walk 0 a false (.read a 8)).2.updTile t fun x => x.setWalk w.page fun v => some { v with wait := some s.nextTag }))) ∧
      (∀ (tag : Nat) (m : MPacket) (y : Tile), w.wait = some tag → (s.tile t).takeAnswer tag = some (m, y) →
        (∀ f, m.body = .fail f → exec (.pageWalkRead t k) s = .next ((s.setTile t y).failWalk t w f.code f.check none)) ∧
        (∀ bs, m.body = .data [(0, bs)] →
          (∀ b, walkOn (s.setTile t y) y.quire.toNat w.page w.level (leNat bs) = .next b → y.quire = (s.tile t).quire →
            exec (.pageWalkRead t k) s = .next ((s.setTile t y).updTile t fun x => x.setWalk w.page fun v =>
              some { v with level := v.level + 1, table := b, wait := none })) ∧
          (∀ e, walkOn (s.setTile t y) y.quire.toNat w.page w.level (leNat bs) = .done e → y.quire = (s.tile t).quire →
            exec (.pageWalkRead t k) s = .next ((s.setTile t y).endWalk t w e)))))

/-- What memory does with a request that it does not refuse: a read answers its bytes and changes none, a write changes the bytes that its mask
names and no other, and an atomic writes its new element and answers the old one. -/
def Obligations.MemoryPerforms : Prop :=
  ∀ (s : State),
    (∀ a n, s.performBody (.read a n) = (.data [(0, s.bytes a n)], s)) ∧
    (∀ (a : Nat) (m : BitVec 64) (bs : List Byte) (b : Nat), bs.length ≤ 64 → (s.performBody (.write a m bs)).1 = .done ∧
      Sparse.get 0 (s.performBody (.write a m bs)).2.mem.bytes b =
        if a ≤ b ∧ b < a + bs.length ∧ m.getLsbD (b - a) = true then bs.getD (b - a) 0 else Sparse.get 0 s.mem.bytes b) ∧
    (∀ (a : Nat) (x y : Word), let u := (s.performBody (.atomic a 0x14 x y)).2
      (s.performBody (.atomic a 0x14 x y)).1 = .data [(0, s.bytes a 8)] ∧
      u.bytes a 8 = leBytes 8 ((leNat (s.bytes a 8) + x.toNat) % 2 ^ 64) ∧
      (∀ b, b < a ∨ a + 8 ≤ b → Sparse.get 0 u.mem.bytes b = Sparse.get 0 s.mem.bytes b))

/-- What channels and stacks do on their own: a refill, a temperature with its throttle level, the stop bound, the patrol, refresh, the steps
of a retraining, a lane's phase, and a dead channel.
Work over regions: a restripe starts and moves its batches, what cannot be read among them becoming zeros; a key sweep holds the next region
and rewrites it under the new slot; and the fill of a scrubbed region ends with a free region of zeros. -/
def Obligations.ChannelAndRegionEvents : Prop :=
  (∀ (c : ChannelId) (m : StackId) (s : State), let ch := s.chan c.val; let st := s.stackOf m.val
    exec (.hbmRefresh c) s = .next s ∧
    (∀ (q : Fin 17) (ns : Nat), let r := st.regulator q.val
      exec (.regulatorRefill m q ns) s = .next (s.setStack m.val { st with
        regs := Sparse.set Regulator.reset st.regs q.val { r with tokens := min (r.tokens + 10 * s.regRate m.val q.val * ns) (1024 * r.depth) } })) ∧
    (∀ temp : BitVec 10, let l := nextLevel st.thr temp.toNat st.level
      exec (.stackTempRead m temp) s = .next ((s.setStack m.val { st with
        temp := temp.toNat, level := l, stopped := decide (l = 0), stopms := if l = 0 then st.stopms else 0 }).pauseRestripe.driftDue m.val).watchRisk) ∧
    (st.stopped = true → (let u := ((s.setStack m.val { st with
      stopms := min 65535 (max st.stopms st.stopbound) }).alarm .stopBound m.val).risk 64
      exec (.thermalStopBound m) s = .next (u.colls.foldl (fun s c => s.raiseColl c.group c.seq 1) u))) ∧
    (∀ (u : Nat) (e : Ecc), st.patrolEn = true → st.stopped = false → 32 * u < s.memTop → s.channelOf (32 * u) / 32 = m.val →
      (let k := { st with patrolAt := u, passes := if u < st.patrolAt then (st.passes + 1) % 65536 else st.passes }
       let v := s.setStack m.val (Stack.charge k 16 1)
       exec (.patrolScrub m u e) s = .next ((if e = .ok then v else v.strike u e).meet (· == u)).2)) ∧
    (∀ ms : Nat, (let k := s.stackOf (c.val / 32)
      ch.due = true ∨ k.period ≤ ms → ch.state = .live → ch.quiet = false → k.level ≠ 0 → k.stopped = false →
      s.retraining ((List.range 32).map (32 * (c.val / 32) + ·)) = 0 → s.retraining (List.range 640) < 8 →
      exec (.retrainStart c ms) s = .next (s.setChan c.val { ch with state := .retraining, retrain := .quiescing }))) ∧
    (ch.retrain = .quiescing → exec (.retrainQuiesceDone c) s = .next (s.setChan c.val { ch with retrain := .training })) ∧
    (ch.retrain = .training → exec (.retrainTrainDone c true) s = .next (s.setChan c.val { ch with
      retrain := .resuming, retrains := (ch.retrains + 1) % 65536, fails := 0 })) ∧
    (ch.retrain = .training → exec (.retrainTrainDone c false) s = .next ((((s.setChan c.val { ch with
      retrain := .resuming, fails := satAdd 8 ch.fails 1 }).alarm .retrainFailed c.val).risk 8).watchRisk)) ∧
    (ch.retrain = .resuming → (let k := s.stackOf (c.val / 32); let mine := (k.held.filter (·.1 == c.val)).map (·.2)
      let u := (s.setStack (c.val / 32) { k with held := k.held.filter (·.1 ≠ c.val) }).setChan c.val { ch with
        state := if ch.state = .retraining then .live else ch.state, retrain := .running, queue := ch.queue ++ mine,
        older := if ch.held = 0 then ch.queue.length else ch.older, held := ch.held + mine.length, corrAt := ch.corr, tempAt := k.temp, due := false }
      exec (.retrainResumeDone c) s = .next (if 2 ≤ ch.fails then u.candidate c.val false else u))) ∧
    (∀ (lane : Fin 64) (up : Bool), let q := clampInt (-16) 16 (signedOf 6 (Sparse.get 0 ch.phases lane.val) + if up then 1 else -1)
      exec (.lanePhaseTrack c lane up) s = .next (s.setChan c.val { ch with
        phases := Sparse.set 0 ch.phases lane.val (unsignedOf 6 q), due := ch.due || decide (q.natAbs = 16) })) ∧
    (ch.state ≠ .dead → ch.state ≠ .mappedOut → ch.state ≠ .untrained → ∃ t : State, exec (.channelDead c) s = .next t ∧
      s.logLost + s.logRing.length ≤ t.logLost ∧ (t.chan c.val).state = .dead ∧ (s.mem.restripe ≠ .idle → t.logRing = []))) ∧
  (∀ s : State,
    (s.mem.restripe = .waiting → exec .restripeStart s = .next (s.tryRestripe s.mem.target)) ∧
    (s.mem.restripe ≠ .waiting → exec .restripeStart s = .next s.nextRestripe) ∧
    (s.mem.restripe = .running → (s.chan s.mem.target).state ≠ .dead → (let top := capacity (s.mem.n - 1) * 2 ^ 22
      (s.mem.errs = [] → s.mem.wm + 4096 < top → (let u := s.chargeMove s.mem.wm 4096
        exec .restripeBatch s = .next { u with mem := { u.mem with wm := s.mem.wm + 4096 } })) ∧
      (s.mem.errs = [] → s.mem.wm ≤ top → top ≤ s.mem.wm + 4096 → (let u := s.chargeMove s.mem.wm (top - s.mem.wm)
        exec .restripeBatch s = .next ({ u with mem := { u.mem with wm := top } } : State).endRestripe)) ∧
      (s.mem.wm + 4096 < top → ∃ t : State, exec .restripeBatch s = .next t ∧ t.mem.wm = s.mem.wm + 4096 ∧
        ∀ b, Sparse.get 0 t.mem.bytes b =
          if (∃ e ∈ s.mem.errs, e.1 = b / 32 ∧ e.2 = .bad) ∧ 256 * s.mem.wm ≤ b ∧ b < 256 * (s.mem.wm + 4096) then 0
          else Sparse.get 0 s.mem.bytes b))) ∧
    (∀ (q : QuireId) (slot : Bool) (i : Nat) (rest : List Nat), (s.quire q.val).sweep = some { slot := slot, todo := i :: rest } →
      s.anyStopped = false →
      ((s.region i).state = .assigned → exec (.keySweepRegion q) s = .next (s.setRegion i { s.region i with state := .rotating })) ∧
      ((s.region i).state = .rotating → s.mem.errs = [] → exec (.keySweepRegion q) s =
        .next ((((s.setQuire q.val { s.quire q.val with sweep := some { slot := slot, todo := rest } }).chargeOwn (8192 * i) 8192 2).setRegion i
          { s.region i with gen := slot, state := .assigned }).endSweep q.val))) ∧
    (∀ (q : QuireId) (e : Nat × Region), (s.mem.regions.find? fun e => e.2.quire == q.val && e.2.state == .scrubbing) = some e →
      s.anyStopped = false → s.mem.restripe ≠ .waiting → ∃ t : State, exec (.fillRegion q) s = .next (t.endScrub q.val) ∧ t.region e.1 = Region.reset ∧
        (∀ b, e.1 * 2 ^ 21 ≤ b → b < (e.1 + 1) * 2 ^ 21 → Sparse.get 0 t.mem.bytes b = 0) ∧
        (∀ b, b < e.1 * 2 ^ 21 ∨ (e.1 + 1) * 2 ^ 21 ≤ b → Sparse.get 0 t.mem.bytes b = Sparse.get 0 s.mem.bytes b) ∧
        (∀ j, j ≠ e.1 → t.region j = s.region j) ∧ (t.quire q.val).filled = (s.quire q.val).filled + 1))

/-! ### The Splice and groups (10, 11) -/

/-- A port of the Splice comes up in three steps, retrains while it is up, drains, and fails: each step by its event. -/
def Obligations.SplicePortStates : Prop :=
  ∀ (p : PortId) (s : State), let x := s.port p.val
    (x.state = .off ∨ x.state = .failed → exec (.portEnable p) s = .next (s.setPort p.val (Port.train { x with en := true }))) ∧
    (x.state = .training → x.step = .adaptation → exec (.laneAdaptationDone p true true) s = .next (s.setPort p.val { x with
      lowOk := true, highOk := true, highHalf := false, step := .alignment })) ∧
    (x.state = .training → x.step = .adaptation → x.halfok = true → exec (.laneAdaptationDone p false true) s = .next (s.setPort p.val { x with
      lowOk := false, highOk := true, highHalf := true, step := .alignment })) ∧
    (x.state = .training → x.step = .adaptation → exec (.laneAdaptationDone p false false) s = .next (s.failPort p.val 1)) ∧
    (x.state = .training → x.step = .alignment → exec (.alignmentDone p true) s = .next (s.setPort p.val { x with step := .keys })) ∧
    (x.state = .training → x.step = .alignment → exec (.alignmentDone p false) s = .next (s.failPort p.val 2)) ∧
    (∀ o : PeerOffer, x.state = .training → x.step = .keys →
      (o.chainOk = true → s.peerSvn ≤ o.svn → (x.member = true → s.cabledRight p.val o = true) → exec (.keyExchangeDone p o) s =
        .next (({ s with free := s.free + 1 } : State).setPort p.val (Port.rekey { x with
          state := if x.lowOk && x.highOk then .up else .half, peer := o.device.toNat, pport := o.port.val,
          incarnation := o.incarnation.toNat, secret := s.free, txIndex := 0, rxIndex := 0, counter := 0 } s.device.toNat))) ∧
      (o.chainOk = true → s.peerSvn ≤ o.svn → x.member = true → s.cabledRight p.val o = false →
        exec (.keyExchangeDone p o) s = .next (s.failPort p.val 3)) ∧
      (o.chainOk = false ∨ o.svn < s.peerSvn → exec (.keyExchangeDone p o) s = .next (s.failPort p.val 4))) ∧
    (x.isUp = true → x.live = false → (let t := (s.setPort p.val { x with live := true, retrains := (x.retrains + 1) % 65536 }).risk 2
      exec (.portRetrainRequest p) s = .next t ∧ exec (.adaptationLoss p) s = .next t)) ∧
    (x.live = true → exec (.liveRetrainDone p true) s = .next (s.setPort p.val { x with
      live := false, resend := x.replay.head?.map (·.fseq), replay := x.replay.map fun f => { f with resent := 0 } })) ∧
    (x.live = true → exec (.liveRetrainDone p false) s = .next (s.failPort p.val (if x.replay.any (8 ≤ ·.resent) then 5 else 1))) ∧
    (x.state = .training → exec (.portDisable p) s = .next (s.setPort p.val { x with en := false, state := .off })) ∧
    (x.isUp = true → x.closeSent = false →
      exec (.portDisable p) s = .next (s.setPort p.val { x with
        en := false, state := .draining, live := false, closing := x.closing || x.outq.isEmpty })) ∧
    (x.state = .draining → exec (.portDrainTimeout p) s = .next ((s.setPort p.val { x with
      state := .off, outq := [], part := [], replay := [], resend := none,
      abandon := satAdd 16 x.abandon (x.replay.length + ceilDiv ((x.outq.map fun o => blocksOf o.pkt).sum) 25) }).alarm .portAbandoned p.val)) ∧
    (x.state = .failed → x.en = true → exec (.spliceConnectorMated p) s = .next (s.setPort p.val x.train))

/-- Frames over a port that carries them: new blocks, a frame that is sent again, or an idle frame; a good frame in its order, an idle one, one out
of order, and what a bad frame counts; the retry and the change of key; and the packets that a port holds, with the answers that they get.
What a remote request is answered: status 6 for a bad form, 3 without a right, 1 beyond memory, and none of these changes anything; a read
that passes answers the bytes of its span. -/
def Obligations.SpliceFramesAndPackets : Prop :=
  (∀ (p : PortId) (s : State), let x := s.port p.val
    (x.carries = true → x.counter < 2 ^ 32 - 1 →
      (x.resend = none → 512 ≤ x.replay.length ∨ (Port.fill 25 x).1 = [] → exec (.frameSend p) s =
        .next (s.setPort p.val (Port.emit x (s.frame x x.txSeq true [])).settle)) ∧
      (x.resend = none → x.replay.length < 512 → (Port.fill 25 x).1 ≠ [] →
        (let bs := (Port.fill 25 x).1; let y := (Port.fill 25 x).2
         exec (.frameSend p) s = .next (s.setPort p.val (Port.emit { y with
           txSeq := x.txSeq + 1, replay := y.replay ++ [{ fseq := x.txSeq + 1, blocks := bs, resent := 0 }] }
           (s.frame x (x.txSeq + 1) false bs)).settle))) ∧
      (∀ (q : BitVec 16) (f : Sent), x.resend = some q → x.replay.find? (·.fseq == q) = some f → f.resent < 7 → exec (.frameSend p) s =
        .next (s.setPort p.val { (x.emit (s.frame x f.fseq false f.blocks)) with
          replay := x.replay.map fun g => if g.fseq = f.fseq then { g with resent := f.resent + 1 } else g
          resend := ((x.replay.dropWhile (·.fseq ≠ f.fseq)).drop 1).head?.map (·.fseq), retry := satAdd 16 x.retry 1 }))) ∧
    (∀ fr : Frame, x.carries = true → (let y : Port := { x with fec := satAdd 32 x.fec fr.fixed }; let z := (y.acknowledge fr).rekey s.device.toNat
      (fr.fecOk = false → exec (.frameReceive p fr) s = .next (s.setPort p.val { y with uncorr := satAdd 16 x.uncorr 1, naking := true })) ∧
      (fr.fecOk = true → fr.crcOk = false → exec (.frameReceive p fr) s = .next (s.setPort p.val { y with
        crcfail := satAdd 16 x.crcfail 1, naking := true })) ∧
      (fr.fecOk = true → fr.crcOk = true → fr.tagOk = true →
        (fr.idle = true → exec (.frameReceive p fr) s = .next (s.setPort p.val z.settle)) ∧
        (fr.idle = false → fr.fseq = z.rxSeq + 1 →
          (let u := (s.setPort p.val { z with rxSeq := fr.fseq, naking := false }).acceptBlocks p.val fr.blocks
           exec (.frameReceive p fr) s = .next (u.setPort p.val (u.port p.val).settle))) ∧
        (fr.idle = false → fr.fseq ≠ z.rxSeq + 1 →
          exec (.frameReceive p fr) s = .next (s.setPort p.val (Port.settle { z with naking := true })))))) ∧
    (x.carries = true → exec (.retryTimeout p) s = .next (s.setPort p.val { x with resend := x.replay.head?.map (·.fseq) })) ∧
    (x.carries = true → exec (.spliceKeyChange p) s = .next (s.setPort p.val (Port.rekey { x with
      keyid := !x.keyid, txIndex := x.txIndex + 1, counter := 0 } s.device.toNat))) ∧
    (∀ (k : SPacket) (u : State), s.remoteHeld p.val = false → s.consume p.val isRequest = some (k, u) → copyFlag k = false →
      exec (.remoteRequest p) s =
        .next ((u.remoteAnswer k).2.2.originate (replyTo (u.remoteAnswer k).2.2.device k (u.remoteAnswer k).1 (u.remoteAnswer k).2.1))) ∧
    (∀ (k : SPacket) (u : State), s.consume p.val isResponse = some (k, u) →
      (k.tile = 0xFF → exec (.remoteWriteResponse p) s = .next (u.transferAnswer k)) ∧
      (k.tile ≠ 0xFF → exec (.remoteWriteResponse p) s = .next (u.answerRemote k))) ∧
    (∀ (k : SPacket) (u : State), s.consume p.val (·.type == 0x38) = some (k, u) → (let w := wordAt k.payload 0
      exec (.eventSignalPacket p) s = .next (u.signal (bitsOf w 0 8) (bitsOf w 8 3) (bitsOf w 11 5)))) ∧
    (∀ (k : SPacket) (u : State), s.consume p.val (fun k => laneOf k.type.toNat == 2) = some (k, u) →
      (let g := bitsOf k.addr.toNat 0 12; let seq := bitsOf k.addr.toNat 12 32
       (u.group g = none → exec (.collectivePacket p) s = .next u.countBad) ∧
       (∀ e, u.group g = some e → u.rankOf e k.src.toNat = none → exec (.collectivePacket p) s = .next u.countBad) ∧
       (∀ e r, u.group g = some e → u.rankOf e k.src.toNat = some r →
         (e.inWindow seq = false → exec (.collectivePacket p) s = .next (u.raiseColl g e.nextseq 5)) ∧
         (e.inWindow seq = true → u.hasRight k.dquire.toNat k.src.toNat k.squire.toNat = true → bitsOf k.addr.toNat 44 20 = e.gsig →
           exec (.collectivePacket p) s = .next (((u.openColl g seq e).arrived g seq
             [{ type := k.type.toNat, rank := r, chunk := k.word3.toNat, bytes := k.payload }]).advanceColl g)))))) ∧
  (∀ (k : SPacket) (s : State), let q := k.dquire.toNat; let a := (remoteSpan k).1; let n := (remoteSpan k).2
    (formOk s.device k = false → s.remoteAnswer k = (6, [], s)) ∧
    (formOk s.device k = true → copyFlag k = false → s.hasRight q k.src.toNat k.squire.toNat = false → s.remoteAnswer k = (3, [], s)) ∧
    (formOk s.device k = true → copyFlag k = true → s.copyPair k = false → s.remoteAnswer k = (3, [], s)) ∧
    (formOk s.device k = true → copyFlag k = false → s.hasRight q k.src.toNat k.squire.toNat = true → s.memTop < a + n →
      s.remoteAnswer k = (1, [], s)) ∧
    (formOk s.device k = true → copyFlag k = false → s.hasRight q k.src.toNat k.squire.toNat = true → a + n ≤ s.memTop →
      (s.region (a / 2 ^ 21)).state ≠ .scrubbing → (s.quire q).use ≠ .drained → k.type = 1 ∨ k.type = 5 →
      (∀ f u, s.readSpan q false false a n = (.error f, u) → s.remoteAnswer k = (refusalStatus f, [], u)) ∧
      (∀ bs u, s.readSpan q false false a n = (.ok bs, u) → bs = s.bytes a n ∧ s.remoteAnswer k = (0, bs, u))))

/-- Events, groups, collectives and transfers, from a strand that holds the right warrant.
A collective ends at its bound or by an abort, also where nothing of it has happened here; when the one that the group has reached has ended or
is done, its records are written and the group goes on to the next. A piece of a transfer inside this device is read and written, one at another
device asked for. -/
def Obligations.GroupsAndTransfers : Prop :=
  (∀ (a : At) (f : RF) (s : State) (w : Warrant),
    (s.ready a 4 true [] = true → f.rd = 0 → f.rs2 = 0 → s.holdsWarrant a f.rs1 w = true → w.kind = 5 → w.bit 24 = true → (let u := s.sendMerges a
      ((u.tile a.t).storesDone a.h = true → w.field 64 20 = u.device.toNat →
        exec (.esignal a f) s = .next ((u.signal (w.field 32 8) (w.field 40 3) (w.field 43 5)).completed a 4)) ∧
      ((u.tile a.t).storesDone a.h = true → w.field 64 20 ≠ u.device.toNat →
        exec (.esignal a f) s = .next ((u.originate
          { dst := BitVec.ofNat 20 (w.field 64 20), src := u.device, type := 0x38
            dquire := BitVec.ofNat 4 ((u.peerQuire (u.tile a.t).quire.toNat (w.field 64 20)).getD 0), squire := (u.tile a.t).quire, hops := 0
            addr := 0, len := 8, status := 0, txn := 0, tile := BitVec.ofNat 8 a.t.val, strand := BitVec.ofNat 3 a.h.val, op := 0
            word3 := 0, ecrcOk := true, payload := leBytes 8 (w.field 32 16) }).completed a 4)) ∧
      ((u.tile a.t).storesDone a.h = false → exec (.esignal a f) s = .next u))) ∧
    (s.holdsWarrant a f.rd w = true → w.kind = 4 → (let va := s.getG a f.rs1
      (∀ ps, s.ready a 4 true [f.rs1] = true → f.rs2 = 0 → w.bit 26 = true → va.toNat % 64 = 0 → s.checkSectors a .load 2 va [] = .ok ps →
        exec (.cgset a f) s = .next ((s.startOperand a (.group f.rd.toNat w) 128 ps).issued a)) ∧
      (∀ ps, s.ready a 4 true [f.rs1, f.rs2] = true → w.bit 26 = true → w.hasGroup ((s.getG a f.rs2).toNat % 2 ^ 12) = true →
        va.toNat % 64 = 0 → s.checkSectors a .store 2 va [] = .ok ps → (s.strand a).sb = [] → ps.all (fun p => (s.tile a.t).sectorRoom p.2.2) = true →
        (let bs := s.groupBytes ((s.getG a f.rs2).toNat % 2 ^ 12)
         exec (.cgget a f) s = .next (((ps.zipIdx).foldl (fun s (p, i) =>
           (s.putSector a p.1.toNat p.2.2 ((bs.drop (64 * i)).take 64)).getD s) s).completed a 4))) ∧
      (s.ready a 4 true [f.rs1] = true → f.rs2 = 0 → w.bit 26 = true → w.hasGroup (va.toNat % 2 ^ 12) = true →
        (s.inFlight (va.toNat % 2 ^ 12) = false → exec (.cgclr a f) s = .next ((s.setGroup (va.toNat % 2 ^ 12) none).completed a 4)) ∧
        (s.inFlight (va.toNat % 2 ^ 12) = true → exec (.cgclr a f) s = .next s)) ∧
      (∀ ps, s.ready a 4 true [f.rs1] = true → f.rs2 = 0 → s.checkFrame a (halves va 64) [] = .ok ps →
        (w.bit 24 = true → exec (.ccol a f) s = .next ((s.startOperand a (.collective f.rd.toNat w) 64 ps).issued a)) ∧
        (w.bit 25 = true → exec (.xstart a f) s = .next ((s.startOperand a (.transfer f.rd.toNat w) 64 ps).issued a)))))) ∧
  (∀ s : State,
    (∀ (g : GroupId) (e : Group), s.group g.val = some e → e.bound ≠ 0 →
      exec (.collectiveBoundExpiry g) s = .next (s.raiseColl g.val e.nextseq 6)) ∧
    (∀ (g : GroupId) (e : Group) (q : BitVec 32) (st : BitVec 8) (r : BitVec 20), s.group g.val = some e → st ≠ 0 →
      (s.coll g.val q.toNat).isSome = true ∨ e.inWindow q.toNat = true →
      ∃ (t : State) (d : Coll), exec (.abort g q st r) s = .next t ∧ t.coll g.val q.toNat = some d ∧
        d.ending = some (((s.coll g.val q.toNat).bind (·.ending)).getD (st.toNat, r.toNat)) ∧ t.mem = s.mem ∧ t.tiles = s.tiles) ∧
    (∀ (g : GroupId) (e : Group) (c : Coll) (st r : Nat) (v : State), (let u := s.advanceColl g.val
      u.group g.val = some e → u.coll g.val e.nextseq = some c → c.issuers ≠ [] →
      (c.ending = some (st, r) ∧ c.desc = none) ∨
        (st = 0 ∧ r = 0 ∧ c.ending = none ∧ ∃ d, c.desc = some d ∧ d.op ≠ 6 ∧ u.collDone e c d = true) →
      u.completions st r c.seq c.issuers = some v → exec (.collectiveEnd g) s =
        .next ((({ (v.count c.quire 9 1) with colls := (v.count c.quire 9 1).colls.filter (!·.is g.val c.seq) } : State).setGroup g.val
          (some { e with nextseq := (e.nextseq + 1) % 2 ^ 32 })).advanceColl g.val))) ∧
    (∀ (k : Nat) (x : Transfer) (l m : Xlate), s.transfers[k]? = some x → x.asked = [] → x.ending = none →
      s.pageOf x.t x.auth .load (x.src + x.done) x.piece = .ok l → s.pageOf x.t x.auth .store (x.dst + x.done) x.piece = .ok m →
      (l.target = .remote → m.target = .memory → exec (.transferPieceDone k) s = .next (s.askPiece x 5 l.addr x.piece [])) ∧
      (∀ (bs : List Byte) (u : State), l.target = .memory → s.spanWaits l.addr x.piece = false →
        s.readSpan x.quire false false l.addr x.piece = (.ok bs, u) → bs = s.bytes l.addr x.piece ∧
        (m.target = .remote → exec (.transferPieceDone k) s = .next (u.askPiece x 4 m.addr x.piece bs)) ∧
        (∀ v : State, m.target = .memory → s.spanWaits m.addr x.piece = false → u.spanWaits m.addr bs.length = false →
          u.writeSpan x.quire false false m.addr bs = (none, v) →
          exec (.transferPieceDone k) s = .next (v.pieceMoved x bs.length) ∧ v.bytes m.addr bs.length = bs))))

/-! ### The host interface (12, 13) -/

/-- The gateway (12): without a port, a Spine or keys nothing happens; a packet of the wrong form, and a tag that fails, are counted; an unknown
session or a wrong epoch is answered in the clear; the parts of a message wait for each other; a number that was accepted is never run again; a
number at the end of its range closes the session; a version other than 1, a 17th outstanding request and what the roles, the TLVs and the
states refuse are answered, and none of these changes a tile, memory or a quire.
What the roles permit: a session without a role only the open commands; a quire owner none of the device owner's, and no command on another
quire; the device owner none of a quire owner's own. -/
def Obligations.GatewayChecksAndRoles : Prop :=
  ((∀ (c : Hdr) (op : Nat) (run : State → Session → Res) (s : State), let e := c.port.val
    ((s.eth e).isUp = false ∨ s.spineUp = false ∨ s.boot.stage < 3 → s.command c op run = s) ∧
    ((s.eth e).isUp = true → s.spineUp = true → 3 ≤ s.boot.stage →
      (packetOk c = false ∨ c.clear = true → s.command c op run = s.dropPkt e) ∧
      (packetOk c = true → c.clear = false → s.session c.session = none → s.command c op run = s.replyClear c op stBadSession []) ∧
      (∀ x : Session, packetOk c = true → c.clear = false → s.session c.session = some x →
        (c.epoch ≠ x.epoch → (x.graced = true → c.epoch + 1 ≠ x.epoch) → s.command c op run = s.replyClear c op stBadSession []) ∧
        (c.epoch = x.epoch ∨ (x.graced = true ∧ c.epoch + 1 = x.epoch) →
          (c.tagOk = false → s.command c op run = s.badTag e) ∧
          (c.tagOk = true → (let j := (s.setSession c.session (some (x.heard c))).joinPart c op; let t := j.2
            (j.1 = false → s.command c op run = t) ∧
            (j.1 = true →
              (0xFFFFFF00 ≤ c.seq → s.command c op run = (t.answer c op stBadSession []).closeSession c.session) ∧
              (c.seq < 0xFFFFFF00 → t.acceptedSeq x c = true →
                (c.retry = false → s.command c op run = t.dropPkt e) ∧
                (∀ r : Reply, c.retry = true → x.stored.find? (·.seq == c.seq) = some r →
                  s.command c op run = t.send (.reply { r with port := e, dest := c.source }))) ∧
              (c.seq < 0xFFFFFF00 → t.acceptedSeq x c = false →
                (c.seq + 64 ≤ x.high → s.command c op run = t.dropPkt e) ∧
                (x.high < c.seq + 64 → (let v := t.setSession c.session (some (x.takes c))
                  (c.version ≠ 1 → s.command c op run = v.answer c op stBadParam []) ∧
                  (c.version = 1 → 16 ≤ s.outstanding c.session → s.command c op run = v.answer c op stBusy []) ∧
                  (∀ st tlvs, c.version = 1 → s.outstanding c.session < 16 → v.gate x.role c op = some (st, tlvs) →
                    s.command c op run = v.answer c op st tlvs))))))))))) ∧
  (∀ (c : Hdr) (op : Nat) (s : State),
    (c.part = 0 → c.more = false → s.joinPart c op = (true, s)) ∧
    (∃ held eth, (s.joinPart c op).2 = { s with net := { s.net with held := held, eth := eth } })) ∧
  (∀ (s : State) (id sq op ph st e src : Nat) (tlvs : List Tlv), let t := s.reply id sq op ph st tlvs e src
    t.tiles = s.tiles ∧ t.mem = s.mem ∧ t.quires = s.quires ∧ t.pending = s.pending)) ∧
  ((∀ op q, Role.permits .noRole op q = true ↔ anyOp op = true) ∧
  (∀ op q k, k ≠ q → anyOp op = false → Role.permits (.quire k) op q = false) ∧
  (∀ op q, quireOnlyOp op = true → Role.permits .owner op q = false) ∧
  (∀ q op, op ∈ [0x0200, 0x0202, 0x0204, 0x0600, 0x0603, 0x0700, 0x0701, 0x0702, 0x0703, 0x0800, 0x0801, 0x0A00, 0x0A01, 0x0A02] →
    Role.permits (.quire q) op q = false ∧ Role.permits .owner op q = true) ∧
  (∀ (c : Hdr) (r : Role) (op : Nat) (s : State), s.isReady = true → knownOp op = true → r.permits op c.quire = false →
    s.gate r c op = some (stDenied, [])) ∧
  (∀ (c : Hdr) (r : Role) (op : Nat) (s : State), s.isReady = false → earlyOp op = false → s.gate r c op = some (stNotReady, [])))

/-- The commands of sessions and of the network, where the gateway lets them run.
The commands of alarms, subscriptions and the log, and the record that goes from the queue to the ring. -/
def Obligations.SessionAndReportCommands : Prop :=
  (∀ (c : Hdr) (x : Session) (s : State), let u := s.opened c x
    (∀ echo : List Byte, s.admits c x 0x0005 = true → echo.length ≤ 64 → exec (.ping c echo) s =
      .next (u.answer c 0x0005 stOk [{ type := 0x81, vals := echo.map (·.toNat) }, { type := 0x82, vals := [natOf s.spine.primary] }])) ∧
    (∀ p : AuthReq, s.admits c x 0x0002 = true → p.role ≤ 1 →
      (u.keysFit c p = true → exec (.auth c p) s =
        .next ((u.setRole c.session (if p.role = 0 then .owner else .quire c.quire)).answer c 0x0002 stOk [{ type := 0x81, vals := [p.role] }])) ∧
      (u.keysFit c p = false → exec (.auth c p) s = .next ((u.setRole c.session .noRole).answer c 0x0002 stDenied []))) ∧
    (s.admits c x 0x0003 = true → ∃ t : State, exec (.close c) s = .next t ∧ t.session c.session = none) ∧
    (∀ p : RekeyReq, s.admits c x 0x0004 = true → ∃ (t : State) (y : Session), exec (.rekey c p) s = .next t ∧ t.session c.session = some y ∧
      y.epoch = (x.epoch + 1) % 65536 ∧ y.graced = true ∧ y.old = x.keys ∧ y.keys = sessionKeys y.secrets y.transcript ∧
      y.secrets.drop 2 = x.secrets) ∧
    (s.admits c x 0x0006 = true → ∃ tlvs, exec (.sessions c) s = .next (u.answer c 0x0006 stOk tlvs)) ∧
    (∀ id : Nat, s.admits c x 0x0007 = true →
      ((u.session id).isSome = true → exec (.evict c id) s = .next ((u.closeSession id).answer c 0x0007 stOk [])) ∧
      ((u.session id).isNone = true → exec (.evict c id) s = .next (u.answer c 0x0007 stBadParam []))) ∧
    (∀ p : NetCfgReq, s.admits c x 0x0008 = true → p.port ≤ 7 → (∀ v, p.ipv6 = some v → v.2 ≤ 128) → (∀ v, p.ipv4 = some v → v.2 ≤ 32) →
      (∀ v, p.vlan = some v → v ≤ 4095) → (∀ v, p.cmdpcp = some v → v ≤ 7) → (∀ v, p.bulkpcp = some v → v ≤ 7) →
      (∀ v, p.cmdUdp = some v → v ≤ 65535) → (∀ v, p.bulkUdp = some v → v ≤ 65535) →
      (let r := s.netRecord p.port
       let n : NetRecord := { ipv6 := p.ipv6.or r.ipv6, ipv4 := p.ipv4.or r.ipv4, vlan := p.vlan.getD r.vlan, cmdpcp := p.cmdpcp.getD r.cmdpcp
                              bulkpcp := p.bulkpcp.getD r.bulkpcp, cmdUdp := p.cmdUdp.getD r.cmdUdp, bulkUdp := p.bulkUdp.getD r.bulkUdp }
       exec (.netcfg c p) s = .next ((({ u with flash := { s.flash with net := Sparse.set NetRecord.reset s.flash.net p.port n } } : State).setEth p.port
         { s.eth p.port with vlan := n.vlan, cmdpcp := n.cmdpcp, bulkpcp := n.bulkpcp }).answer c 0x0008 stOk []))) ∧
    (∀ (mask : BitVec 8) (enable : Bool), s.admits c x 0x0009 = true → (let ports := onesOf mask
      (ports.any (fun e => (s.eth e).state.moving) = true → exec (.netport c mask enable) s = .next (u.answer c 0x0009 stBusy [])) ∧
      (ports.any (fun e => (s.eth e).state.moving) = false →
        (enable = false → (∀ e < 8, e ∈ ports ∨ (s.eth e).en = false) →
          exec (.netport c mask false) s = .next (u.answer c 0x0009 stPolicy [])) ∧
        (enable = true ∨ (∃ e < 8, e ∉ ports ∧ (s.eth e).en = true) →
          (let v := ports.foldl (fun s e => if enable then s.enableEth e else s.disableEth e) u
           let first := if enable then stPending else stDraining
           exec (.netport c mask enable) s = .next (if ports.any fun e => (v.eth e).state.moving
             then v.defer c 0x0009 first v.ethStates (.eth ports enable)
             else v.twice c 0x0009 first v.ethStates stOk v.ethStates)))))) ∧
    (s.admits c x 0x0100 = true → ∃ rest, exec (.status c) s =
      .next (u.answer c 0x0100 stOk ({ type := 0x81, vals := [s.stageByte] } :: { type := 0x82, vals := [natOf s.isReady] } :: rest))) ∧
    (s.admits c x 0x0101 = true → ∃ rest, exec (.health c) s = .next (u.answer c 0x0101 stOk ({ type := 0x81, vals := [u.riskNow] } :: rest))) ∧
    (∀ r, s.admits c x 0x0102 = true → s.boot.record = some r → exec (.inventory c) s = .next (u.answer c 0x0102 stOk
      [{ type := 0x81, vals := [r.grade, r.serialIndex] }, { type := 0x82, vals := r.arrays }, { type := 0x83, vals := r.serial.map (·.toNat) },
       { type := 0x84, vals := r.macs }])) ∧
    (∀ first : Nat, s.admits c x 0x0103 = true → x.role = .owner → (let all := s.lost.mergeSort (fun a b => decide (a ≤ b))
      exec (.lostlist c first) s = .next (u.answer c 0x0103 stOk (pages 0x81 16383 5 ((all.drop first).take 65530) ++
        [{ type := 0x82, vals := [natOf (decide (first + 65530 < all.length))] }]))))) ∧
  (∀ (c : Hdr) (x : Session) (s : State), let u := s.opened c x
    (∀ n : Nat, s.admits c x 0x0104 = true → exec (.alarms c n) s = .next (u.answer c 0x0104 stOk (s.alarms.filterMap fun e => e.2.bind fun r =>
      if n ≤ r.last then some ({ type := 0x81, vals := [e.1, r.count, r.first, r.last] } : Tlv) else none))) ∧
    (∀ n : Nat, s.admits c x 0x0105 = true → ∃ t : State, exec (.alarmack c n) s = .next t ∧
      t.alarms = s.alarms.filter fun e => match e.2 with | some r => decide (n < r.last) | none => false) ∧
    (∀ (classes : BitVec 8) (dest : Nat), s.admits c x 0x0900 = true →
      (classes.toNat < 8 → ∃ t : State, exec (.subscribe c classes dest) s = .next t ∧
        t.net.subs = s.net.subs ++ [{ id := s.net.nextSub, session := c.session, classes := classes, dest := dest }]) ∧
      (8 ≤ classes.toNat → exec (.subscribe c classes dest) s = .next (u.answer c 0x0900 stBadParam []))) ∧
    (∀ id : Nat, s.admits c x 0x0901 = true →
      (s.net.subs.any (fun b => b.id == id && b.session == c.session) = true → ∃ t : State, exec (.unsubscribe c id) s = .next t ∧
        t.net.subs = s.net.subs.filter fun b => !(b.id == id && b.session == c.session)) ∧
      (s.net.subs.any (fun b => b.id == id && b.session == c.session) = false →
        exec (.unsubscribe c id) s = .next (u.answer c 0x0901 stBadParam []))) ∧
    (∀ first limit : Nat, s.admits c x 0x0902 = true →
      (let rs := (s.logRing.filter fun r => decide (first ≤ r.seq)).take (min (limit / 256) 1023)
       exec (.logread c first limit) s = .next (({ rs.foldl (fun s r => s.chargeOwn (r.seq % ringRecords) 1 1) u with
           logRead := rs.foldl (fun n r => max n (r.seq + 1)) s.logRead } : State).answer c 0x0902 stOk
         (pages 0x81 765 5 (rs.flatMap fun r => [r.seq, r.kind.number, r.arg]) ++ [{ type := 0x82, vals := [s.logLost] }])))) ∧
    (∀ share : Option Nat, s.admits c x 0x0903 = true → share.getD 16 ≤ 255 → ∃ t : State, exec (.exportcfg c share) s = .next t ∧
      t.net.share = share.getD 16) ∧
    (∀ (r : LogRec) (rest : List LogRec), 5 ≤ s.boot.stage → s.logQ = r :: rest → s.logRing.length < ringRecords →
      ∃ t : State, exec .logRecordWrite s = .next t ∧ t.logQ = rest ∧ t.logRing = s.logRing ++ [r] ∧ t.logLost = s.logLost) ∧
    (∀ n : Nat, 2048 < s.logQ.length ∨ s.net.waiting.any (·.cls == 1) = true → s.trace n = { s with traceLost := s.traceLost + 1 }) ∧
    (5 ≤ s.boot.stage → s.logQ = [] → exec .logRecordWrite s = .next s.exportNow))

/-- What the ports and timers of the network do: a port trains, drains and drops; a session ends or its grace does; and the host's packets that
the ports answer themselves or discard. -/
def Obligations.EthernetEvents : Prop :=
  ∀ (e : EthId) (s : State), let x := s.eth e.val
    (x.state = .off ∨ x.state = .failed → exec (.ethPortEnable e) s = .next (s.setEth e.val { x with en := true, state := .training })) ∧
    (x.state = .up → exec (.ethPortDisable e) s = .next (s.setEth e.val { x with en := false, state := .draining })) ∧
    (x.state = .draining → exec (.ethPortDrained e) s = .next (s.setEth e.val { x with state := .off, pfc := false }).settleEth) ∧
    (x.state = .training → exec (.ethPortTrained e true) s = .next (s.setEth e.val { x with state := .up }).settleEth ∧
      exec (.ethPortTrained e false) s = .next ((s.setEth e.val { x with state := .failed }).alarm .ethPortFailed e.val).settleEth) ∧
    (x.state = .up → exec (.ethLinkDrop e) s = .next (s.setEth e.val { x with state := .training, pfc := false })) ∧
    (∀ p : NetPacket, x.isUp = true →
      (p.plain = true → (if p.v6 then s.addr6 e.val else s.addr4 e.val) = some p.target →
        exec (.icmpEcho e p) s = .next (s.send (.echo e.val p.source p.bytes))) ∧
      (p.plain = false → exec (.icmpEcho e p) s = .next (s.dropPkt e.val)) ∧
      (s.addr4 e.val = some p.target → exec (.arpRequest e p) s = .next (s.send (.arp e.val p.source p.target x.mac))) ∧
      (p.plain = true → s.addr6 e.val = some p.target →
        exec (.neighbourDiscovery e p) s = .next (s.send (.neighbour e.val p.source p.target x.mac)))) ∧
    (∀ (prio : Fin 8) (pause : Bool), x.isUp = true →
      (x.bulkpcp = prio.val → (let t := s.setEth e.val { x with pfc := pause }
        exec (.priorityFlowControl e prio pause) s = .next (if pause then t else (s.net.bulks.map (·.xid)).foldl (fun s i => s.pump i) t))) ∧
      (x.bulkpcp ≠ prio.val → exec (.priorityFlowControl e prio pause) s = .next s)) ∧
    (x.isUp = true → exec (.commandPacketDiscard e .fcs) s = .next (s.setEth e.val { x with fcs := satAdd 16 x.fcs 1 }) ∧
      exec (.commandPacketDiscard e .tag) s = .next (s.setEth e.val { x with tagfail := satAdd 16 x.tagfail 1 })) ∧
    (∀ id : Nat, exec (.sessionIdleTimeout id) s = .next (s.closeSession id) ∧ exec (.sessionRekeyTimeout id) s = .next (s.closeSession id) ∧
      (s.closeSession id).session id = none) ∧
    (∀ (id : Nat) (y : Session), s.session id = some y →
      exec (.epochGraceExpiry id) s = .next (s.setSession id (some { y with graced := false, old := [] }))) ∧
    (∀ session sq : Nat, exec (.messagePartTimeout session sq) s =
      .next { s with net := { s.net with held := s.net.held.filter fun h => !(h.session == session && h.seq == sq) } }) ∧
    (∀ (c : Hdr) (y : Session) (op : BitVec 16), c.port = e → x.isUp = true → s.spineUp = true → s.isReady = true → 3 ≤ s.boot.stage →
      s.session c.session = some y → wholePacket c y = true → c.seq < 0xFFFFFF00 → s.acceptedSeq y c = false → y.high < c.seq + 64 →
      c.version = 1 → s.outstanding c.session < 16 → knownOp op.toNat = false →
      exec (.unknownOpcode c op) s = .next ((s.opened c y).answer c op.toNat stBadParam []))

/-- The commands of quires, where the gateway lets them run: what they check, what they answer, and what they leave. -/
def Obligations.QuireCommands : Prop :=
  ∀ (c : Hdr) (x : Session) (s : State), let u := s.opened c x; let q := c.quire
    (∀ p : QCreateReq, s.admits c x 0x0200 = true →
      (qcreateFormOk p q = false → exec (.qcreate c p) s = .next (u.answer c 0x0200 stBadParam [])) ∧
      (qcreateFormOk p q = true → 256 < u.rateSum q p.rate p.cap ∨ u.shareOk q p.share (onesOf p.tiles).length = false →
        exec (.qcreate c p) s = .next (u.answer c 0x0200 stPolicy [])) ∧
      (qcreateFormOk p q = true → u.rateSum q p.rate p.cap ≤ 256 → u.shareOk q p.share (onesOf p.tiles).length = true →
        (u.freeFor q p = false → exec (.qcreate c p) s = .next (u.answer c 0x0200 stNoResource [])) ∧
        (u.freeFor q p = true → (let v := (u.compose q p none).setUpTiles q p.tiles p.badTiles 0
          ((onesOf p.tiles).any p.badTiles.contains = false → (let w := v.updQuire q fun x => { x with use := .running }
            exec (.qcreate c p) s = .next (((w.appendLog q { kind := 0, addr := 0, len := 0, digest := Config.sha384 (w.configBytes q) }).replan).twice c
              0x0200 stPending [] stOk []))) ∧
          ((onesOf p.tiles).any p.badTiles.contains = true → exec (.qcreate c p) s =
            .next (((v.updQuire q fun x => { x with use := .drained }).beginScrub q).twice c 0x0200 stPending [] stFailed [])))))) ∧
    (s.admits c x 0x0201 = true → ∃ rest, exec (.qquery c) s =
      .next (u.answer c 0x0201 stOk ({ type := 0x81, vals := [(s.quire q).use.code] } :: rest))) ∧
    (∀ p : QModifyReq, s.admits c x 0x0202 = true →
      (p.bandwidth = none → p.share = none → p.rights = none → p.add = none →
        exec (.qmodify c p) s = .next (u.answer c 0x0202 stBadParam [])) ∧
      (let y := s.quire q
       let rate := (p.bandwidth.map (·.1)).getD y.rate
       let cap := (p.bandwidth.map (·.2)).getD y.cap
       let share := p.share.getD y.share
       let add := rangeNums (p.add.getD [])
       (p.bandwidth.isSome || p.share.isSome || p.rights.isSome || p.add.isSome) = true → rate ≤ 256 → (p.rights.getD []).length ≤ 8 →
       (p.rights.getD []).all rightOk = true → (∀ r ∈ p.add.getD [], r.2 ≠ 0 ∧ r.1 + r.2 ≤ 638976) → add.Nodup →
       u.rateSum q rate cap ≤ 256 → u.shareOk q share y.tileCount = true →
       (∀ i ∈ add, i < 512 * s.mem.ctop ∧ (s.region i).state = .free) → y.room = true →
       (let v := u.setQuire q { y with rate := rate, cap := cap, share := share }
        let v := if p.bandwidth.isSome then v.setRegulators q rate cap else v
        let v := if p.rights.isSome then v.setRights q (p.rights.getD []) else v
        let gen := match y.sweep with | some w => w.slot | none => (Sparse.get 0 y.keys 0) == 0
        exec (.qmodify c p) s = .next ((((v.assignRegions q add false gen).appendLog q
          { kind := 3, addr := 0, len := 0, digest := Config.sha384 (natBytes (qmodifyNums p) 8) }).replan).answer c 0x0202 stOk [])))) ∧
    (s.admits c x 0x0205 = true →
      ((s.quire q).sweep.isSome = true → exec (.keyrotate c) s = .next (u.answer c 0x0205 stBusy [])) ∧
      ((s.quire q).sweep = none → (s.quire q).room = true →
        exec (.keyrotate c) s = .next ((u.startSweep q).defer c 0x0205 stPending [] (.rotate q)))) ∧
    (∀ set : Nat, s.admits c x 0x0904 = true →
      (set = 0 → exec (.counters c set) s = .next (u.answer c 0x0904 stOk
        [{ type := 0x81, vals := (List.range 10).map fun k => Sparse.get 0 s.counts (16 * q + k) / 1024 * 1024 }])) ∧
      (set ≠ 0 → exec (.counters c set) s = .next (u.answer c 0x0904 stBadParam []))) ∧
    (∀ first : Nat, s.admits c x 0x0502 = true → exec (.measlog c first) s = .next (u.answer c 0x0502 stOk
      (pages 0x81 5115 6 ((((s.quire q).log.zipIdx.drop first).take 4095).flatMap fun (e, i) => [i, e.kind, e.addr, e.len, e.digest]) ++
        [{ type := 0x82, vals := [natOf (decide (first + 4095 < (s.quire q).log.length))] }]))) ∧
    (s.admits c x 0x0604 = true → exec (.replayrec c) s = .next (u.answer c 0x0604 stOk
      [{ type := 0x81, vals := [natOf (!Sparse.get false s.noReplay q)] }, { type := 0x82, vals := [(s.quire q).position] },
       { type := 0x83, vals := ((s.quire q).log.filter (·.kind == 5)).map (·.addr) }])) ∧
    (∀ nonce : List Byte, s.admits c x 0x0500 = true →
      (nonce.length ≠ 48 → exec (.attest c nonce) s = .next (u.answer c 0x0500 stBadParam [])) ∧
      (nonce.length = 48 → (let body := u.reportBytes q nonce; let d := Config.sha384 (body ++ natBytes u.chain 48)
        exec (.attest c nonce) s = .next (u.answer c 0x0500 stOk
          [{ type := 0x81, vals := body.map (·.toNat) ++ u.chain ++ [Config.aliasSignature 0 d, Config.aliasSignature 1 d] }])))) ∧
    (s.admits c x 0x0501 = true → exec (.certs c) s = .next (u.answer c 0x0501 stOk [{ type := 0x81, vals := u.chain }]))

/-- What a strand reads and rotates of its quire with a valid warrant, and the exchange about a discarded copy. -/
def Obligations.QuireInstructionsAndDiscards : Prop :=
  (∀ (a : At) (f : RF) (w : Warrant) (s : State), s.holdsWarrant a f.rs1 w = true → w.kind = 6 → (let q := (s.tile a.t).quire.toNat
    (∀ v : Nat, s.ready a 4 true [f.rd, f.rs2] = true → w.bit 27 = true → s.quireReading q ((s.getG a f.rs2).toNat % 65536) = some v →
      exec (.qread a f) s = .next ((s.putG a f.rd (word v)).completed a 4)) ∧
    (s.ready a 4 true [f.rd, f.rs2] = true → w.bit 27 = true → s.quireReading q ((s.getG a f.rs2).toNat % 65536) = none →
      exec (.qread a f) s = .next (s.raise a cIllegal 0 0 (s.strand a).pc)) ∧
    (s.ready a 4 true [f.rd] = true → f.rs2 = 0 → w.bit 25 = true →
      ((s.quire q).sweep = none → (s.quire q).room = true → exec (.qrekey a f) s = .next (((s.startSweep q).putG a f.rd 0).completed a 4)) ∧
      ((s.quire q).sweep.isSome = true → exec (.qrekey a f) s = .next ((s.putG a f.rd 1).completed a 4))))) ∧
  (∀ (m : CkMsg) (s : State), let q := m.quire.val; let x := s.quire q
    (x.discarding = true → s.survive.partner = some m.src.toNat → x.use ≠ .free →
      exec (.discarded m) s = .next (s.setQuire q { x with discarding := false, copied := false })) ∧
    (x.discarding = true → s.survive.partner = some m.src.toNat → x.use = .free → exec (.discarded m) s =
      .next ((s.setQuire q Quire.reset).finishWhere (· == .release q) (if x.late then stFailed else stOk) (detail (if x.late then 4 else 0)))) ∧
    (x.discarding = false → exec (.discarded m) s = .next s) ∧
    (let answered (t : State) : State := t.sendSpine m.src.toNat 0x3F ([7, BitVec.ofNat 8 q] ++ leBytes 2 0 ++ leBytes 4 m.number.toNat)
     (s.copiesOf m.src.toNat q = [] → exec (.discard m) s = .next (answered s)) ∧
     (∀ k : Nat, s.copiesOf m.src.toNat q = [k] → (s.quire k).use ≠ .scrubbing → exec (.discard m) s = .next (answered (s.beginScrub k))))) ∧
  (∀ (q : QuireId) (s : State), let x := s.quire q.val
    (∀ d : Nat, x.discarding = true → s.survive.partner = some d → x.use ≠ .free →
      (let t := (s.sendSpine d 0x3F ([6, BitVec.ofNat 8 q.val] ++ leBytes 2 0 ++ leBytes 4 x.number)).setQuire q.val { x with late := true }
       exec (.discardRetry q) s = .next (if x.late then t else t.alarm .discardUnanswered q.val))) ∧
    (x.discarding = false → exec (.discardRetry q) s = .next s))

/-- The commands that run a quire's strands, where the gateway lets them run: they name tiles of the quire, and start, halt, reset, signal and
list.
What the Spine does about tiles that hang, drain or are at the end of their delay range. -/
def Obligations.RunCommandsAndSupervision : Prop :=
  (∀ (c : Hdr) (x : Session) (tiles : BitVec 192) (strands : BitVec 8) (s : State), let u := s.opened c x; let q := c.quire
    let who := strandsIn tiles strands
    (∀ rec : Nat, s.admits c x 0x0400 = true →
      (u.ownsTiles q tiles = false → exec (.start c tiles strands rec) s = .next ((u.answer c 0x0400 stDenied []).spineWork false)) ∧
      (u.ownsTiles q tiles = true →
        ((∃ a ∈ who, (s.tile a.t).use ≠ .normal) → exec (.start c tiles strands rec) s = .next ((u.answer c 0x0400 stFailed []).spineWork false)) ∧
        ((∀ a ∈ who, (s.tile a.t).use = .normal) →
          ((∃ a ∈ who, (s.strand a).run ≠ .halted) → exec (.start c tiles strands rec) s = .next ((u.answer c 0x0400 stBusy []).spineWork false)) ∧
          ((∀ a ∈ who, (s.strand a).run = .halted) →
            (∀ (f : Fail) (v : State), u.readSpan q false false rec 64 = (.error f, v) → exec (.start c tiles strands rec) s =
              .next ((v.answer c 0x0400 (failStatus f).1 (detail (failStatus f).2)).spineWork false)) ∧
            (∀ (bs : List Byte) (v : State), u.readSpan q false false rec 64 = (.ok bs, v) → exec (.start c tiles strands rec) s =
              .next (((who.foldl (fun s a => s.startStrand a bs none) v).answer c 0x0400 stOk []).spineWork false)))))) ∧
    (s.admits c x 0x0401 = true → u.ownsTiles q tiles = true →
      ((∀ a ∈ who, (s.strand a).isHalted = true) → exec (.halt c tiles strands) s = .next ((u.answer c 0x0401 stOk []).spineWork false)) ∧
      ((∃ a ∈ who, (s.strand a).isHalted = false) → exec (.halt c tiles strands) s =
        .next (((who.foldl (fun s a => s.updStrand a Strand.askHalt) u).defer c 0x0401 stPending [] (.halted who)).spineWork false))) ∧
    (s.admits c x 0x0402 = true → u.ownsTiles q tiles = true →
      ((∃ j ∈ s.survive.jobs, j.tile ∈ onesOf tiles) → exec (.tilereset c tiles) s = .next ((u.answer c 0x0402 stBusy []).spineWork false)) ∧
      ((∀ j ∈ s.survive.jobs, j.tile ∉ onesOf tiles) → (∀ t ∈ onesOf tiles, (s.tile (Fin.ofNat 192 t)).use ≠ .unavailable) →
        exec (.tilereset c tiles) s = .next ((((onesOf tiles).foldl (fun s t => s.beginReset (Fin.ofNat 192 t) q) u).defer c 0x0402 stPending []
          (.reset (onesOf tiles))).spineWork false))) ∧
    (s.admits c x 0x0403 = true → u.ownsTiles q tiles = true → exec (.strands c tiles) s = .next (u.answer c 0x0403 stOk
      [{ type := 0x81, vals := (strandsIn tiles (BitVec.allOnes 8)).flatMap fun a =>
        [(s.strand a).ctlWord.toNat, (s.strand a).pc.toNat, (s.strand a).cause.toNat] },
       { type := 0x82, vals := (onesOf tiles).map fun t => (s.tile (Fin.ofNat 192 t)).use.ctorIdx }])) ∧
    (∀ tile strand line : Nat, s.admits c x 0x0404 = true →
      (tile < 192 → strand < 8 → 16 ≤ line → line < 32 → (s.quire q).tiles.getLsbD tile = true →
        exec (.signal c tile strand line) s = .next ((u.signal tile strand line).answer c 0x0404 stOk [])) ∧
      (192 ≤ tile ∨ 8 ≤ strand ∨ line < 16 ∨ 32 ≤ line → exec (.signal c tile strand line) s = .next (u.answer c 0x0404 stBadParam []))) ∧
    (∀ bound : Nat, s.admits c x 0x0203 = true → exec (.qdrain c bound) s =
      .next (((u.startDrain q false).defer c 0x0203 stDraining [] (.drain q)).spineWork false)) ∧
    (s.admits c x 0x0204 = true →
      ((s.quire q).use = .drained → exec (.qrelease c) s =
        .next ((((u.beginScrub q).endScrub q).defer c 0x0204 stPending [] (.release q)).spineWork false)) ∧
      ((s.quire q).use ≠ .drained → exec (.qrelease c) s =
        .next (((u.startDrain q true).defer c 0x0204 stPending [] (.release q)).spineWork false)))) ∧
  (∀ (t : TileId) (q : QuireId) (s : State), let x := s.tile t
    (x.assigned = true → (s.quire x.quire.toNat).use = .running → x.use = .normal →
      (x.resetLately = 0 ∨ 60000 ≤ s.power.ticks + 1 - x.resetLately →
        exec (.hungTileDetect t) s = .next ((s.beginReset t x.quire.toNat).spineWork false)) ∧
      (x.resetLately ≠ 0 → s.power.ticks + 1 - x.resetLately < 60000 → exec (.hungTileDetect t) s =
        .next (((s.updTile t fun x => { x.abandon with use := .unavailable }).post x.quire.toNat 9 none).alarm .tileUnavailable t.val))) ∧
    (x.assigned = false → exec (.hungTileDetect t) s = .next s) ∧
    (255 ≤ x.delay.step → x.delay.margin < 2 → (let v := (s.updTile t fun x => { x with delay := { x.delay with limit := true } }).alarm .delayLimit t.val
      let i := v.island (islandOf t)
      (i.mv + 25 ≤ i.top → exec (.delayLimit t) s = .next (v.setIsland (islandOf t) { i with mv := i.mv + 25, limitRise := true })) ∧
      (i.top < i.mv + 25 → exec (.delayLimit t) s = .next (v.hungTile t)))) ∧
    (x.delay.step < 255 ∨ 2 ≤ x.delay.margin → exec (.delayLimit t) s = .next s) ∧
    ((s.quire q.val).use = .draining → exec (.qdrainTileTimeout q) s = .next ((s.updQuire q.val fun x => { x with timedOut := true }).quireWork q.val)) ∧
    ((s.quire q.val).use = .draining → exec (.qdrainBoundExpiry q) s = .next (s.boundExpires q.val)) ∧
    (x.use = .draining → exec (.tileDrainRemoteTimeout t) s = .next ((s.updTile t Tile.dropRemote).drainWork t)))

/-- What READ and WRITE move: a read answers the bytes of its range and changes none, a write puts its bytes there and nowhere else; where the
memory refuses or fails, the reply says so, and a write ends at the first region that refuses. -/
def Obligations.HostReadsAndWrites : Prop :=
  ∀ (c : Hdr) (x : Session) (addr : Nat) (s : State), let u := s.opened c x; let q := c.quire
    (∀ len : Nat, s.admits c x 0x0301 = true →
      (65536 < len → exec (.read c addr len) s = .next (u.answer c 0x0301 stBadParam [])) ∧
      (len ≤ 65536 →
        (∀ f : Fail, u.spanRefused q false false addr len = some f → exec (.read c addr len) s =
          .next (u.answer c 0x0301 (failStatus f).1 (detail (failStatus f).2))) ∧
        (u.spanRefused q false false addr len = none → (∀ e ∈ s.mem.errs, e.1 ∉ unitsOf addr len) → ∃ t : State, exec (.read c addr len) s =
          .next (t.answer c 0x0301 stOk (pages 0x81 65535 2 ((s.bytes addr len).map (·.toNat)))) ∧ t.mem.bytes = s.mem.bytes) ∧
        (∀ v : State, u.spanRefused q false false addr len = none → (u.chargeSpan q addr len 1).meet ((unitsOf addr len).contains ·) = (true, v) →
          exec (.read c addr len) s = .next (v.answer c 0x0301 stFailed [{ type := 0xF0, vals := [3] }])))) ∧
    (∀ bytes : List Byte, s.admits c x 0x0302 = true → bytes.length ≤ 65536 → bytes ≠ [] →
      (addr % 2 ^ 21 + bytes.length ≤ 2 ^ 21 →
        (∀ f : Fail, u.spanRefused q false false addr bytes.length = some f → exec (.write c addr bytes) s =
          .next (u.answer c 0x0302 (failStatus f).1 (detail (failStatus f).2))) ∧
        (u.spanRefused q false false addr bytes.length = none → (∀ e ∈ s.mem.errs, e.1 ∉ unitsOf addr bytes.length) →
          ∃ t : State, exec (.write c addr bytes) s = .next (t.answer c 0x0302 stOk []) ∧ t.bytes addr bytes.length = bytes ∧
            (∀ b, b < addr ∨ addr + bytes.length ≤ b → Sparse.get 0 t.mem.bytes b = Sparse.get 0 s.mem.bytes b))) ∧
      (let m := 2 ^ 21 - addr % 2 ^ 21
       ∀ v : State, m < bytes.length → u.writeSpan q false false addr (bytes.take m) = (none, v) →
        (∀ (f : Fail) (w : State), v.writeSpan q false false (addr + m) (bytes.drop m) = (some f, w) → exec (.write c addr bytes) s =
          .next (w.answer c 0x0302 (failStatus f).1 (detail (failStatus f).2))) ∧
        (∀ w : State, v.writeSpan q false false (addr + m) (bytes.drop m) = (none, w) → exec (.write c addr bytes) s =
          .next (w.answer c 0x0302 stOk []))))

/-- The commands that open a bulk transfer open it and pump it, those that ask after one or cancel it need it to be the session's own, and the
packets and timers of a transfer move it on or end it. -/
def Obligations.BulkTransfers : Prop :=
  (∀ (c : Hdr) (x : Session) (s : State), let u := s.opened c x
    let fits (dev : Bool) (len : Nat) (p : BulkParams) : Prop := let n := p.chunk.getD 8192; let w := p.window.getD 1024
      1024 ≤ n ∧ n ≤ 8192 ∧ n % 1024 = 0 ∧ 16 ≤ w ∧ w ≤ 4096 ∧ len ≠ 0 ∧ (dev = true → n + 48 ≤ x.maxPayload) ∧
      (s.net.bulks.filter (·.session == c.session)).length < 32 ∧ s.net.bulks.length < 256
    let opens (quire : Nat) (use : BulkUse) (dev : Bool) (addr len : Nat) (p : BulkParams) : State :=
      let b : Bulk :=
        { xid := s.net.nextXid, session := c.session, quire := quire, use := use, fromDevice := dev, addr := addr, len := len
          chunk := p.chunk.getD 8192, window := p.window.getD 1024, mask := p.mask.getD 0xFF, hostA := p.hostA.or (x.takes c).sourceA
          hostB := p.hostB.or (x.takes c).sourceB, got := [], sent := [], missed := [], unacked := 0, serial := 0, data := [] }
      { u with net := { u.net with nextXid := s.net.nextXid + 1, bulks := s.net.bulks ++ [b] } }
    let answers (op : Nat) (t : State) : State :=
      (t.defer c op stPending [{ type := 0x81, vals := [s.net.nextXid] }] (.bulk s.net.nextXid)).pump s.net.nextXid
    (∀ p : LoadReq, s.admits c x 0x0300 = true →
      (2 < p.kind → exec (.load c p) s = .next ((u.answer c 0x0300 stBadParam []).pump s.net.nextXid)) ∧
      (p.kind ≤ 2 → (p.kind < 2 → p.digest.isSome = true ∧ (s.quire c.quire).loads + u.openLoads c.quire < 2048 ∧
          (s.quire c.quire).entries + u.openLoads c.quire < 4096) → fits false p.len p.bulk →
        exec (.load c p) s = .next (answers 0x0300 (opens c.quire (.load p.kind p.digest) false p.addr p.len p.bulk)))) ∧
    (∀ p : BulkReq, s.admits c x 0x0303 = true →
      (∀ f : Freeze, s.survive.freeze = some f → f.quire = c.quire → p.fromDevice = false →
        exec (.bulkopen c p) s = .next ((u.answer c 0x0303 stBusy []).pump s.net.nextXid)) ∧
      (s.survive.freeze = none ∨ p.fromDevice = true → fits p.fromDevice p.len p.bulk →
        exec (.bulkopen c p) s = .next (answers 0x0303 (opens c.quire .memory p.fromDevice p.addr p.len p.bulk)))) ∧
    (∀ b : BulkParams, s.admits c x 0x0705 = true → fits true (2 ^ 19) b →
      (x.role = .owner → exec (.groupsave c b) s = .next (answers 0x0705 (opens c.quire (.groups none) true 0 (2 ^ 19) b))) ∧
      (∀ q : Nat, x.role = .quire q → exec (.groupsave c b) s = .next (answers 0x0705 (opens c.quire (.groups (some q)) true 0 (2 ^ 19) b)))) ∧
    (∀ (q : Nat) (b : BulkParams), s.admits c x 0x0706 = true → q < 16 →
      (s.net.bulks.any (fun o => !o.fromDevice && o.use == .groups (some q)) = true →
        exec (.grouprestore c q b) s = .next ((u.answer c 0x0706 stBusy []).pump s.net.nextXid)) ∧
      (s.net.bulks.any (fun o => !o.fromDevice && o.use == .groups (some q)) = false → u.quireGate x.role 0x0706 q = none → fits false (2 ^ 19) b →
        exec (.grouprestore c q b) s = .next (answers 0x0706 (opens q (.groups (some q)) false 0 (2 ^ 19) b)))) ∧
    (∀ (len : Nat) (image : FwImage) (b : BulkParams), s.admits c x 0x0A00 = true →
      (s.net.bulks.any (fun o => match o.use with | .firmware _ => true | _ => false) = true →
        exec (.fwstage c len image b) s = .next ((u.answer c 0x0A00 stBusy []).pump s.net.nextXid)) ∧
      (s.net.bulks.any (fun o => match o.use with | .firmware _ => true | _ => false) = false → fits false len b →
        (let v := opens 0xFF (.firmware image) false 0 len b
         exec (.fwstage c len image b) s = .next (answers 0x0A00
           ((({ v with flash := { v.flash with staged := none, verified := false } } : State).setInactive { FwSlot.reset with valid := false })))))) ∧
    (∀ (xid : Nat) (b : Bulk), s.bulk xid = some b → b.session = c.session →
      (s.admits c x 0x0304 = true → exec (.bulkstatus c xid) s = .next (u.answer c 0x0304 stOk
        [{ type := 0x81, vals := [1] }, { type := 0x82, vals := [b.got.length] }])) ∧
      (s.admits c x 0x0305 = true → exec (.bulkcancel c xid) s = .next ((u.endBulk b stFailed 2 []).answer c 0x0305 stOk [])))) ∧
  (∀ (xid : Nat) (b : Bulk) (st d : BitVec 16) (s : State), s.bulk xid = some b →
    exec (.bulkPeerTimeout xid) s = .next (s.endBulk b stLost 0 []) ∧
    exec (.bulkAbort xid b.session st d) s = .next (s.closeBulk b st.toNat d.toNat) ∧
    (b.fromDevice = true → exec (.bulkDone xid b.session st d) s = .next (s.closeBulk b st.toNat d.toNat)) ∧
    (b.fromDevice = true → exec (.bulkResendTimeout xid) s =
      .next ((((b.sent.map (·.1)).filter fun k => !b.got.contains k).foldl (fun s k => s.resendChunk xid k) s).pump xid)) ∧
    (∀ y, s.net.chunks = [] → s.session b.session = some y → b.fromDevice = false → b.unacked ≠ 0 →
      exec (.bulkAckTimer xid) s = .next (s.acknowledge xid ((s.noticePort y).getD y.port)))) ∧
  (∀ (p : BulkData) (s : State), let e := p.port.val
    ((s.eth e).isUp = true → p.tagOk = false → exec (.bulkData p) s = .next (s.badTag e)) ∧
    (∀ b : Bulk, (s.eth e).isUp = true → p.tagOk = true → s.bulk p.xid = some b → b.fromDevice = false → b.session = p.session →
      p.chunk < b.chunks → p.bytes.length = b.chunkLen p.chunk →
      (b.got.contains p.chunk = true → b.complete = false → b.unacked + 1 < 32 →
        exec (.bulkData p) s = .next (s.setBulk { b with unacked := b.unacked + 1 })) ∧
      (b.got.contains p.chunk = false → s.chunkWaits b p.chunk = true → (let t : State := { s with net := { s.net with chunks := s.net.chunks ++ [p] } }
        exec (.bulkData p) s = .next (if s.net.chunks.any (fun o => o.port == p.port) then t else t.send (.pfc e true)))) ∧
      (b.got.contains p.chunk = false → s.chunkWaits b p.chunk = false →
        (∀ (st d : Nat) (v : State), s.landChunk b p.chunk p.bytes = (some (st, d), v) → exec (.bulkData p) s = .next (v.endBulk b st d [])) ∧
        (∀ (k : Bulk) (v : State), s.landChunk b p.chunk p.bytes = (none, v) → v.bulk p.xid = some k →
          (let n := { k with got := p.chunk :: k.got, unacked := k.unacked + 1 }
           (n.complete = true → exec (.bulkData p) s = .next (((v.setBulk n).acknowledge n.xid e).wholeBulk n)) ∧
           (n.complete = false → 32 ≤ n.unacked → exec (.bulkData p) s = .next ((v.setBulk n).acknowledge n.xid e)) ∧
           (n.complete = false → n.unacked < 32 → exec (.bulkData p) s = .next (v.setBulk n))))))) ∧
  (∀ (s : State) (b : Bulk) (kind : Nat) (want : Option Nat), b.use = .load kind want → kind < 2 →
    (let d := Config.sha384 (Sparse.getList 0 b.data 0 b.len)
     (want ≠ some d → s.wholeBulk b = s.endBulk b stFailed 1 [{ type := 0x82, vals := [d] }]) ∧
     (want = some d → s.wholeBulk b = (s.updQuire b.quire fun q => { q with
       log := q.log ++ [{ kind := kind + 1, addr := b.addr, len := b.len, digest := d }] }).endBulk b stOk 0 [{ type := 0x82, vals := [d] }]))) ∧
  (∀ (p : BulkAck) (b : Bulk) (s : State), (s.eth p.port.val).isUp = true → p.tagOk = true → s.bulk p.xid = some b → b.fromDevice = true →
    b.session = p.session →
    ((b.acked p).complete = true → exec (.bulkAcknowledgement p) s = .next ((s.setBulk (b.acked p)).endBulk (b.acked p) stOk 0 [])) ∧
    ((b.acked p).complete = false → (let again := ((b.acked p).missed.filter fun e => decide (3 ≤ e.2) && !(b.acked p).got.contains e.1).map (·.1)
      exec (.bulkAcknowledgement p) s = .next ((again.foldl (fun s k => s.resendChunk b.xid k) (s.setBulk (b.acked p))).pump b.xid))))

/-! ### Survival and recovery (16) -/

/-- What a strand declares for survival: its mark, once its stores have left the tile; that the quire cannot be replayed; and a checkpoint.
The commands of survival, where the gateway lets them run. -/
def Obligations.SurvivalInstructionsAndCommands : Prop :=
  (∀ (a : At) (f : RF) (s : State) (w : Warrant), w.kind = 6 → w.bit 26 = true →
    (∀ l : Xlate, s.ready a 4 true [f.rs1, f.rs2] = true → s.holdsWarrant a f.rd w = true → (s.strand a).status.gdepth = 0 →
      (let va := s.getG a f.rs1; let u := s.sendMerges a
       va.toNat % 64 = 0 → s.check a.t (s.auth a) .load va.toNat 64 false = .ok l → (u.tile a.t).storesDone a.h = true →
       exec (.qmark a f) s = .next ((u.updStrand a fun r => { r with
         stepRec := word (va.toNat % 2 ^ 56 + 2 ^ 63), stepPos := r.g f.rs2 }).completed a 4))) ∧
    (s.ready a 4 true [f.rs1, f.rs2] = true → s.holdsWarrant a f.rd w = true → (s.strand a).status.gdepth ≠ 0 →
      exec (.qmark a f) s = .next (s.raise a cGate 0 0 0)) ∧
    (s.ready a 4 true [] = true → f.rs1 = 0 → f.rs2 = 0 → s.holdsWarrant a f.rd w = true →
      exec (.qnorep a f) s = .next ((s.spoilReplay a 2).completed a 4)) ∧
    (let q := (s.tile a.t).quire.toNat; let t := s.spoilReplay a 2
     Sparse.get false t.noReplay q = true ∧ (Sparse.get false s.noReplay q = true → t = s) ∧ t.spoilReplay a 2 = t ∧
     (Sparse.get false s.noReplay q = false → (t.quire q).log = (s.quire q).log ++
       [{ kind := 5, addr := a.t.val + 256 * a.h.val + 2048 * 2, len := 0, digest := 0 }])) ∧
    (s.ready a 4 true [f.rd, f.rs2] = true → s.holdsWarrant a f.rs1 w = true → (let q := (s.tile a.t).quire.toNat; let b := (s.getG a f.rs2).toNat
      (∀ u : State, s.checkpointCode q b = (0, u) → exec (.qckpt a f) s = .next (((u.beginFreeze q b false).putG a f.rd 0).completed a 4)) ∧
      (∀ (n : Nat) (u : State), s.checkpointCode q b = (n + 1, u) → exec (.qckpt a f) s = .next ((u.putG a f.rd (word (n + 1))).completed a 4))))) ∧
  (∀ (c : Hdr) (x : Session) (s : State), let u := s.opened c x; let q := c.quire
    (∀ p : PartnerReq, s.admits c x 0x0600 = true →
      (s.survive.freeze.isSome = true → exec (.partner c p) s = .next (u.answer c 0x0600 stBusy [])) ∧
      (s.survive.freeze = none → s.survive.restoring = none → tagsApart s.power.tags p.tags = false →
        exec (.partner c p) s = .next (u.answer c 0x0600 stPolicy [])) ∧
      (s.survive.freeze = none → s.survive.restoring = none → tagsApart s.power.tags p.tags = true →
        (p.fourHeld = true ∨ p.noQuire = true → exec (.partner c p) s = .next (u.answer c 0x0600 stNoResource [])) ∧
        (p.fourHeld = false → p.noQuire = false → (let v := if s.survive.partner = some p.device.toNat then u else u.leavePartner
          exec (.partner c p) s = .next ((({ v with survive := { v.survive with
            partner := some p.device.toNat, partnerTags := p.tags } } : State).sendTags p.device.toNat).answer c 0x0600 stOk []))))) ∧
    (s.admits c x 0x0601 = true → ∃ (t : State) (n : Nat), exec (.ckestimate c) s = .next (t.answer c 0x0601 stOk
      [{ type := 0x81, vals := [n] }, { type := 0x82, vals := [(u.toCopy q).length] }]) ∧ t.mem = s.mem ∧ t.survive = s.survive) ∧
    (∀ bound : Nat, s.admits c x 0x0602 = true →
      (∀ v : State, u.checkpointCode q bound = (0, v) → exec (.checkpoint c bound) s =
        .next (((v.beginFreeze q bound false).defer c 0x0602 stPending [] (.checkpoint q)).spineWork false)) ∧
      (∀ v : State, u.checkpointCode q bound = (1, v) → exec (.checkpoint c bound) s = .next ((v.answer c 0x0602 stPolicy []).spineWork false)) ∧
      (∀ v : State, u.checkpointCode q bound = (2, v) → exec (.checkpoint c bound) s = .next ((v.answer c 0x0602 stBusy []).spineWork false)) ∧
      (∀ v : State, u.checkpointCode q bound = (3, v) → exec (.checkpoint c bound) s = .next ((v.answer c 0x0602 stNoResource []).spineWork false))) ∧
    (∀ p : RestoreReq, s.admits c x 0x0603 = true → u.surviving = true → exec (.restore c p) s = .next ((u.answer c 0x0603 stBusy []).spineWork false)) ∧
    (∀ p : RestoreReq, s.admits c x 0x0603 = true → u.surviving = false →
      ((u.routeOf p.device.toNat).isNone = true → exec (.restore c p) s = .next ((u.answer c 0x0603 stLost []).spineWork false)) ∧
      ((u.routeOf p.device.toNat).isSome = true → exec (.restore c p) s = .next ((({ u with survive := { u.survive with
        restoring := some { device := p.device.toNat, copyNum := 0, asked := false, copies := p.copies } } } : State).defer c 0x0603 stPending []
          .restore).spineWork false))) ∧
    (∀ regions : List Nat, s.admits c x 0x0605 = true → regions.all (u.regionsOf q).contains = true →
      (regions.all (fun i => (s.region i).state == .lost && s.lost.contains i) = true → ∃ t : State, exec (.recoverregion c regions) s =
        .next (t.twice c 0x0605 stPending [] stOk []) ∧ (∀ i ∈ regions, i ∉ t.lost ∧ (t.region i).state = .assigned ∧
          ∀ b < 2 ^ 21, Sparse.get 0 t.mem.bytes (2 ^ 21 * i + b) = 0) ∧ (∀ i, i ∉ regions → t.region i = s.region i)) ∧
      (regions.all (fun i => (s.region i).state == .lost && s.lost.contains i) = false →
        exec (.recoverregion c regions) s = .next (u.answer c 0x0605 stBadParam []))) ∧
    (∀ ch : Nat, s.admits c x 0x0606 = true → ch < 640 → s.mem.removed.contains ch = false → (s.chan ch).state ≠ .untrained →
      (s.mem.restripe = .running ∨ s.mem.restripe = .paused → exec (.mapout c ch) s = .next ((u.answer c 0x0606 stBusy []).spineWork false)) ∧
      (s.mem.restripe ≠ .running → s.mem.restripe ≠ .paused → exec (.mapout c ch) s = .next (((u.candidate ch false).defer c 0x0606 stPending [] (.mapout ch)).spineWork false))) ∧
    (s.admits c x 0x0607 = true →
      (s.bothSpines = true → exec (.failover c) s = .next (u.takeover.answer c 0x0607 stOk [])) ∧
      (s.bothSpines = false → exec (.failover c) s = .next (u.answer c 0x0607 stFailed []))))

/-- What a device does with the survival messages of others: checkpoints and restores.
What a device does about devices that go down or are lost, and about the groups that hold for one. -/
def Obligations.CheckpointAndLossMessages : Prop :=
  (∀ (m : CkMsg) (seals : List Nat) (s : State),
    (s.isReady = false → exec (.begin m seals) s = .next s) ∧
    (∀ (k : Nat) (v : State), s.isReady = true → s.copyQuire m.src.toNat m.quire.val = some (k, v) → (let w := v.dropIncoming k
      let room := ((List.range (512 * w.mem.ctop)).filter fun i => (w.region i).state == .free).take m.regions.toNat
      let gen := Sparse.get 0 (w.quire k).keys 0 == 0
      let sealed := seals.filterMap fun j => room[j]?
      (room.length < m.regions.toNat → exec (.begin m seals) s = .next s) ∧
      (m.regions.toNat ≤ room.length → exec (.begin m seals) s = .next ((sealed.foldl State.zeroRegion ((w.assignRegions k room false gen).assignRegions k
        sealed true gen)).updQuire k fun x => { x with incoming := some { number := m.number.toNat, fresh := room, got := 0 } })))) ∧
    exec (.checkpointAbandon m) s = .next ((s.copiesOf m.src.toNat m.quire.val).foldl State.dropIncoming s) ∧
    (∀ f : Freeze, s.survive.freeze = some f → f.restore = false → f.step = .streaming → f.quire = m.quire.val →
      s.survive.partner = some m.src.toNat → exec (.committed m) s = .next (((((s.updQuire f.quire fun x => { x with
        number := x.number + 1, position := s.leastMark f.quire, copied := true }).thaw f).post f.quire 2 none).finishWhere
          (· == .checkpoint f.quire) stOk []))) ∧
    (s.survive.freeze = none → exec (.committed m) s = .next s) ∧
    (∀ f : Freeze, s.survive.freeze = some f → f.restore = false → exec .checkpointBoundExpiry s = .next s.abandonFreeze) ∧
    (∀ k : Nat, s.copiesOf m.src.toNat m.quire.val = [k] → (let rs := s.regionsOf k
      let v := rs.foldl (fun s i => s.streamMemory m.src.toNat m.quire.val k i) (s.meet fun u => rs.contains (u / 65536)).2
      exec (.restoreRequest m) s = .next (v.sendSpine m.src.toNat 0x3F
        ([5, BitVec.ofNat 8 m.quire.val] ++ leBytes 2 0 ++ leBytes 4 (v.quire k).number ++ leBytes 4 rs.length)))) ∧
    (∀ (r : Restoring) k rest, s.survive.restoring = some r → r.copies = k :: rest → r.asked = true →
      m.src.toNat = r.device → k.quire = m.quire →
      (s.survive.freeze = none → exec (.restoreDone m) s = .next ((s.restoreFresh k r rest).spineWork false)) ∧
      (∀ f : Freeze, s.survive.freeze = some f → f.restore = true → f.quire = m.quire.val → f.step = .streaming →
        exec (.restoreDone m) s = .next ((s.restoreRunning k r rest).spineWork false)))) ∧
  (∀ (d : DeviceId) (inc : BitVec 32) (m : GroupMsg) (s : State), let g := m.group.val
    (exec (.goingDown d inc) s = .next (s.lossMessage 1 d.toNat inc.toNat) ∧ exec (.deviceLost d inc) s = .next (s.lossMessage 2 d.toNat inc.toNat)) ∧
    (∀ main backup : BitVec 6, s.survive.partner = some d.toNat → exec (.feedTags d main backup) s =
      .next { s with survive := { s.survive with partnerTags := { main := main, backup := backup } } }) ∧
    (∀ main backup : BitVec 6, s.survive.partner ≠ some d.toNat → exec (.feedTags d main backup) s = .next (s.sendTags d.toNat)) ∧
    exec (.probe d inc) s = .next (s.sendSpine d.toNat 0x3D (healthBytes 4 s.device.toNat s.incarnation)) ∧
    exec (.probeReply d inc) s = .next { s with survive := { s.survive with probes := s.survive.probes.filter (·.1 ≠ d.toNat) } } ∧
    (s.survive.probes.contains (d.toNat, inc.toNat) = true → exec (.probeTimeout d inc) s = .next (({ s with survive := { s.survive with
      probes := s.survive.probes.filter (· ≠ (d.toNat, inc.toNat)) } } : State).lossMessage 2 d.toNat inc.toNat)) ∧
    (let ps := (List.range 16).filter fun p => (s.port p).peer == d.toNat && (s.port p).incarnation == inc.toNat && (s.port p).state ≠ .off
     ps ≠ [] → (∀ p ∈ ps, (s.port p).state = .failed) → exec (.portLossTimer d inc) s = .next (({ s with survive := { s.survive with
       probes := s.survive.probes ++ [(d.toNat, inc.toNat)] } } : State).sendSpine d.toNat 0x3D (healthBytes 3 s.device.toNat s.incarnation))) ∧
    (∀ (e : Group) (h : GroupHold), s.group g = some e → (s.rankOf e m.src.toNat).isSome = true → s.holdOf g = some h →
      exec (.hold m) s = .next (s.answerHeld g) ∧ exec (.release m) s = .next (s.releaseGroup g) ∧ exec (.mismatch m) s = .next (s.alarm .groupMismatch g) ∧
      exec (.held m) s = .next (s.asCoordinator m fun e h => s.takeHeld g e h m.src.toNat) ∧
      exec (.rejoin m) s = .next (s.asCoordinator m fun e h => s.takeRejoin g e h m.src.toNat m.nextseq.toNat m.gsig.toNat)) ∧
    (∀ (e : Group) (rank : Nat) (v : State), s.group g = some e → (s.rankOf e m.src.toNat).isSome = true → s.holdOf g = none →
      (let h : GroupHold := { lost := [], held := [], told := false, rejoined := [] }
       s.lostRank e h = (rank, v) → exec (.hold m) s = .next ((((v.colls.filter (·.group == g)).foldl (fun s c => s.abortColl g c.seq 3 rank)
         (v.setHold g (some h))).post e.quire 7 (some g)).answerHeld g))) ∧
    (s.mayFailOver = true → exec .spineHeartbeatTimeout s = .next s.takeover ∧ exec .spineFaultReport s = .next s.takeover) ∧
    (s.mayFailOver = false → s.bothSpines = false → exec .spineFaultReport s =
      .next { s with spine := { s.spine with up0 := false, up1 := false } }) ∧
    (s.spineUp = true → exec .spineWatchdogExpiry s = .next s) ∧
    (s.spineUp = false → exec .spineWatchdogExpiry s = .next ((List.range 16).foldl (fun s p =>
      if (s.port p).state = .off then s else s.failPort p 0) (s.flood 1 s.device.toNat s.incarnation))))

/-! ### Fabric, power and bring-up (10, 14, 15, 17) -/

/-- The commands of the fabric, where the gateway lets them run: what they refuse, and that what they set goes into the registers and into the
record in flash alike. -/
def Obligations.FabricCommands : Prop :=
  ∀ (c : Hdr) (x : Session) (s : State), let u := s.opened c x
    (∀ p : GeometryReq, s.admits c x 0x0700 = true →
      (geometryOk p (p.hop.getD 256) = false → exec (.geometry c p) s = .next (u.answer c 0x0700 stBadParam [])) ∧
      (geometryOk p (p.hop.getD 256) = true → (∃ q < 16, (s.quire q).use ≠ .free) → exec (.geometry c p) s = .next (u.answer c 0x0700 stPolicy [])) ∧
      (geometryOk p (p.hop.getD 256) = true → (∀ q < 16, (s.quire q).use = .free) → ∃ t : State, exec (.geometry c p) s =
        .next (t.answer c 0x0700 stOk []) ∧ t.device = BitVec.ofNat 20 p.device ∧ t.splice.hoplimit = p.hop.getD 256 ∧
        (∀ d, t.dim d = (p.dims.map fun d => ({ size := d.1, ring := d.2 } : Dim)).getD d Dim.reset) ∧
        t.flash.device = p.device ∧ t.flash.dims = t.splice.dims ∧ t.flash.hoplimit = t.splice.hoplimit)) ∧
    (∀ p : PortCfgReq, s.admits c x 0x0701 = true →
      (portcfgOk p = false → exec (.portcfg c p) s = .next (u.answer c 0x0701 stBadParam [])) ∧
      (portcfgOk p = true → (s.port p.port).moving = true → exec (.portcfg c p) s = .next (u.answer c 0x0701 stBusy [])) ∧
      (portcfgOk p = true → (s.port p.port).moving = false → (let o := s.port p.port
        let n := { o with
          dim := p.dim.getD o.dim, minus := bitOr p.dir o.minus, member := bitOr p.member o.member, halfok := bitOr p.halfok o.halfok
          rto := p.rto.getD o.rto, drainto := p.drainto.getD o.drainto }
        let r : PortRecord := { dim := n.dim, minus := n.minus, member := n.member, halfok := n.halfok, rto := n.rto, drainto := n.drainto }
        let v := u.setPort p.port n
        exec (.portcfg c p) s = .next (({ v with flash := { v.flash with ports := Sparse.set PortRecord.reset s.flash.ports p.port r } } :
          State).answer c 0x0701 stOk [])))) ∧
    (∀ mask : BitVec 16, s.admits c x 0x0702 = true →
      (∀ enable : Bool, (∃ p ∈ onesOf mask, (s.port p).moving = true) →
        exec (.porten c mask enable) s = .next ((u.answer c 0x0702 stBusy []).spineWork false)) ∧
      ((∀ p ∈ onesOf mask, (s.port p).moving = false) →
        exec (.porten c mask true) s = .next ((((onesOf mask).foldl State.enablePort u).defer c 0x0702 stPending []
          (.splice (onesOf mask) true [])).spineWork false) ∧
        exec (.porten c mask false) s = .next ((((onesOf mask).foldl State.disablePort u).defer c 0x0702 stDraining []
          (.splice (onesOf mask) false ((onesOf mask).map fun p => (s.port p).abandon))).spineWork false))) ∧
    (∀ mask : BitVec 16, s.admits c x 0x0703 = true → exec (.portstat c mask) s = .next (u.answer c 0x0703 stOk
      [{ type := 0x81, vals := (onesOf mask).flatMap fun p =>
        [(s.port p).stateWord.toNat, (s.port p).errWord.toNat, (s.port p).err2Word.toNat] }])) ∧
    (∀ es : List OvrReq, s.admits c x 0x0704 = true →
      ((∃ e ∈ es, 1024 ≤ e.index ∨ 2 ^ 20 ≤ e.first ∨ 2 ^ 20 < e.count ∨ 16 ≤ e.port) →
        exec (.override c es) s = .next (u.answer c 0x0704 stBadParam [])) ∧
      ((∀ e ∈ es, e.index < 1024 ∧ e.first < 2 ^ 20 ∧ e.count ≤ 2 ^ 20 ∧ e.port < 16) →
        (let put (m : Sparse Ovr) : Sparse Ovr := es.foldl (fun m e =>
           Sparse.set Ovr.reset m e.index { first := e.first, count := e.count, port := e.port, valid := e.valid }) m
         exec (.override c es) s = .next (({ u with splice := { u.splice with ovr := put s.splice.ovr }
                                                    flash := { u.flash with ovr := put s.flash.ovr } } : State).answer c 0x0704 stOk []))))

/-- The commands of power and of energy, where the gateway lets them run: what PLANSET refuses and sets, and what the others answer.
What happens to power, energy and clocks: the refill, the calibration, the margins, the risk, the plan period, and the feeds. -/
def Obligations.PowerCommandsAndEvents : Prop :=
  (∀ (c : Hdr) (x : Session) (s : State), let u := s.opened c x
    (∀ p : PlanReq, s.admits c x 0x0800 = true →
      (p.sustained = none → p.excursion = none → p.length = none → p.ceilings = none →
        exec (.planset c p) s = .next (u.answer c 0x0800 stBadParam [])) ∧
      (∀ l, p.ceilings = some l → l.length ≠ 16 ∨ (∃ v ∈ l, 900 < v) → exec (.planset c p) s = .next (u.answer c 0x0800 stBadParam [])) ∧
      ((p.sustained.isSome || p.excursion.isSome || p.length.isSome || p.ceilings.isSome) = true →
        (∀ l, p.ceilings = some l → l.length = 16 ∧ ∀ v ∈ l, v ≤ 900) →
        (let sus := (p.sustained.map (1000 * ·)).getD s.power.sustained
         let exc := (p.excursion.map (1000 * ·)).getD s.power.excursion; let len := p.length.getD s.power.length
         (3200000 < sus ∨ 3800000 < exc ∨ 20 < len ∨ sus < 1800000 ∨ sus < shared + u.shares ∨ exc < sus →
           exec (.planset c p) s = .next (u.answer c 0x0800 stPolicy [])) ∧
         (sus ≤ 3200000 → exc ≤ 3800000 → len ≤ 20 → 1800000 ≤ sus → shared + u.shares ≤ sus → sus ≤ exc → ∃ t : State,
           exec (.planset c p) s = .next (t.replan.answer c 0x0800 stOk []) ∧ t.power.sustained = sus ∧ t.power.excursion = exc ∧
           t.power.length = len ∧ t.power.credit = min s.power.credit ((exc - sus) * len) ∧
           (p.ceilings = none → t.islands = s.islands) ∧
           (∀ l, p.ceilings = some l → ∀ i < 16, (t.island i).ceiling = l.getD i 900))))) ∧
    (s.admits c x 0x0801 = true → exec (.planget c) s = .next (u.answer c 0x0801 stOk
      [{ type := 0x81, vals := [s.power.sustained / 1000, s.power.excursion / 1000, s.power.length] ++
        (List.range 16).map (fun i => (s.island i).ceiling) ++ (List.range 16).map (fun i => (s.island i).mv) },
       { type := 0x82, vals := [s.power.planseq] }])) ∧
    (∀ (n q : Nat), s.admits c x 0x0802 = true → x.role = .quire q → exec (.reading c n) s =
      .next (u.answer c 0x0802 stOk [{ type := 0x81, vals := (s.quire q).windowWords.take n }])) ∧
    (∀ n : Nat, s.admits c x 0x0802 = true → x.role = .owner → ∃ vals, exec (.reading c n) s =
      .next (({ u with free := s.free + 1 } : State).answer c 0x0802 stOk [{ type := 0x81, vals := vals }])) ∧
    (s.admits c x 0x0803 = true → ∃ main backup : Tlv, exec (.feeds c) s = .next (u.answer c 0x0803 stOk [main, backup]) ∧
      main.vals.head? = some s.power.tags.main.toNat ∧ backup.vals.head? = some s.power.tags.backup.toNat)) ∧
  (∀ (f : Feed) (s : State),
    (s.spineUp = true → exec .grantRefill s = .next (allTiles.foldl (fun s t => s.updTile t Tile.refill) s)) ∧
    (s.spineUp = false → exec .grantRefill s = .next s) ∧
    (∀ (i : IslandId) (period : BitVec 32), ∃ t : State, exec (.ringCalibration i period) s = .next t ∧ (t.island i.val).period = period.toNat ∧
      (t.island i.val).calvalid = true ∧ (t.island i.val).calseq = ((s.island i.val).calseq + 1) % 65536 ∧
      (∀ j, j ≠ i.val → t.island j = s.island j) ∧ t.tiles = s.tiles) ∧
    (∀ t : TileId, (s.tile t).delay.step < 255 → exec (.marginLengthen t) s = .next (s.updTile t fun x => { x with
      delay := { x.delay with step := x.delay.step + 1, margin := min x.delay.margin 1, longer := (x.delay.longer + 1) % 65536 } })) ∧
    (∀ t : TileId, 255 ≤ (s.tile t).delay.step → exec (.marginLengthen t) s = .next (s.updTile t fun x => { x with
      delay := { x.delay with margin := min x.delay.margin 1 } })) ∧
    exec .riskDecay s = .next ({ s with score := s.score - 1 } : State).watchRisk ∧
    (∀ m : PlanMeasure, s.isReady = false → exec (.energyPlan m) s = .next s) ∧
    (∀ m : PlanMeasure, s.isReady = true → ∃ t : State, exec (.energyPlan m) s = .next t ∧ t.power.ticks = s.power.ticks + 1 ∧
      t.power.planseq = (s.power.planseq + 1) % 65536 ∧ t.mem = s.mem ∧ t.splice = s.splice ∧ t.flash = s.flash) ∧
    exec (.feedFail f) s = .next (s.feedFails f) ∧
    (s.power.state = .main → exec (.feedNotGood .backup) s = .next (((s.setGood .backup false).setFeedState .single).watchRisk).replan) ∧
    (s.power.state = .main → exec (.feedNotGood .main) s = .next (s.setGood .main false)) ∧
    (s.power.state = .single → s.power.inUse = .main → s.power.tags.backup ≠ 0x3F →
      exec (.feedGood .backup) s = .next (((s.setGood .backup true).setFeedState .main).watchRisk).replan) ∧
    (s.power.tags.backup = 0x3F → exec (.feedGood .backup) s = .next s) ∧
    (s.power.state = .switching → s.power.inUse = .backup →
      (∀ tags : FeedTags, let r := s.readStraps tags; let v := ((r.setFeedState (if (r.feedInfo .main).good then .backup else .single)).watchRisk).replan
        exec (.feedTransferDone tags) s = .next (match v.survive.partner with | none => v | some d => v.sendTags d))) ∧
    (s.power.state = .backup → (s.feedInfo .main).good = true → exec .mainGoodTimer s = .next (s.switchTo .main)) ∧
    (∀ r : PmbusReply, s.power.state ≠ .off → r.answered = true → (let v := s.setFeed f { s.feedInfo f with missed := 0, vin := r.vin, iout := r.iout }
      (r.fault = true → exec (.pmbusPoll f r) s = .next (v.feedFails f)) ∧ (r.fault = false → exec (.pmbusPoll f r) s = .next v))) ∧
    (∀ r : PmbusReply, s.power.state ≠ .off → r.answered = false → (s.feedInfo f).missed = 2 → exec (.pmbusPoll f r) s =
      .next ((s.setFeed f { s.feedInfo f with missed := 3 }).alarm .shelfSilent f.ctorIdx)))

/-- The firmware commands, where the gateway lets them run.
Bring-up goes stage by stage: each stage's event does nothing outside its stage, stops bring-up with its reason, or goes on; and power, reset
and the thermal trip. -/
def Obligations.FirmwareAndBringUp : Prop :=
  (∀ (c : Hdr) (x : Session) (s : State), let u := s.opened c x
    (s.admits c x 0x0A01 = true →
      (s.flash.staged = none → exec (.fwverify c) s = .next (u.answer c 0x0A01 stFailed [])) ∧
      (∀ i, s.flash.staged = some i → u.stagedOk i = true → exec (.fwverify c) s = .next (({ u with flash := { u.flash with verified := true } } :
        State).answer c 0x0A01 stOk [{ type := 0x81, vals := [stagedDigest i] }])) ∧
      (∀ i, s.flash.staged = some i → u.stagedOk i = false →
        exec (.fwverify c) s = .next (u.answer c 0x0A01 stFailed [{ type := 0x81, vals := [stagedDigest i] }]))) ∧
    (∀ now : Nat, s.admits c x 0x0A02 = true → s.isReady = true →
      (1 < now → exec (.fwactivate c now) s = .next (u.answer c 0x0A02 stBadParam [])) ∧
      (now ≤ 1 → s.flash.verified = false → exec (.fwactivate c now) s = .next (u.answer c 0x0A02 stFailed [])) ∧
      (now = 0 → s.flash.verified = true → s.flash.staged.bind (·.owner) = none → exec (.fwactivate c now) s = .next
        (({ u with flash := { u.flash with pointer := u.targetSlot, staged := none } } : State).twice c 0x0A02 stPending [] stOk [])) ∧
      (∀ o, now ≤ 1 → s.flash.verified = true → s.flash.staged.bind (·.owner) = some o → exec (.fwactivate c now) s = .next (({ u with flash := { u.flash with
        owners := s.flash.owners ++ [o], staged := none, verified := false } } : State).twice c 0x0A02 stPending [] stOk []))) ∧
    (s.admits c x 0x0A02 = true → s.isReady = true → s.flash.verified = true → s.flash.staged.bind (·.owner) = none →
      (u.slotAt u.targetSlot).digests.drop 2 = u.slot.digests.drop 2 → s.bothSpines = true →
      (let v := ({ u with flash := { u.flash with pointer := u.targetSlot, staged := none } } : State).handOver
       exec (.fwactivate c 1) s = .next (({ v with spine := { v.spine with primary := !v.spine.primary }
                                                   boot := { v.boot with slot := u.targetSlot } } : State).twice c 0x0A02 stPending [] stOk []))) ∧
    (s.admits c x 0x0A03 = true → ∃ rest, exec (.fwinfo c) s = .next (u.answer c 0x0A03 stOk
      [{ type := 0x81, vals := natOf s.boot.slot :: s.slot.svn :: rest }])) ∧
    (∀ p : HelloReq, (s.eth c.port.val).isUp = true → s.spineUp = true →
      (packetOk c = false ∨ c.clear = false → exec (.hello c p) s = .next (s.dropPkt c.port.val)) ∧
      (packetOk c = true → c.clear = true →
        (s.boot.stage < 3 → exec (.hello c p) s = .next (s.replyClear c 1 stNotReady [{ type := 0xF0, vals := [s.stageByte] }])) ∧
        (3 ≤ s.boot.stage → c.part = 0 → c.more = false →
          (∀ t : Nat, defectOf c 1 = some t → exec (.hello c p) s = .next (s.replyClear c 1 stBadParam [{ type := 0xF1, vals := [t] }])) ∧
          (defectOf c 1 = none → c.version ≠ 1 ∨ p.maxPayload < 1280 ∨ 8972 < p.maxPayload ∨ p.nonce.length ≠ 48 →
            exec (.hello c p) s = .next (s.replyClear c 1 stBadParam [])) ∧
          (defectOf c 1 = none → c.version = 1 → 1280 ≤ p.maxPayload → p.maxPayload ≤ 8972 → p.nonce.length = 48 →
            (64 ≤ (s.net.sessions.filter (·.2.isSome)).length → exec (.hello c p) s = .next (s.replyClear c 1 stNoResource [])) ∧
            ((s.net.sessions.filter (·.2.isSome)).length < 64 → ∃ (t : State) (y : Session), exec (.hello c p) s = .next t ∧
              t.session s.net.nextSession = some y ∧ y.role = .noRole ∧ y.epoch = 0 ∧ y.high = 0 ∧ y.stored = [] ∧ y.port = c.port.val ∧
              y.source = c.source ∧ y.maxPayload = p.maxPayload ∧ y.keys = sessionKeys y.secrets y.transcript ∧
              t.net.nextSession = s.net.nextSession + 1 ∧ t.tiles = s.tiles ∧ t.mem = s.mem)))))) ∧
  (∀ s : State,
    (∀ ok0 ok1 eth, s.atStage 0 = false → exec (.stageRom ok0 ok1 eth) s = .next s) ∧
    (∀ ok0 ok1 eth, s.atStage 0 = true → ∃ t : State, exec (.stageRom ok0 ok1 eth) s = .next (t.spinesPass ok0 ok1 1 1) ∧
      ∀ e < 8, (t.eth e).en = true ∧ (t.eth e).state = (if eth.getLsbD e then .up else .failed)) ∧
    (∀ p : FirmwareCheck, s.atStage 1 = true → p.chainOk = false → exec (.stageFirmware p) s = .next (s.stopBoot 3)) ∧
    (∀ p : FirmwareCheck, s.atStage 1 = true → p.chainOk = true →
      s.slotPasses s.flash.pointer (if s.flash.pointer then p.slot1Ok else p.slot0Ok) = true → exec (.stageFirmware p) s =
        .next (({ s with boot := { s.boot with slot := s.flash.pointer } } : State).spinesPass p.xd0Ok (p.xd1Ok && (p.sameSlot || !p.xd0Ok || !s.spine.up0)) 2 2)) ∧
    (∀ ok0 ok1, s.atStage 2 = true → (let t := s.spinesPass ok0 ok1 4 3
      exec (.stageKeys ok0 ok1) s = .next (if t.boot.stage = 3 then t.makeKeys else t))) ∧
    (∀ r : ManufRecord, s.atStage 3 = true →
      ((r.formOk && r.deviceOk && r.sigsOk && recordArraysOk r) = false → exec (.stageRecord r) s = .next (s.stopBoot 5)) ∧
      ((r.formOk && r.deviceOk && r.sigsOk && recordArraysOk r) = true → ∃ t : State, exec (.stageRecord r) s = .next t ∧ t.boot.stage = 4 ∧
        t.boot.record = some r ∧ t.grade768 = (r.grade == 0) ∧ (∀ e < 8, (t.eth e).mac = r.macs.getD e 0))) ∧
    (∀ failed : List Nat, s.atStage 4 = true → s.hbm.any (fun e => e.2.level == 0) = false → exec (.stageMemory false failed) s = .next (s.stopBoot 6)) ∧
    (∀ failed : List Nat, s.atStage 4 = true → s.hbm.any (fun e => e.2.level == 0) = false →
      (let out := (List.range 640).filter fun c => ((s.boot.record.map (·.chx)).getD []).contains c || s.flash.channels.contains c || failed.contains c
       out.length ≤ 32 → ∃ t : State, exec (.stageMemory true failed) s = .next t ∧ t.boot.stage = 5 ∧ t.mem.n = 640 - out.length ∧
         t.mem.ctop = capacity (640 - out.length) ∧ t.mem.removed = out ∧
         (∀ c < 640, (t.chan c).state = if out.contains c then .mappedOut else .live))) ∧
    (s.atStage 5 = true → exec .stageLinksTimeout s = .next s.endLinks) ∧
    (s.atStage 5 = true → (∀ p < 16, ¬ ((s.port p).member = true ∧ (s.port p).state = .training)) → exec .stageLinks s = .next s.endLinks) ∧
    (∀ failed steps, s.atStage 6 = true → exec (.stageTiles false failed steps) s = .next (s.stopBoot 7)) ∧
    (∀ failed steps, s.atStage 6 = true → ∃ t : State, exec (.stageTiles true failed steps) s = .next t.watchRisk ∧ t.splice.ready = true ∧
      t.mem.isOpen = true ∧ t.boot.stage = 7 ∧ (∀ i < 16, (t.island i).mv = 750 ∧ (t.island i).calvalid = true)) ∧
    (s.power.state = .lost → ∃ t : State, exec .holdupExhausted s = .next t ∧ t.power.state = .off ∧ t.boot.tripped = s.boot.tripped) ∧
    (∀ (m b : Bool) (tags : FeedTags), s.power.state = .off → ∃ t : State, exec (.powerUp m b tags) s = .next t ∧ t.power.tags = tags ∧
      t.boot.tripped = false ∧ t.pins.thermtrip = false ∧
      (t.power.state, t.power.inUse) = firstFeed (m && tags.main ≠ 0x3F) (b && tags.backup ≠ 0x3F)) ∧
    (s.boot.low = false → s.power.state ≠ .off → s.boot.tripped = false → exec .moduleReset s =
      .next { s.cold s.power.state s.power.inUse with
        boot := { (s.cold s.power.state s.power.inUse).boot with low := true }, pins := { (s.cold s.power.state s.power.inUse).pins with thermtrip := false } }) ∧
    (s.boot.low = false → s.boot.tripped = true →
      (let f := firstFeed (s.feedInfo .main).good (s.feedInfo .backup).good; let v := s.cold f.1 f.2
       exec .moduleReset s = .next { v with boot := { v.boot with low := true }, pins := { v.pins with thermtrip := false } })) ∧
    exec .mrstNRelease s = .next { s with boot := { s.boot with low := false } } ∧
    (∀ tj ts : BitVec 16, s.power.state ≠ .off → s.boot.tripped = false → 448 ≤ tj.toNat ∨ 440 ≤ ts.toNat → exec (.thermtrip tj ts) s =
      .next (((({ s with pins := { s.pins with thermtrip := true }, boot := { s.boot with tripped := true } } : State).setFeedState .lost).alarm
        .thermtrip 0).flood 1 s.device.toNat s.incarnation)) ∧
    (∀ tj ts : BitVec 16, tj.toNat < 448 → ts.toNat < 440 → exec (.thermtrip tj ts) s = .next s) ∧
    (∀ (a : BitVec 7) (r : SensorBlock) (k : BitVec 8), s.smbusHears a = true → exec (.smbusOtherCommand a k) s = .next (s.setSmbus none) ∧
      (s.auxPower = true → exec (.smbusStatusRead a r) s = .next (s.setSmbus (some (s.statusBlock r))))))
end

