-- ==== Sys2Proof/Laws/Table.lean ====
section
/-! SUPPORT. Sparse tables: what reading after a change gives, and that every change keeps the canonical form. -/

namespace Sys2Proof

variable {α : Type}

theorem Sparse.get_cons (d : α) (e : Nat × α) (m : Sparse α) (k : Nat) :
    Sparse.get d (e :: m) k = if e.1 = k then e.2 else Sparse.get d m k := rfl

theorem Sparse.get_erase (d : α) (m : Sparse α) (k j : Nat) :
    Sparse.get d (Sparse.erase m k) j = if j = k then d else Sparse.get d m j := by
  induction m with
  | nil => simp [Sparse.erase, Sparse.get]
  | cons e m ih =>
    unfold Sparse.erase at ih ⊢
    by_cases h : e.1 = k
    · rw [List.filter_cons_of_neg (by simpa using h), ih, Sparse.get_cons]
      by_cases hj : j = k
      · simp [hj]
      · simp [hj, h, show k ≠ j from fun c => hj c.symm]
    · rw [List.filter_cons_of_pos (by simpa using h), Sparse.get_cons, Sparse.get_cons, ih]
      by_cases hj : e.1 = j
      · simp [hj, show j ≠ k from fun c => h (hj.trans c)]
      · simp [hj]

/-- Every number listed in `m` differs from `k`. -/
theorem Sparse.erase_ne {m : Sparse α} {k : Nat} {e : Nat × α} (h : e ∈ Sparse.erase m k) : e.1 ≠ k := by
  simpa using (List.mem_filter.mp h).2

theorem Sparse.get_put (d v : α) (k j : Nat) (m : Sparse α) (h : ∀ e ∈ m, e.1 ≠ k) :
    Sparse.get d (Sparse.put k v m) j = if j = k then v else Sparse.get d m j := by
  induction m with
  | nil => simp [Sparse.put, Sparse.get, eq_comm]
  | cons e m ih =>
    have he : e.1 ≠ k := h e (List.mem_cons_self ..)
    have ih := ih fun x hx => h x (List.mem_cons_of_mem _ hx)
    unfold Sparse.put
    split
    · rw [Sparse.get_cons]; simp [eq_comm]
    · rw [Sparse.get_cons, Sparse.get_cons, ih]
      by_cases hj : e.1 = j
      · simp [hj, show j ≠ k from fun c => he (hj.trans c)]
      · simp [hj]

/-- Reading a table after setting one number. -/
theorem Sparse.get_set [DecidableEq α] (d : α) (m : Sparse α) (k j : Nat) (v : α) :
    Sparse.get d (Sparse.set d m k v) j = if j = k then v else Sparse.get d m j := by
  unfold Sparse.set
  split
  · rename_i h; subst h; exact Sparse.get_erase ..
  · rw [Sparse.get_put _ _ _ _ _ fun e he => Sparse.erase_ne he, Sparse.get_erase]
    split <;> rfl

theorem Sparse.erase_put (v : α) (k : Nat) (m : Sparse α) : Sparse.erase (Sparse.put k v m) k = Sparse.erase m k := by
  induction m with
  | nil => simp [Sparse.put, Sparse.erase]
  | cons e m ih =>
    unfold Sparse.put
    split
    · simp [Sparse.erase]
    · unfold Sparse.erase at ih ⊢
      rw [List.filter_cons, List.filter_cons, ih]

/-- The later of two writes to one number is what the table holds. -/
@[simp] theorem Sparse.set_set [DecidableEq α] (d : α) (m : Sparse α) (k : Nat) (v w : α) :
    Sparse.set d (Sparse.set d m k v) k w = Sparse.set d m k w := by
  have e : Sparse.erase (Sparse.set d m k v) k = Sparse.erase m k := by
    unfold Sparse.set
    split
    · simp [Sparse.erase, List.filter_filter]
    · rw [Sparse.erase_put]; simp [Sparse.erase, List.filter_filter]
  unfold Sparse.set at e ⊢
  rw [e]

@[simp] theorem Sparse.get_set_self [DecidableEq α] (d : α) (m : Sparse α) (k : Nat) (v : α) :
    Sparse.get d (Sparse.set d m k v) k = v := by simp [Sparse.get_set]

theorem Sparse.get_set_ne [DecidableEq α] (d : α) (m : Sparse α) {k j : Nat} (v : α) (h : j ≠ k) :
    Sparse.get d (Sparse.set d m k v) j = Sparse.get d m j := by simp [Sparse.get_set, h]

theorem Sparse.wf_iff [DecidableEq α] {d : α} {m : Sparse α} :
    Sparse.wf d m = true ↔ m.Pairwise (fun a b => a.1 < b.1) ∧ ∀ e ∈ m, e.2 ≠ d := by
  simp [Sparse.wf]

theorem Sparse.wf_filter [DecidableEq α] {d : α} {m : Sparse α} (p : Nat × α → Bool) (h : Sparse.wf d m = true) :
    Sparse.wf d (m.filter p) = true := by
  rw [Sparse.wf_iff] at h ⊢
  exact ⟨h.1.filter p, fun e he => h.2 e (List.mem_filter.mp he).1⟩

theorem Sparse.wf_erase [DecidableEq α] {d : α} {m : Sparse α} (k : Nat) (h : Sparse.wf d m = true) :
    Sparse.wf d (Sparse.erase m k) = true := Sparse.wf_filter _ h

theorem Sparse.wf_clear [DecidableEq α] {d : α} {m : Sparse α} (k n : Nat) (h : Sparse.wf d m = true) :
    Sparse.wf d (Sparse.clear m k n) = true := Sparse.wf_filter _ h

theorem Sparse.mem_put {k : Nat} {v : α} {m : Sparse α} {e : Nat × α} (h : e ∈ Sparse.put k v m) : e = (k, v) ∨ e ∈ m := by
  induction m with
  | nil => simpa [Sparse.put] using h
  | cons x m ih =>
    unfold Sparse.put at h
    split at h
    · simpa using h
    · rcases List.mem_cons.mp h with h | h
      · exact .inr (h ▸ List.mem_cons_self ..)
      · exact (ih h).imp id (List.mem_cons_of_mem _)

theorem Sparse.put_pairwise {k : Nat} {v : α} {m : Sparse α} (h : m.Pairwise (fun a b => a.1 < b.1)) (hk : ∀ e ∈ m, e.1 ≠ k) :
    (Sparse.put k v m).Pairwise (fun a b => a.1 < b.1) := by
  induction m with
  | nil => simp [Sparse.put]
  | cons x m ih =>
    have hx := List.pairwise_cons.mp h
    unfold Sparse.put
    split
    · rename_i hlt
      refine List.pairwise_cons.mpr ⟨fun e he => ?_, h⟩
      rcases List.mem_cons.mp he with rfl | he
      · exact hlt
      · exact hlt.trans (hx.1 e he)
    · rename_i hge
      refine List.pairwise_cons.mpr ⟨fun e he => ?_, ih hx.2 fun e he => hk e (List.mem_cons_of_mem _ he)⟩
      rcases Sparse.mem_put he with rfl | he
      · exact lt_of_le_of_ne (Nat.le_of_not_lt hge) (hk x (List.mem_cons_self ..))
      · exact hx.1 e he

theorem Sparse.wf_set [DecidableEq α] {d : α} {m : Sparse α} (k : Nat) (v : α) (h : Sparse.wf d m = true) :
    Sparse.wf d (Sparse.set d m k v) = true := by
  unfold Sparse.set
  split
  · exact Sparse.wf_erase k h
  · rename_i hv
    have he := Sparse.wf_iff.mp (Sparse.wf_erase k h)
    refine Sparse.wf_iff.mpr ⟨Sparse.put_pairwise he.1 fun e he => Sparse.erase_ne he, fun e hm => ?_⟩
    rcases Sparse.mem_put hm with rfl | hm
    · exact hv
    · exact he.2 e hm

theorem Sparse.wf_setList [DecidableEq α] {d : α} {m : Sparse α} (k : Nat) (vs : List α) (h : Sparse.wf d m = true) :
    Sparse.wf d (Sparse.setList d m k vs) = true := by
  induction vs generalizing m k with
  | nil => exact h
  | cons v vs ih => exact ih _ (Sparse.wf_set k v h)

/-- Reading a table after setting a run of numbers. -/
theorem Sparse.get_setList [DecidableEq α] (d : α) (m : Sparse α) (k j : Nat) (vs : List α) :
    Sparse.get d (Sparse.setList d m k vs) j = if k ≤ j ∧ j < k + vs.length then vs.getD (j - k) d else Sparse.get d m j := by
  induction vs generalizing m k with
  | nil => rw [Sparse.setList, if_neg (by simp only [List.length_nil]; omega)]
  | cons v vs ih =>
    rw [Sparse.setList, ih]
    by_cases hj : j = k
    · subst hj; simp [Sparse.get_set]
    · by_cases h1 : k + 1 ≤ j ∧ j < k + 1 + vs.length
      · have : j - k = (j - (k + 1)) + 1 := by omega
        have h2 : k ≤ j ∧ j < k + (v :: vs).length := by simp only [List.length_cons]; omega
        rw [if_pos h1, if_pos h2, this, List.getD_cons_succ]
      · have h2 : ¬ (k ≤ j ∧ j < k + (v :: vs).length) := by simp only [List.length_cons]; omega
        rw [if_neg h1, if_neg h2, Sparse.get_set_ne _ _ _ hj]

end Sys2Proof
end

