-- ==== Sys2Proof/Laws/State.lean ====
section
/-! SUPPORT. The updates of State: for each, one lemma for every field that it leaves alone, and what reading gives after it. -/

namespace Sys2Proof.Machine

variable (s : State)

@[simp] theorem State.setTile_pending (t : TileId) (x : Tile) : (s.setTile t x).pending = s.pending := rfl
@[simp] theorem State.setTile_free (t : TileId) (x : Tile) : (s.setTile t x).free = s.free := rfl
@[simp] theorem State.setTile_nextTag (t : TileId) (x : Tile) : (s.setTile t x).nextTag = s.nextTag := rfl
@[simp] theorem State.setTile_islands (t : TileId) (x : Tile) : (s.setTile t x).islands = s.islands := rfl
@[simp] theorem State.setTile_mesh (t : TileId) (x : Tile) : (s.setTile t x).mesh = s.mesh := rfl
@[simp] theorem State.setTile_hbm (t : TileId) (x : Tile) : (s.setTile t x).hbm = s.hbm := rfl
@[simp] theorem State.setTile_chans (t : TileId) (x : Tile) : (s.setTile t x).chans = s.chans := rfl
@[simp] theorem State.setTile_mem (t : TileId) (x : Tile) : (s.setTile t x).mem = s.mem := rfl
@[simp] theorem State.setTile_rights (t : TileId) (x : Tile) : (s.setTile t x).rights = s.rights := rfl
@[simp] theorem State.setTile_alarms (t : TileId) (x : Tile) : (s.setTile t x).alarms = s.alarms := rfl
@[simp] theorem State.setTile_alarmSeq (t : TileId) (x : Tile) : (s.setTile t x).alarmSeq = s.alarmSeq := rfl
@[simp] theorem State.setTile_logQ (t : TileId) (x : Tile) : (s.setTile t x).logQ = s.logQ := rfl
@[simp] theorem State.setTile_logSeq (t : TileId) (x : Tile) : (s.setTile t x).logSeq = s.logSeq := rfl
@[simp] theorem State.setTile_logLost (t : TileId) (x : Tile) : (s.setTile t x).logLost = s.logLost := rfl
@[simp] theorem State.setTile_logRing (t : TileId) (x : Tile) : (s.setTile t x).logRing = s.logRing := rfl
@[simp] theorem State.setTile_logRead (t : TileId) (x : Tile) : (s.setTile t x).logRead = s.logRead := rfl
@[simp] theorem State.setTile_traceLost (t : TileId) (x : Tile) : (s.setTile t x).traceLost = s.traceLost := rfl
@[simp] theorem State.setTile_score (t : TileId) (x : Tile) : (s.setTile t x).score = s.score := rfl
@[simp] theorem State.setTile_corrSum (t : TileId) (x : Tile) : (s.setTile t x).corrSum = s.corrSum := rfl
@[simp] theorem State.setTile_lost (t : TileId) (x : Tile) : (s.setTile t x).lost = s.lost := rfl
@[simp] theorem State.setTile_noReplay (t : TileId) (x : Tile) : (s.setTile t x).noReplay = s.noReplay := rfl
@[simp] theorem State.setTile_counts (t : TileId) (x : Tile) : (s.setTile t x).counts = s.counts := rfl
@[simp] theorem State.setTile_quires (t : TileId) (x : Tile) : (s.setTile t x).quires = s.quires := rfl
@[simp] theorem State.setTile_survive (t : TileId) (x : Tile) : (s.setTile t x).survive = s.survive := rfl
@[simp] theorem State.setTile_net (t : TileId) (x : Tile) : (s.setTile t x).net = s.net := rfl
@[simp] theorem State.setTile_power (t : TileId) (x : Tile) : (s.setTile t x).power = s.power := rfl
@[simp] theorem State.setTile_boot (t : TileId) (x : Tile) : (s.setTile t x).boot = s.boot := rfl
@[simp] theorem State.setTile_spine (t : TileId) (x : Tile) : (s.setTile t x).spine = s.spine := rfl
@[simp] theorem State.setTile_flash (t : TileId) (x : Tile) : (s.setTile t x).flash = s.flash := rfl
@[simp] theorem State.setTile_pins (t : TileId) (x : Tile) : (s.setTile t x).pins = s.pins := rfl
@[simp] theorem State.setTile_splice (t : TileId) (x : Tile) : (s.setTile t x).splice = s.splice := rfl
@[simp] theorem State.setTile_groups (t : TileId) (x : Tile) : (s.setTile t x).groups = s.groups := rfl
@[simp] theorem State.setTile_colls (t : TileId) (x : Tile) : (s.setTile t x).colls = s.colls := rfl
@[simp] theorem State.setTile_transfers (t : TileId) (x : Tile) : (s.setTile t x).transfers = s.transfers := rfl
@[simp] theorem State.setTile_records (t : TileId) (x : Tile) : (s.setTile t x).records = s.records := rfl
@[simp] theorem State.setTile_grade768 (t : TileId) (x : Tile) : (s.setTile t x).grade768 = s.grade768 := rfl
@[simp] theorem State.setTile_device (t : TileId) (x : Tile) : (s.setTile t x).device = s.device := rfl
@[simp] theorem State.setTile_incarnation (t : TileId) (x : Tile) : (s.setTile t x).incarnation = s.incarnation := rfl

@[simp] theorem State.updTile_pending (t : TileId) (f : Tile → Tile) : (s.updTile t f).pending = s.pending := rfl
@[simp] theorem State.updTile_free (t : TileId) (f : Tile → Tile) : (s.updTile t f).free = s.free := rfl
@[simp] theorem State.updTile_nextTag (t : TileId) (f : Tile → Tile) : (s.updTile t f).nextTag = s.nextTag := rfl
@[simp] theorem State.updTile_islands (t : TileId) (f : Tile → Tile) : (s.updTile t f).islands = s.islands := rfl
@[simp] theorem State.updTile_mesh (t : TileId) (f : Tile → Tile) : (s.updTile t f).mesh = s.mesh := rfl
@[simp] theorem State.updTile_hbm (t : TileId) (f : Tile → Tile) : (s.updTile t f).hbm = s.hbm := rfl
@[simp] theorem State.updTile_chans (t : TileId) (f : Tile → Tile) : (s.updTile t f).chans = s.chans := rfl
@[simp] theorem State.updTile_mem (t : TileId) (f : Tile → Tile) : (s.updTile t f).mem = s.mem := rfl
@[simp] theorem State.updTile_rights (t : TileId) (f : Tile → Tile) : (s.updTile t f).rights = s.rights := rfl
@[simp] theorem State.updTile_alarms (t : TileId) (f : Tile → Tile) : (s.updTile t f).alarms = s.alarms := rfl
@[simp] theorem State.updTile_alarmSeq (t : TileId) (f : Tile → Tile) : (s.updTile t f).alarmSeq = s.alarmSeq := rfl
@[simp] theorem State.updTile_logQ (t : TileId) (f : Tile → Tile) : (s.updTile t f).logQ = s.logQ := rfl
@[simp] theorem State.updTile_logSeq (t : TileId) (f : Tile → Tile) : (s.updTile t f).logSeq = s.logSeq := rfl
@[simp] theorem State.updTile_logLost (t : TileId) (f : Tile → Tile) : (s.updTile t f).logLost = s.logLost := rfl
@[simp] theorem State.updTile_logRing (t : TileId) (f : Tile → Tile) : (s.updTile t f).logRing = s.logRing := rfl
@[simp] theorem State.updTile_logRead (t : TileId) (f : Tile → Tile) : (s.updTile t f).logRead = s.logRead := rfl
@[simp] theorem State.updTile_traceLost (t : TileId) (f : Tile → Tile) : (s.updTile t f).traceLost = s.traceLost := rfl
@[simp] theorem State.updTile_score (t : TileId) (f : Tile → Tile) : (s.updTile t f).score = s.score := rfl
@[simp] theorem State.updTile_corrSum (t : TileId) (f : Tile → Tile) : (s.updTile t f).corrSum = s.corrSum := rfl
@[simp] theorem State.updTile_lost (t : TileId) (f : Tile → Tile) : (s.updTile t f).lost = s.lost := rfl
@[simp] theorem State.updTile_noReplay (t : TileId) (f : Tile → Tile) : (s.updTile t f).noReplay = s.noReplay := rfl
@[simp] theorem State.updTile_counts (t : TileId) (f : Tile → Tile) : (s.updTile t f).counts = s.counts := rfl
@[simp] theorem State.updTile_quires (t : TileId) (f : Tile → Tile) : (s.updTile t f).quires = s.quires := rfl
@[simp] theorem State.updTile_survive (t : TileId) (f : Tile → Tile) : (s.updTile t f).survive = s.survive := rfl
@[simp] theorem State.updTile_net (t : TileId) (f : Tile → Tile) : (s.updTile t f).net = s.net := rfl
@[simp] theorem State.updTile_power (t : TileId) (f : Tile → Tile) : (s.updTile t f).power = s.power := rfl
@[simp] theorem State.updTile_boot (t : TileId) (f : Tile → Tile) : (s.updTile t f).boot = s.boot := rfl
@[simp] theorem State.updTile_spine (t : TileId) (f : Tile → Tile) : (s.updTile t f).spine = s.spine := rfl
@[simp] theorem State.updTile_flash (t : TileId) (f : Tile → Tile) : (s.updTile t f).flash = s.flash := rfl
@[simp] theorem State.updTile_pins (t : TileId) (f : Tile → Tile) : (s.updTile t f).pins = s.pins := rfl
@[simp] theorem State.updTile_splice (t : TileId) (f : Tile → Tile) : (s.updTile t f).splice = s.splice := rfl
@[simp] theorem State.updTile_groups (t : TileId) (f : Tile → Tile) : (s.updTile t f).groups = s.groups := rfl
@[simp] theorem State.updTile_colls (t : TileId) (f : Tile → Tile) : (s.updTile t f).colls = s.colls := rfl
@[simp] theorem State.updTile_transfers (t : TileId) (f : Tile → Tile) : (s.updTile t f).transfers = s.transfers := rfl
@[simp] theorem State.updTile_records (t : TileId) (f : Tile → Tile) : (s.updTile t f).records = s.records := rfl
@[simp] theorem State.updTile_grade768 (t : TileId) (f : Tile → Tile) : (s.updTile t f).grade768 = s.grade768 := rfl
@[simp] theorem State.updTile_device (t : TileId) (f : Tile → Tile) : (s.updTile t f).device = s.device := rfl
@[simp] theorem State.updTile_incarnation (t : TileId) (f : Tile → Tile) : (s.updTile t f).incarnation = s.incarnation := rfl

@[simp] theorem State.setStrand_pending (a : At) (r : Strand) : (s.setStrand a r).pending = s.pending := rfl
@[simp] theorem State.setStrand_free (a : At) (r : Strand) : (s.setStrand a r).free = s.free := rfl
@[simp] theorem State.setStrand_nextTag (a : At) (r : Strand) : (s.setStrand a r).nextTag = s.nextTag := rfl
@[simp] theorem State.setStrand_islands (a : At) (r : Strand) : (s.setStrand a r).islands = s.islands := rfl
@[simp] theorem State.setStrand_mesh (a : At) (r : Strand) : (s.setStrand a r).mesh = s.mesh := rfl
@[simp] theorem State.setStrand_hbm (a : At) (r : Strand) : (s.setStrand a r).hbm = s.hbm := rfl
@[simp] theorem State.setStrand_chans (a : At) (r : Strand) : (s.setStrand a r).chans = s.chans := rfl
@[simp] theorem State.setStrand_mem (a : At) (r : Strand) : (s.setStrand a r).mem = s.mem := rfl
@[simp] theorem State.setStrand_rights (a : At) (r : Strand) : (s.setStrand a r).rights = s.rights := rfl
@[simp] theorem State.setStrand_alarms (a : At) (r : Strand) : (s.setStrand a r).alarms = s.alarms := rfl
@[simp] theorem State.setStrand_alarmSeq (a : At) (r : Strand) : (s.setStrand a r).alarmSeq = s.alarmSeq := rfl
@[simp] theorem State.setStrand_logQ (a : At) (r : Strand) : (s.setStrand a r).logQ = s.logQ := rfl
@[simp] theorem State.setStrand_logSeq (a : At) (r : Strand) : (s.setStrand a r).logSeq = s.logSeq := rfl
@[simp] theorem State.setStrand_logLost (a : At) (r : Strand) : (s.setStrand a r).logLost = s.logLost := rfl
@[simp] theorem State.setStrand_logRing (a : At) (r : Strand) : (s.setStrand a r).logRing = s.logRing := rfl
@[simp] theorem State.setStrand_logRead (a : At) (r : Strand) : (s.setStrand a r).logRead = s.logRead := rfl
@[simp] theorem State.setStrand_traceLost (a : At) (r : Strand) : (s.setStrand a r).traceLost = s.traceLost := rfl
@[simp] theorem State.setStrand_score (a : At) (r : Strand) : (s.setStrand a r).score = s.score := rfl
@[simp] theorem State.setStrand_corrSum (a : At) (r : Strand) : (s.setStrand a r).corrSum = s.corrSum := rfl
@[simp] theorem State.setStrand_lost (a : At) (r : Strand) : (s.setStrand a r).lost = s.lost := rfl
@[simp] theorem State.setStrand_noReplay (a : At) (r : Strand) : (s.setStrand a r).noReplay = s.noReplay := rfl
@[simp] theorem State.setStrand_counts (a : At) (r : Strand) : (s.setStrand a r).counts = s.counts := rfl
@[simp] theorem State.setStrand_quires (a : At) (r : Strand) : (s.setStrand a r).quires = s.quires := rfl
@[simp] theorem State.setStrand_survive (a : At) (r : Strand) : (s.setStrand a r).survive = s.survive := rfl
@[simp] theorem State.setStrand_net (a : At) (r : Strand) : (s.setStrand a r).net = s.net := rfl
@[simp] theorem State.setStrand_power (a : At) (r : Strand) : (s.setStrand a r).power = s.power := rfl
@[simp] theorem State.setStrand_boot (a : At) (r : Strand) : (s.setStrand a r).boot = s.boot := rfl
@[simp] theorem State.setStrand_spine (a : At) (r : Strand) : (s.setStrand a r).spine = s.spine := rfl
@[simp] theorem State.setStrand_flash (a : At) (r : Strand) : (s.setStrand a r).flash = s.flash := rfl
@[simp] theorem State.setStrand_pins (a : At) (r : Strand) : (s.setStrand a r).pins = s.pins := rfl
@[simp] theorem State.setStrand_splice (a : At) (r : Strand) : (s.setStrand a r).splice = s.splice := rfl
@[simp] theorem State.setStrand_groups (a : At) (r : Strand) : (s.setStrand a r).groups = s.groups := rfl
@[simp] theorem State.setStrand_colls (a : At) (r : Strand) : (s.setStrand a r).colls = s.colls := rfl
@[simp] theorem State.setStrand_transfers (a : At) (r : Strand) : (s.setStrand a r).transfers = s.transfers := rfl
@[simp] theorem State.setStrand_records (a : At) (r : Strand) : (s.setStrand a r).records = s.records := rfl
@[simp] theorem State.setStrand_grade768 (a : At) (r : Strand) : (s.setStrand a r).grade768 = s.grade768 := rfl
@[simp] theorem State.setStrand_device (a : At) (r : Strand) : (s.setStrand a r).device = s.device := rfl
@[simp] theorem State.setStrand_incarnation (a : At) (r : Strand) : (s.setStrand a r).incarnation = s.incarnation := rfl

@[simp] theorem State.updStrand_pending (a : At) (f : Strand → Strand) : (s.updStrand a f).pending = s.pending := rfl
@[simp] theorem State.updStrand_free (a : At) (f : Strand → Strand) : (s.updStrand a f).free = s.free := rfl
@[simp] theorem State.updStrand_nextTag (a : At) (f : Strand → Strand) : (s.updStrand a f).nextTag = s.nextTag := rfl
@[simp] theorem State.updStrand_islands (a : At) (f : Strand → Strand) : (s.updStrand a f).islands = s.islands := rfl
@[simp] theorem State.updStrand_mesh (a : At) (f : Strand → Strand) : (s.updStrand a f).mesh = s.mesh := rfl
@[simp] theorem State.updStrand_hbm (a : At) (f : Strand → Strand) : (s.updStrand a f).hbm = s.hbm := rfl
@[simp] theorem State.updStrand_chans (a : At) (f : Strand → Strand) : (s.updStrand a f).chans = s.chans := rfl
@[simp] theorem State.updStrand_mem (a : At) (f : Strand → Strand) : (s.updStrand a f).mem = s.mem := rfl
@[simp] theorem State.updStrand_rights (a : At) (f : Strand → Strand) : (s.updStrand a f).rights = s.rights := rfl
@[simp] theorem State.updStrand_alarms (a : At) (f : Strand → Strand) : (s.updStrand a f).alarms = s.alarms := rfl
@[simp] theorem State.updStrand_alarmSeq (a : At) (f : Strand → Strand) : (s.updStrand a f).alarmSeq = s.alarmSeq := rfl
@[simp] theorem State.updStrand_logQ (a : At) (f : Strand → Strand) : (s.updStrand a f).logQ = s.logQ := rfl
@[simp] theorem State.updStrand_logSeq (a : At) (f : Strand → Strand) : (s.updStrand a f).logSeq = s.logSeq := rfl
@[simp] theorem State.updStrand_logLost (a : At) (f : Strand → Strand) : (s.updStrand a f).logLost = s.logLost := rfl
@[simp] theorem State.updStrand_logRing (a : At) (f : Strand → Strand) : (s.updStrand a f).logRing = s.logRing := rfl
@[simp] theorem State.updStrand_logRead (a : At) (f : Strand → Strand) : (s.updStrand a f).logRead = s.logRead := rfl
@[simp] theorem State.updStrand_traceLost (a : At) (f : Strand → Strand) : (s.updStrand a f).traceLost = s.traceLost := rfl
@[simp] theorem State.updStrand_score (a : At) (f : Strand → Strand) : (s.updStrand a f).score = s.score := rfl
@[simp] theorem State.updStrand_corrSum (a : At) (f : Strand → Strand) : (s.updStrand a f).corrSum = s.corrSum := rfl
@[simp] theorem State.updStrand_lost (a : At) (f : Strand → Strand) : (s.updStrand a f).lost = s.lost := rfl
@[simp] theorem State.updStrand_noReplay (a : At) (f : Strand → Strand) : (s.updStrand a f).noReplay = s.noReplay := rfl
@[simp] theorem State.updStrand_counts (a : At) (f : Strand → Strand) : (s.updStrand a f).counts = s.counts := rfl
@[simp] theorem State.updStrand_quires (a : At) (f : Strand → Strand) : (s.updStrand a f).quires = s.quires := rfl
@[simp] theorem State.updStrand_survive (a : At) (f : Strand → Strand) : (s.updStrand a f).survive = s.survive := rfl
@[simp] theorem State.updStrand_net (a : At) (f : Strand → Strand) : (s.updStrand a f).net = s.net := rfl
@[simp] theorem State.updStrand_power (a : At) (f : Strand → Strand) : (s.updStrand a f).power = s.power := rfl
@[simp] theorem State.updStrand_boot (a : At) (f : Strand → Strand) : (s.updStrand a f).boot = s.boot := rfl
@[simp] theorem State.updStrand_spine (a : At) (f : Strand → Strand) : (s.updStrand a f).spine = s.spine := rfl
@[simp] theorem State.updStrand_flash (a : At) (f : Strand → Strand) : (s.updStrand a f).flash = s.flash := rfl
@[simp] theorem State.updStrand_pins (a : At) (f : Strand → Strand) : (s.updStrand a f).pins = s.pins := rfl
@[simp] theorem State.updStrand_splice (a : At) (f : Strand → Strand) : (s.updStrand a f).splice = s.splice := rfl
@[simp] theorem State.updStrand_groups (a : At) (f : Strand → Strand) : (s.updStrand a f).groups = s.groups := rfl
@[simp] theorem State.updStrand_colls (a : At) (f : Strand → Strand) : (s.updStrand a f).colls = s.colls := rfl
@[simp] theorem State.updStrand_transfers (a : At) (f : Strand → Strand) : (s.updStrand a f).transfers = s.transfers := rfl
@[simp] theorem State.updStrand_records (a : At) (f : Strand → Strand) : (s.updStrand a f).records = s.records := rfl
@[simp] theorem State.updStrand_grade768 (a : At) (f : Strand → Strand) : (s.updStrand a f).grade768 = s.grade768 := rfl
@[simp] theorem State.updStrand_device (a : At) (f : Strand → Strand) : (s.updStrand a f).device = s.device := rfl
@[simp] theorem State.updStrand_incarnation (a : At) (f : Strand → Strand) : (s.updStrand a f).incarnation = s.incarnation := rfl

@[simp] theorem State.setIsland_pending (i : Nat) (x : Island) : (s.setIsland i x).pending = s.pending := rfl
@[simp] theorem State.setIsland_free (i : Nat) (x : Island) : (s.setIsland i x).free = s.free := rfl
@[simp] theorem State.setIsland_nextTag (i : Nat) (x : Island) : (s.setIsland i x).nextTag = s.nextTag := rfl
@[simp] theorem State.setIsland_tiles (i : Nat) (x : Island) : (s.setIsland i x).tiles = s.tiles := rfl
@[simp] theorem State.setIsland_mesh (i : Nat) (x : Island) : (s.setIsland i x).mesh = s.mesh := rfl
@[simp] theorem State.setIsland_hbm (i : Nat) (x : Island) : (s.setIsland i x).hbm = s.hbm := rfl
@[simp] theorem State.setIsland_chans (i : Nat) (x : Island) : (s.setIsland i x).chans = s.chans := rfl
@[simp] theorem State.setIsland_mem (i : Nat) (x : Island) : (s.setIsland i x).mem = s.mem := rfl
@[simp] theorem State.setIsland_rights (i : Nat) (x : Island) : (s.setIsland i x).rights = s.rights := rfl
@[simp] theorem State.setIsland_alarms (i : Nat) (x : Island) : (s.setIsland i x).alarms = s.alarms := rfl
@[simp] theorem State.setIsland_alarmSeq (i : Nat) (x : Island) : (s.setIsland i x).alarmSeq = s.alarmSeq := rfl
@[simp] theorem State.setIsland_logQ (i : Nat) (x : Island) : (s.setIsland i x).logQ = s.logQ := rfl
@[simp] theorem State.setIsland_logSeq (i : Nat) (x : Island) : (s.setIsland i x).logSeq = s.logSeq := rfl
@[simp] theorem State.setIsland_logLost (i : Nat) (x : Island) : (s.setIsland i x).logLost = s.logLost := rfl
@[simp] theorem State.setIsland_logRing (i : Nat) (x : Island) : (s.setIsland i x).logRing = s.logRing := rfl
@[simp] theorem State.setIsland_logRead (i : Nat) (x : Island) : (s.setIsland i x).logRead = s.logRead := rfl
@[simp] theorem State.setIsland_traceLost (i : Nat) (x : Island) : (s.setIsland i x).traceLost = s.traceLost := rfl
@[simp] theorem State.setIsland_score (i : Nat) (x : Island) : (s.setIsland i x).score = s.score := rfl
@[simp] theorem State.setIsland_corrSum (i : Nat) (x : Island) : (s.setIsland i x).corrSum = s.corrSum := rfl
@[simp] theorem State.setIsland_lost (i : Nat) (x : Island) : (s.setIsland i x).lost = s.lost := rfl
@[simp] theorem State.setIsland_noReplay (i : Nat) (x : Island) : (s.setIsland i x).noReplay = s.noReplay := rfl
@[simp] theorem State.setIsland_counts (i : Nat) (x : Island) : (s.setIsland i x).counts = s.counts := rfl
@[simp] theorem State.setIsland_quires (i : Nat) (x : Island) : (s.setIsland i x).quires = s.quires := rfl
@[simp] theorem State.setIsland_survive (i : Nat) (x : Island) : (s.setIsland i x).survive = s.survive := rfl
@[simp] theorem State.setIsland_net (i : Nat) (x : Island) : (s.setIsland i x).net = s.net := rfl
@[simp] theorem State.setIsland_power (i : Nat) (x : Island) : (s.setIsland i x).power = s.power := rfl
@[simp] theorem State.setIsland_boot (i : Nat) (x : Island) : (s.setIsland i x).boot = s.boot := rfl
@[simp] theorem State.setIsland_spine (i : Nat) (x : Island) : (s.setIsland i x).spine = s.spine := rfl
@[simp] theorem State.setIsland_flash (i : Nat) (x : Island) : (s.setIsland i x).flash = s.flash := rfl
@[simp] theorem State.setIsland_pins (i : Nat) (x : Island) : (s.setIsland i x).pins = s.pins := rfl
@[simp] theorem State.setIsland_splice (i : Nat) (x : Island) : (s.setIsland i x).splice = s.splice := rfl
@[simp] theorem State.setIsland_groups (i : Nat) (x : Island) : (s.setIsland i x).groups = s.groups := rfl
@[simp] theorem State.setIsland_colls (i : Nat) (x : Island) : (s.setIsland i x).colls = s.colls := rfl
@[simp] theorem State.setIsland_transfers (i : Nat) (x : Island) : (s.setIsland i x).transfers = s.transfers := rfl
@[simp] theorem State.setIsland_records (i : Nat) (x : Island) : (s.setIsland i x).records = s.records := rfl
@[simp] theorem State.setIsland_grade768 (i : Nat) (x : Island) : (s.setIsland i x).grade768 = s.grade768 := rfl
@[simp] theorem State.setIsland_device (i : Nat) (x : Island) : (s.setIsland i x).device = s.device := rfl
@[simp] theorem State.setIsland_incarnation (i : Nat) (x : Island) : (s.setIsland i x).incarnation = s.incarnation := rfl

@[simp] theorem State.setStack_pending (m : Nat) (x : Stack) : (s.setStack m x).pending = s.pending := rfl
@[simp] theorem State.setStack_free (m : Nat) (x : Stack) : (s.setStack m x).free = s.free := rfl
@[simp] theorem State.setStack_nextTag (m : Nat) (x : Stack) : (s.setStack m x).nextTag = s.nextTag := rfl
@[simp] theorem State.setStack_tiles (m : Nat) (x : Stack) : (s.setStack m x).tiles = s.tiles := rfl
@[simp] theorem State.setStack_islands (m : Nat) (x : Stack) : (s.setStack m x).islands = s.islands := rfl
@[simp] theorem State.setStack_mesh (m : Nat) (x : Stack) : (s.setStack m x).mesh = s.mesh := rfl
@[simp] theorem State.setStack_chans (m : Nat) (x : Stack) : (s.setStack m x).chans = s.chans := rfl
@[simp] theorem State.setStack_mem (m : Nat) (x : Stack) : (s.setStack m x).mem = s.mem := rfl
@[simp] theorem State.setStack_rights (m : Nat) (x : Stack) : (s.setStack m x).rights = s.rights := rfl
@[simp] theorem State.setStack_alarms (m : Nat) (x : Stack) : (s.setStack m x).alarms = s.alarms := rfl
@[simp] theorem State.setStack_alarmSeq (m : Nat) (x : Stack) : (s.setStack m x).alarmSeq = s.alarmSeq := rfl
@[simp] theorem State.setStack_logQ (m : Nat) (x : Stack) : (s.setStack m x).logQ = s.logQ := rfl
@[simp] theorem State.setStack_logSeq (m : Nat) (x : Stack) : (s.setStack m x).logSeq = s.logSeq := rfl
@[simp] theorem State.setStack_logLost (m : Nat) (x : Stack) : (s.setStack m x).logLost = s.logLost := rfl
@[simp] theorem State.setStack_logRing (m : Nat) (x : Stack) : (s.setStack m x).logRing = s.logRing := rfl
@[simp] theorem State.setStack_logRead (m : Nat) (x : Stack) : (s.setStack m x).logRead = s.logRead := rfl
@[simp] theorem State.setStack_traceLost (m : Nat) (x : Stack) : (s.setStack m x).traceLost = s.traceLost := rfl
@[simp] theorem State.setStack_score (m : Nat) (x : Stack) : (s.setStack m x).score = s.score := rfl
@[simp] theorem State.setStack_corrSum (m : Nat) (x : Stack) : (s.setStack m x).corrSum = s.corrSum := rfl
@[simp] theorem State.setStack_lost (m : Nat) (x : Stack) : (s.setStack m x).lost = s.lost := rfl
@[simp] theorem State.setStack_noReplay (m : Nat) (x : Stack) : (s.setStack m x).noReplay = s.noReplay := rfl
@[simp] theorem State.setStack_counts (m : Nat) (x : Stack) : (s.setStack m x).counts = s.counts := rfl
@[simp] theorem State.setStack_quires (m : Nat) (x : Stack) : (s.setStack m x).quires = s.quires := rfl
@[simp] theorem State.setStack_survive (m : Nat) (x : Stack) : (s.setStack m x).survive = s.survive := rfl
@[simp] theorem State.setStack_net (m : Nat) (x : Stack) : (s.setStack m x).net = s.net := rfl
@[simp] theorem State.setStack_power (m : Nat) (x : Stack) : (s.setStack m x).power = s.power := rfl
@[simp] theorem State.setStack_boot (m : Nat) (x : Stack) : (s.setStack m x).boot = s.boot := rfl
@[simp] theorem State.setStack_spine (m : Nat) (x : Stack) : (s.setStack m x).spine = s.spine := rfl
@[simp] theorem State.setStack_flash (m : Nat) (x : Stack) : (s.setStack m x).flash = s.flash := rfl
@[simp] theorem State.setStack_pins (m : Nat) (x : Stack) : (s.setStack m x).pins = s.pins := rfl
@[simp] theorem State.setStack_splice (m : Nat) (x : Stack) : (s.setStack m x).splice = s.splice := rfl
@[simp] theorem State.setStack_groups (m : Nat) (x : Stack) : (s.setStack m x).groups = s.groups := rfl
@[simp] theorem State.setStack_colls (m : Nat) (x : Stack) : (s.setStack m x).colls = s.colls := rfl
@[simp] theorem State.setStack_transfers (m : Nat) (x : Stack) : (s.setStack m x).transfers = s.transfers := rfl
@[simp] theorem State.setStack_records (m : Nat) (x : Stack) : (s.setStack m x).records = s.records := rfl
@[simp] theorem State.setStack_grade768 (m : Nat) (x : Stack) : (s.setStack m x).grade768 = s.grade768 := rfl
@[simp] theorem State.setStack_device (m : Nat) (x : Stack) : (s.setStack m x).device = s.device := rfl
@[simp] theorem State.setStack_incarnation (m : Nat) (x : Stack) : (s.setStack m x).incarnation = s.incarnation := rfl

@[simp] theorem State.setChan_pending (c : Nat) (x : Chan) : (s.setChan c x).pending = s.pending := rfl
@[simp] theorem State.setChan_free (c : Nat) (x : Chan) : (s.setChan c x).free = s.free := rfl
@[simp] theorem State.setChan_nextTag (c : Nat) (x : Chan) : (s.setChan c x).nextTag = s.nextTag := rfl
@[simp] theorem State.setChan_tiles (c : Nat) (x : Chan) : (s.setChan c x).tiles = s.tiles := rfl
@[simp] theorem State.setChan_islands (c : Nat) (x : Chan) : (s.setChan c x).islands = s.islands := rfl
@[simp] theorem State.setChan_mesh (c : Nat) (x : Chan) : (s.setChan c x).mesh = s.mesh := rfl
@[simp] theorem State.setChan_hbm (c : Nat) (x : Chan) : (s.setChan c x).hbm = s.hbm := rfl
@[simp] theorem State.setChan_mem (c : Nat) (x : Chan) : (s.setChan c x).mem = s.mem := rfl
@[simp] theorem State.setChan_rights (c : Nat) (x : Chan) : (s.setChan c x).rights = s.rights := rfl
@[simp] theorem State.setChan_alarms (c : Nat) (x : Chan) : (s.setChan c x).alarms = s.alarms := rfl
@[simp] theorem State.setChan_alarmSeq (c : Nat) (x : Chan) : (s.setChan c x).alarmSeq = s.alarmSeq := rfl
@[simp] theorem State.setChan_logQ (c : Nat) (x : Chan) : (s.setChan c x).logQ = s.logQ := rfl
@[simp] theorem State.setChan_logSeq (c : Nat) (x : Chan) : (s.setChan c x).logSeq = s.logSeq := rfl
@[simp] theorem State.setChan_logLost (c : Nat) (x : Chan) : (s.setChan c x).logLost = s.logLost := rfl
@[simp] theorem State.setChan_logRing (c : Nat) (x : Chan) : (s.setChan c x).logRing = s.logRing := rfl
@[simp] theorem State.setChan_logRead (c : Nat) (x : Chan) : (s.setChan c x).logRead = s.logRead := rfl
@[simp] theorem State.setChan_traceLost (c : Nat) (x : Chan) : (s.setChan c x).traceLost = s.traceLost := rfl
@[simp] theorem State.setChan_score (c : Nat) (x : Chan) : (s.setChan c x).score = s.score := rfl
@[simp] theorem State.setChan_corrSum (c : Nat) (x : Chan) : (s.setChan c x).corrSum = s.corrSum := rfl
@[simp] theorem State.setChan_lost (c : Nat) (x : Chan) : (s.setChan c x).lost = s.lost := rfl
@[simp] theorem State.setChan_noReplay (c : Nat) (x : Chan) : (s.setChan c x).noReplay = s.noReplay := rfl
@[simp] theorem State.setChan_counts (c : Nat) (x : Chan) : (s.setChan c x).counts = s.counts := rfl
@[simp] theorem State.setChan_quires (c : Nat) (x : Chan) : (s.setChan c x).quires = s.quires := rfl
@[simp] theorem State.setChan_survive (c : Nat) (x : Chan) : (s.setChan c x).survive = s.survive := rfl
@[simp] theorem State.setChan_net (c : Nat) (x : Chan) : (s.setChan c x).net = s.net := rfl
@[simp] theorem State.setChan_power (c : Nat) (x : Chan) : (s.setChan c x).power = s.power := rfl
@[simp] theorem State.setChan_boot (c : Nat) (x : Chan) : (s.setChan c x).boot = s.boot := rfl
@[simp] theorem State.setChan_spine (c : Nat) (x : Chan) : (s.setChan c x).spine = s.spine := rfl
@[simp] theorem State.setChan_flash (c : Nat) (x : Chan) : (s.setChan c x).flash = s.flash := rfl
@[simp] theorem State.setChan_pins (c : Nat) (x : Chan) : (s.setChan c x).pins = s.pins := rfl
@[simp] theorem State.setChan_splice (c : Nat) (x : Chan) : (s.setChan c x).splice = s.splice := rfl
@[simp] theorem State.setChan_groups (c : Nat) (x : Chan) : (s.setChan c x).groups = s.groups := rfl
@[simp] theorem State.setChan_colls (c : Nat) (x : Chan) : (s.setChan c x).colls = s.colls := rfl
@[simp] theorem State.setChan_transfers (c : Nat) (x : Chan) : (s.setChan c x).transfers = s.transfers := rfl
@[simp] theorem State.setChan_records (c : Nat) (x : Chan) : (s.setChan c x).records = s.records := rfl
@[simp] theorem State.setChan_grade768 (c : Nat) (x : Chan) : (s.setChan c x).grade768 = s.grade768 := rfl
@[simp] theorem State.setChan_device (c : Nat) (x : Chan) : (s.setChan c x).device = s.device := rfl
@[simp] theorem State.setChan_incarnation (c : Nat) (x : Chan) : (s.setChan c x).incarnation = s.incarnation := rfl

@[simp] theorem State.setRegion_pending (i : Nat) (r : Region) : (s.setRegion i r).pending = s.pending := rfl
@[simp] theorem State.setRegion_free (i : Nat) (r : Region) : (s.setRegion i r).free = s.free := rfl
@[simp] theorem State.setRegion_nextTag (i : Nat) (r : Region) : (s.setRegion i r).nextTag = s.nextTag := rfl
@[simp] theorem State.setRegion_tiles (i : Nat) (r : Region) : (s.setRegion i r).tiles = s.tiles := rfl
@[simp] theorem State.setRegion_islands (i : Nat) (r : Region) : (s.setRegion i r).islands = s.islands := rfl
@[simp] theorem State.setRegion_mesh (i : Nat) (r : Region) : (s.setRegion i r).mesh = s.mesh := rfl
@[simp] theorem State.setRegion_hbm (i : Nat) (r : Region) : (s.setRegion i r).hbm = s.hbm := rfl
@[simp] theorem State.setRegion_chans (i : Nat) (r : Region) : (s.setRegion i r).chans = s.chans := rfl
@[simp] theorem State.setRegion_rights (i : Nat) (r : Region) : (s.setRegion i r).rights = s.rights := rfl
@[simp] theorem State.setRegion_alarms (i : Nat) (r : Region) : (s.setRegion i r).alarms = s.alarms := rfl
@[simp] theorem State.setRegion_alarmSeq (i : Nat) (r : Region) : (s.setRegion i r).alarmSeq = s.alarmSeq := rfl
@[simp] theorem State.setRegion_logQ (i : Nat) (r : Region) : (s.setRegion i r).logQ = s.logQ := rfl
@[simp] theorem State.setRegion_logSeq (i : Nat) (r : Region) : (s.setRegion i r).logSeq = s.logSeq := rfl
@[simp] theorem State.setRegion_logLost (i : Nat) (r : Region) : (s.setRegion i r).logLost = s.logLost := rfl
@[simp] theorem State.setRegion_logRing (i : Nat) (r : Region) : (s.setRegion i r).logRing = s.logRing := rfl
@[simp] theorem State.setRegion_logRead (i : Nat) (r : Region) : (s.setRegion i r).logRead = s.logRead := rfl
@[simp] theorem State.setRegion_traceLost (i : Nat) (r : Region) : (s.setRegion i r).traceLost = s.traceLost := rfl
@[simp] theorem State.setRegion_score (i : Nat) (r : Region) : (s.setRegion i r).score = s.score := rfl
@[simp] theorem State.setRegion_corrSum (i : Nat) (r : Region) : (s.setRegion i r).corrSum = s.corrSum := rfl
@[simp] theorem State.setRegion_lost (i : Nat) (r : Region) : (s.setRegion i r).lost = s.lost := rfl
@[simp] theorem State.setRegion_noReplay (i : Nat) (r : Region) : (s.setRegion i r).noReplay = s.noReplay := rfl
@[simp] theorem State.setRegion_counts (i : Nat) (r : Region) : (s.setRegion i r).counts = s.counts := rfl
@[simp] theorem State.setRegion_quires (i : Nat) (r : Region) : (s.setRegion i r).quires = s.quires := rfl
@[simp] theorem State.setRegion_survive (i : Nat) (r : Region) : (s.setRegion i r).survive = s.survive := rfl
@[simp] theorem State.setRegion_net (i : Nat) (r : Region) : (s.setRegion i r).net = s.net := rfl
@[simp] theorem State.setRegion_power (i : Nat) (r : Region) : (s.setRegion i r).power = s.power := rfl
@[simp] theorem State.setRegion_boot (i : Nat) (r : Region) : (s.setRegion i r).boot = s.boot := rfl
@[simp] theorem State.setRegion_spine (i : Nat) (r : Region) : (s.setRegion i r).spine = s.spine := rfl
@[simp] theorem State.setRegion_flash (i : Nat) (r : Region) : (s.setRegion i r).flash = s.flash := rfl
@[simp] theorem State.setRegion_pins (i : Nat) (r : Region) : (s.setRegion i r).pins = s.pins := rfl
@[simp] theorem State.setRegion_splice (i : Nat) (r : Region) : (s.setRegion i r).splice = s.splice := rfl
@[simp] theorem State.setRegion_groups (i : Nat) (r : Region) : (s.setRegion i r).groups = s.groups := rfl
@[simp] theorem State.setRegion_colls (i : Nat) (r : Region) : (s.setRegion i r).colls = s.colls := rfl
@[simp] theorem State.setRegion_transfers (i : Nat) (r : Region) : (s.setRegion i r).transfers = s.transfers := rfl
@[simp] theorem State.setRegion_records (i : Nat) (r : Region) : (s.setRegion i r).records = s.records := rfl
@[simp] theorem State.setRegion_grade768 (i : Nat) (r : Region) : (s.setRegion i r).grade768 = s.grade768 := rfl
@[simp] theorem State.setRegion_device (i : Nat) (r : Region) : (s.setRegion i r).device = s.device := rfl
@[simp] theorem State.setRegion_incarnation (i : Nat) (r : Region) : (s.setRegion i r).incarnation = s.incarnation := rfl

@[simp] theorem State.setQuire_pending (q : Nat) (x : Quire) : (s.setQuire q x).pending = s.pending := rfl
@[simp] theorem State.setQuire_free (q : Nat) (x : Quire) : (s.setQuire q x).free = s.free := rfl
@[simp] theorem State.setQuire_nextTag (q : Nat) (x : Quire) : (s.setQuire q x).nextTag = s.nextTag := rfl
@[simp] theorem State.setQuire_tiles (q : Nat) (x : Quire) : (s.setQuire q x).tiles = s.tiles := rfl
@[simp] theorem State.setQuire_islands (q : Nat) (x : Quire) : (s.setQuire q x).islands = s.islands := rfl
@[simp] theorem State.setQuire_mesh (q : Nat) (x : Quire) : (s.setQuire q x).mesh = s.mesh := rfl
@[simp] theorem State.setQuire_hbm (q : Nat) (x : Quire) : (s.setQuire q x).hbm = s.hbm := rfl
@[simp] theorem State.setQuire_chans (q : Nat) (x : Quire) : (s.setQuire q x).chans = s.chans := rfl
@[simp] theorem State.setQuire_mem (q : Nat) (x : Quire) : (s.setQuire q x).mem = s.mem := rfl
@[simp] theorem State.setQuire_rights (q : Nat) (x : Quire) : (s.setQuire q x).rights = s.rights := rfl
@[simp] theorem State.setQuire_alarms (q : Nat) (x : Quire) : (s.setQuire q x).alarms = s.alarms := rfl
@[simp] theorem State.setQuire_alarmSeq (q : Nat) (x : Quire) : (s.setQuire q x).alarmSeq = s.alarmSeq := rfl
@[simp] theorem State.setQuire_logQ (q : Nat) (x : Quire) : (s.setQuire q x).logQ = s.logQ := rfl
@[simp] theorem State.setQuire_logSeq (q : Nat) (x : Quire) : (s.setQuire q x).logSeq = s.logSeq := rfl
@[simp] theorem State.setQuire_logLost (q : Nat) (x : Quire) : (s.setQuire q x).logLost = s.logLost := rfl
@[simp] theorem State.setQuire_logRing (q : Nat) (x : Quire) : (s.setQuire q x).logRing = s.logRing := rfl
@[simp] theorem State.setQuire_logRead (q : Nat) (x : Quire) : (s.setQuire q x).logRead = s.logRead := rfl
@[simp] theorem State.setQuire_traceLost (q : Nat) (x : Quire) : (s.setQuire q x).traceLost = s.traceLost := rfl
@[simp] theorem State.setQuire_score (q : Nat) (x : Quire) : (s.setQuire q x).score = s.score := rfl
@[simp] theorem State.setQuire_corrSum (q : Nat) (x : Quire) : (s.setQuire q x).corrSum = s.corrSum := rfl
@[simp] theorem State.setQuire_lost (q : Nat) (x : Quire) : (s.setQuire q x).lost = s.lost := rfl
@[simp] theorem State.setQuire_noReplay (q : Nat) (x : Quire) : (s.setQuire q x).noReplay = s.noReplay := rfl
@[simp] theorem State.setQuire_counts (q : Nat) (x : Quire) : (s.setQuire q x).counts = s.counts := rfl
@[simp] theorem State.setQuire_survive (q : Nat) (x : Quire) : (s.setQuire q x).survive = s.survive := rfl
@[simp] theorem State.setQuire_net (q : Nat) (x : Quire) : (s.setQuire q x).net = s.net := rfl
@[simp] theorem State.setQuire_power (q : Nat) (x : Quire) : (s.setQuire q x).power = s.power := rfl
@[simp] theorem State.setQuire_boot (q : Nat) (x : Quire) : (s.setQuire q x).boot = s.boot := rfl
@[simp] theorem State.setQuire_spine (q : Nat) (x : Quire) : (s.setQuire q x).spine = s.spine := rfl
@[simp] theorem State.setQuire_flash (q : Nat) (x : Quire) : (s.setQuire q x).flash = s.flash := rfl
@[simp] theorem State.setQuire_pins (q : Nat) (x : Quire) : (s.setQuire q x).pins = s.pins := rfl
@[simp] theorem State.setQuire_splice (q : Nat) (x : Quire) : (s.setQuire q x).splice = s.splice := rfl
@[simp] theorem State.setQuire_groups (q : Nat) (x : Quire) : (s.setQuire q x).groups = s.groups := rfl
@[simp] theorem State.setQuire_colls (q : Nat) (x : Quire) : (s.setQuire q x).colls = s.colls := rfl
@[simp] theorem State.setQuire_transfers (q : Nat) (x : Quire) : (s.setQuire q x).transfers = s.transfers := rfl
@[simp] theorem State.setQuire_records (q : Nat) (x : Quire) : (s.setQuire q x).records = s.records := rfl
@[simp] theorem State.setQuire_grade768 (q : Nat) (x : Quire) : (s.setQuire q x).grade768 = s.grade768 := rfl
@[simp] theorem State.setQuire_device (q : Nat) (x : Quire) : (s.setQuire q x).device = s.device := rfl
@[simp] theorem State.setQuire_incarnation (q : Nat) (x : Quire) : (s.setQuire q x).incarnation = s.incarnation := rfl

@[simp] theorem State.updQuire_pending (q : Nat) (f : Quire → Quire) : (s.updQuire q f).pending = s.pending := rfl
@[simp] theorem State.updQuire_free (q : Nat) (f : Quire → Quire) : (s.updQuire q f).free = s.free := rfl
@[simp] theorem State.updQuire_nextTag (q : Nat) (f : Quire → Quire) : (s.updQuire q f).nextTag = s.nextTag := rfl
@[simp] theorem State.updQuire_tiles (q : Nat) (f : Quire → Quire) : (s.updQuire q f).tiles = s.tiles := rfl
@[simp] theorem State.updQuire_islands (q : Nat) (f : Quire → Quire) : (s.updQuire q f).islands = s.islands := rfl
@[simp] theorem State.updQuire_mesh (q : Nat) (f : Quire → Quire) : (s.updQuire q f).mesh = s.mesh := rfl
@[simp] theorem State.updQuire_hbm (q : Nat) (f : Quire → Quire) : (s.updQuire q f).hbm = s.hbm := rfl
@[simp] theorem State.updQuire_chans (q : Nat) (f : Quire → Quire) : (s.updQuire q f).chans = s.chans := rfl
@[simp] theorem State.updQuire_mem (q : Nat) (f : Quire → Quire) : (s.updQuire q f).mem = s.mem := rfl
@[simp] theorem State.updQuire_rights (q : Nat) (f : Quire → Quire) : (s.updQuire q f).rights = s.rights := rfl
@[simp] theorem State.updQuire_alarms (q : Nat) (f : Quire → Quire) : (s.updQuire q f).alarms = s.alarms := rfl
@[simp] theorem State.updQuire_alarmSeq (q : Nat) (f : Quire → Quire) : (s.updQuire q f).alarmSeq = s.alarmSeq := rfl
@[simp] theorem State.updQuire_logQ (q : Nat) (f : Quire → Quire) : (s.updQuire q f).logQ = s.logQ := rfl
@[simp] theorem State.updQuire_logSeq (q : Nat) (f : Quire → Quire) : (s.updQuire q f).logSeq = s.logSeq := rfl
@[simp] theorem State.updQuire_logLost (q : Nat) (f : Quire → Quire) : (s.updQuire q f).logLost = s.logLost := rfl
@[simp] theorem State.updQuire_logRing (q : Nat) (f : Quire → Quire) : (s.updQuire q f).logRing = s.logRing := rfl
@[simp] theorem State.updQuire_logRead (q : Nat) (f : Quire → Quire) : (s.updQuire q f).logRead = s.logRead := rfl
@[simp] theorem State.updQuire_traceLost (q : Nat) (f : Quire → Quire) : (s.updQuire q f).traceLost = s.traceLost := rfl
@[simp] theorem State.updQuire_score (q : Nat) (f : Quire → Quire) : (s.updQuire q f).score = s.score := rfl
@[simp] theorem State.updQuire_corrSum (q : Nat) (f : Quire → Quire) : (s.updQuire q f).corrSum = s.corrSum := rfl
@[simp] theorem State.updQuire_lost (q : Nat) (f : Quire → Quire) : (s.updQuire q f).lost = s.lost := rfl
@[simp] theorem State.updQuire_noReplay (q : Nat) (f : Quire → Quire) : (s.updQuire q f).noReplay = s.noReplay := rfl
@[simp] theorem State.updQuire_counts (q : Nat) (f : Quire → Quire) : (s.updQuire q f).counts = s.counts := rfl
@[simp] theorem State.updQuire_survive (q : Nat) (f : Quire → Quire) : (s.updQuire q f).survive = s.survive := rfl
@[simp] theorem State.updQuire_net (q : Nat) (f : Quire → Quire) : (s.updQuire q f).net = s.net := rfl
@[simp] theorem State.updQuire_power (q : Nat) (f : Quire → Quire) : (s.updQuire q f).power = s.power := rfl
@[simp] theorem State.updQuire_boot (q : Nat) (f : Quire → Quire) : (s.updQuire q f).boot = s.boot := rfl
@[simp] theorem State.updQuire_spine (q : Nat) (f : Quire → Quire) : (s.updQuire q f).spine = s.spine := rfl
@[simp] theorem State.updQuire_flash (q : Nat) (f : Quire → Quire) : (s.updQuire q f).flash = s.flash := rfl
@[simp] theorem State.updQuire_pins (q : Nat) (f : Quire → Quire) : (s.updQuire q f).pins = s.pins := rfl
@[simp] theorem State.updQuire_splice (q : Nat) (f : Quire → Quire) : (s.updQuire q f).splice = s.splice := rfl
@[simp] theorem State.updQuire_groups (q : Nat) (f : Quire → Quire) : (s.updQuire q f).groups = s.groups := rfl
@[simp] theorem State.updQuire_colls (q : Nat) (f : Quire → Quire) : (s.updQuire q f).colls = s.colls := rfl
@[simp] theorem State.updQuire_transfers (q : Nat) (f : Quire → Quire) : (s.updQuire q f).transfers = s.transfers := rfl
@[simp] theorem State.updQuire_records (q : Nat) (f : Quire → Quire) : (s.updQuire q f).records = s.records := rfl
@[simp] theorem State.updQuire_grade768 (q : Nat) (f : Quire → Quire) : (s.updQuire q f).grade768 = s.grade768 := rfl
@[simp] theorem State.updQuire_device (q : Nat) (f : Quire → Quire) : (s.updQuire q f).device = s.device := rfl
@[simp] theorem State.updQuire_incarnation (q : Nat) (f : Quire → Quire) : (s.updQuire q f).incarnation = s.incarnation := rfl

@[simp] theorem State.setEth_pending (e : Nat) (x : Eth) : (s.setEth e x).pending = s.pending := rfl
@[simp] theorem State.setEth_free (e : Nat) (x : Eth) : (s.setEth e x).free = s.free := rfl
@[simp] theorem State.setEth_nextTag (e : Nat) (x : Eth) : (s.setEth e x).nextTag = s.nextTag := rfl
@[simp] theorem State.setEth_tiles (e : Nat) (x : Eth) : (s.setEth e x).tiles = s.tiles := rfl
@[simp] theorem State.setEth_islands (e : Nat) (x : Eth) : (s.setEth e x).islands = s.islands := rfl
@[simp] theorem State.setEth_mesh (e : Nat) (x : Eth) : (s.setEth e x).mesh = s.mesh := rfl
@[simp] theorem State.setEth_hbm (e : Nat) (x : Eth) : (s.setEth e x).hbm = s.hbm := rfl
@[simp] theorem State.setEth_chans (e : Nat) (x : Eth) : (s.setEth e x).chans = s.chans := rfl
@[simp] theorem State.setEth_mem (e : Nat) (x : Eth) : (s.setEth e x).mem = s.mem := rfl
@[simp] theorem State.setEth_rights (e : Nat) (x : Eth) : (s.setEth e x).rights = s.rights := rfl
@[simp] theorem State.setEth_alarms (e : Nat) (x : Eth) : (s.setEth e x).alarms = s.alarms := rfl
@[simp] theorem State.setEth_alarmSeq (e : Nat) (x : Eth) : (s.setEth e x).alarmSeq = s.alarmSeq := rfl
@[simp] theorem State.setEth_logQ (e : Nat) (x : Eth) : (s.setEth e x).logQ = s.logQ := rfl
@[simp] theorem State.setEth_logSeq (e : Nat) (x : Eth) : (s.setEth e x).logSeq = s.logSeq := rfl
@[simp] theorem State.setEth_logLost (e : Nat) (x : Eth) : (s.setEth e x).logLost = s.logLost := rfl
@[simp] theorem State.setEth_logRing (e : Nat) (x : Eth) : (s.setEth e x).logRing = s.logRing := rfl
@[simp] theorem State.setEth_logRead (e : Nat) (x : Eth) : (s.setEth e x).logRead = s.logRead := rfl
@[simp] theorem State.setEth_traceLost (e : Nat) (x : Eth) : (s.setEth e x).traceLost = s.traceLost := rfl
@[simp] theorem State.setEth_score (e : Nat) (x : Eth) : (s.setEth e x).score = s.score := rfl
@[simp] theorem State.setEth_corrSum (e : Nat) (x : Eth) : (s.setEth e x).corrSum = s.corrSum := rfl
@[simp] theorem State.setEth_lost (e : Nat) (x : Eth) : (s.setEth e x).lost = s.lost := rfl
@[simp] theorem State.setEth_noReplay (e : Nat) (x : Eth) : (s.setEth e x).noReplay = s.noReplay := rfl
@[simp] theorem State.setEth_counts (e : Nat) (x : Eth) : (s.setEth e x).counts = s.counts := rfl
@[simp] theorem State.setEth_quires (e : Nat) (x : Eth) : (s.setEth e x).quires = s.quires := rfl
@[simp] theorem State.setEth_survive (e : Nat) (x : Eth) : (s.setEth e x).survive = s.survive := rfl
@[simp] theorem State.setEth_power (e : Nat) (x : Eth) : (s.setEth e x).power = s.power := rfl
@[simp] theorem State.setEth_boot (e : Nat) (x : Eth) : (s.setEth e x).boot = s.boot := rfl
@[simp] theorem State.setEth_spine (e : Nat) (x : Eth) : (s.setEth e x).spine = s.spine := rfl
@[simp] theorem State.setEth_flash (e : Nat) (x : Eth) : (s.setEth e x).flash = s.flash := rfl
@[simp] theorem State.setEth_pins (e : Nat) (x : Eth) : (s.setEth e x).pins = s.pins := rfl
@[simp] theorem State.setEth_splice (e : Nat) (x : Eth) : (s.setEth e x).splice = s.splice := rfl
@[simp] theorem State.setEth_groups (e : Nat) (x : Eth) : (s.setEth e x).groups = s.groups := rfl
@[simp] theorem State.setEth_colls (e : Nat) (x : Eth) : (s.setEth e x).colls = s.colls := rfl
@[simp] theorem State.setEth_transfers (e : Nat) (x : Eth) : (s.setEth e x).transfers = s.transfers := rfl
@[simp] theorem State.setEth_records (e : Nat) (x : Eth) : (s.setEth e x).records = s.records := rfl
@[simp] theorem State.setEth_grade768 (e : Nat) (x : Eth) : (s.setEth e x).grade768 = s.grade768 := rfl
@[simp] theorem State.setEth_device (e : Nat) (x : Eth) : (s.setEth e x).device = s.device := rfl
@[simp] theorem State.setEth_incarnation (e : Nat) (x : Eth) : (s.setEth e x).incarnation = s.incarnation := rfl

@[simp] theorem State.setPort_pending (p : Nat) (x : Port) : (s.setPort p x).pending = s.pending := rfl
@[simp] theorem State.setPort_free (p : Nat) (x : Port) : (s.setPort p x).free = s.free := rfl
@[simp] theorem State.setPort_nextTag (p : Nat) (x : Port) : (s.setPort p x).nextTag = s.nextTag := rfl
@[simp] theorem State.setPort_tiles (p : Nat) (x : Port) : (s.setPort p x).tiles = s.tiles := rfl
@[simp] theorem State.setPort_islands (p : Nat) (x : Port) : (s.setPort p x).islands = s.islands := rfl
@[simp] theorem State.setPort_mesh (p : Nat) (x : Port) : (s.setPort p x).mesh = s.mesh := rfl
@[simp] theorem State.setPort_hbm (p : Nat) (x : Port) : (s.setPort p x).hbm = s.hbm := rfl
@[simp] theorem State.setPort_chans (p : Nat) (x : Port) : (s.setPort p x).chans = s.chans := rfl
@[simp] theorem State.setPort_mem (p : Nat) (x : Port) : (s.setPort p x).mem = s.mem := rfl
@[simp] theorem State.setPort_rights (p : Nat) (x : Port) : (s.setPort p x).rights = s.rights := rfl
@[simp] theorem State.setPort_alarms (p : Nat) (x : Port) : (s.setPort p x).alarms = s.alarms := rfl
@[simp] theorem State.setPort_alarmSeq (p : Nat) (x : Port) : (s.setPort p x).alarmSeq = s.alarmSeq := rfl
@[simp] theorem State.setPort_logQ (p : Nat) (x : Port) : (s.setPort p x).logQ = s.logQ := rfl
@[simp] theorem State.setPort_logSeq (p : Nat) (x : Port) : (s.setPort p x).logSeq = s.logSeq := rfl
@[simp] theorem State.setPort_logLost (p : Nat) (x : Port) : (s.setPort p x).logLost = s.logLost := rfl
@[simp] theorem State.setPort_logRing (p : Nat) (x : Port) : (s.setPort p x).logRing = s.logRing := rfl
@[simp] theorem State.setPort_logRead (p : Nat) (x : Port) : (s.setPort p x).logRead = s.logRead := rfl
@[simp] theorem State.setPort_traceLost (p : Nat) (x : Port) : (s.setPort p x).traceLost = s.traceLost := rfl
@[simp] theorem State.setPort_score (p : Nat) (x : Port) : (s.setPort p x).score = s.score := rfl
@[simp] theorem State.setPort_corrSum (p : Nat) (x : Port) : (s.setPort p x).corrSum = s.corrSum := rfl
@[simp] theorem State.setPort_lost (p : Nat) (x : Port) : (s.setPort p x).lost = s.lost := rfl
@[simp] theorem State.setPort_noReplay (p : Nat) (x : Port) : (s.setPort p x).noReplay = s.noReplay := rfl
@[simp] theorem State.setPort_counts (p : Nat) (x : Port) : (s.setPort p x).counts = s.counts := rfl
@[simp] theorem State.setPort_quires (p : Nat) (x : Port) : (s.setPort p x).quires = s.quires := rfl
@[simp] theorem State.setPort_survive (p : Nat) (x : Port) : (s.setPort p x).survive = s.survive := rfl
@[simp] theorem State.setPort_net (p : Nat) (x : Port) : (s.setPort p x).net = s.net := rfl
@[simp] theorem State.setPort_power (p : Nat) (x : Port) : (s.setPort p x).power = s.power := rfl
@[simp] theorem State.setPort_boot (p : Nat) (x : Port) : (s.setPort p x).boot = s.boot := rfl
@[simp] theorem State.setPort_spine (p : Nat) (x : Port) : (s.setPort p x).spine = s.spine := rfl
@[simp] theorem State.setPort_flash (p : Nat) (x : Port) : (s.setPort p x).flash = s.flash := rfl
@[simp] theorem State.setPort_pins (p : Nat) (x : Port) : (s.setPort p x).pins = s.pins := rfl
@[simp] theorem State.setPort_groups (p : Nat) (x : Port) : (s.setPort p x).groups = s.groups := rfl
@[simp] theorem State.setPort_colls (p : Nat) (x : Port) : (s.setPort p x).colls = s.colls := rfl
@[simp] theorem State.setPort_transfers (p : Nat) (x : Port) : (s.setPort p x).transfers = s.transfers := rfl
@[simp] theorem State.setPort_records (p : Nat) (x : Port) : (s.setPort p x).records = s.records := rfl
@[simp] theorem State.setPort_grade768 (p : Nat) (x : Port) : (s.setPort p x).grade768 = s.grade768 := rfl
@[simp] theorem State.setPort_device (p : Nat) (x : Port) : (s.setPort p x).device = s.device := rfl
@[simp] theorem State.setPort_incarnation (p : Nat) (x : Port) : (s.setPort p x).incarnation = s.incarnation := rfl

@[simp] theorem State.setSession_pending (id : Nat) (x : Option Session) : (s.setSession id x).pending = s.pending := rfl
@[simp] theorem State.setSession_free (id : Nat) (x : Option Session) : (s.setSession id x).free = s.free := rfl
@[simp] theorem State.setSession_nextTag (id : Nat) (x : Option Session) : (s.setSession id x).nextTag = s.nextTag := rfl
@[simp] theorem State.setSession_tiles (id : Nat) (x : Option Session) : (s.setSession id x).tiles = s.tiles := rfl
@[simp] theorem State.setSession_islands (id : Nat) (x : Option Session) : (s.setSession id x).islands = s.islands := rfl
@[simp] theorem State.setSession_mesh (id : Nat) (x : Option Session) : (s.setSession id x).mesh = s.mesh := rfl
@[simp] theorem State.setSession_hbm (id : Nat) (x : Option Session) : (s.setSession id x).hbm = s.hbm := rfl
@[simp] theorem State.setSession_chans (id : Nat) (x : Option Session) : (s.setSession id x).chans = s.chans := rfl
@[simp] theorem State.setSession_mem (id : Nat) (x : Option Session) : (s.setSession id x).mem = s.mem := rfl
@[simp] theorem State.setSession_rights (id : Nat) (x : Option Session) : (s.setSession id x).rights = s.rights := rfl
@[simp] theorem State.setSession_alarms (id : Nat) (x : Option Session) : (s.setSession id x).alarms = s.alarms := rfl
@[simp] theorem State.setSession_alarmSeq (id : Nat) (x : Option Session) : (s.setSession id x).alarmSeq = s.alarmSeq := rfl
@[simp] theorem State.setSession_logQ (id : Nat) (x : Option Session) : (s.setSession id x).logQ = s.logQ := rfl
@[simp] theorem State.setSession_logSeq (id : Nat) (x : Option Session) : (s.setSession id x).logSeq = s.logSeq := rfl
@[simp] theorem State.setSession_logLost (id : Nat) (x : Option Session) : (s.setSession id x).logLost = s.logLost := rfl
@[simp] theorem State.setSession_logRing (id : Nat) (x : Option Session) : (s.setSession id x).logRing = s.logRing := rfl
@[simp] theorem State.setSession_logRead (id : Nat) (x : Option Session) : (s.setSession id x).logRead = s.logRead := rfl
@[simp] theorem State.setSession_traceLost (id : Nat) (x : Option Session) : (s.setSession id x).traceLost = s.traceLost := rfl
@[simp] theorem State.setSession_score (id : Nat) (x : Option Session) : (s.setSession id x).score = s.score := rfl
@[simp] theorem State.setSession_corrSum (id : Nat) (x : Option Session) : (s.setSession id x).corrSum = s.corrSum := rfl
@[simp] theorem State.setSession_lost (id : Nat) (x : Option Session) : (s.setSession id x).lost = s.lost := rfl
@[simp] theorem State.setSession_noReplay (id : Nat) (x : Option Session) : (s.setSession id x).noReplay = s.noReplay := rfl
@[simp] theorem State.setSession_counts (id : Nat) (x : Option Session) : (s.setSession id x).counts = s.counts := rfl
@[simp] theorem State.setSession_quires (id : Nat) (x : Option Session) : (s.setSession id x).quires = s.quires := rfl
@[simp] theorem State.setSession_survive (id : Nat) (x : Option Session) : (s.setSession id x).survive = s.survive := rfl
@[simp] theorem State.setSession_power (id : Nat) (x : Option Session) : (s.setSession id x).power = s.power := rfl
@[simp] theorem State.setSession_boot (id : Nat) (x : Option Session) : (s.setSession id x).boot = s.boot := rfl
@[simp] theorem State.setSession_spine (id : Nat) (x : Option Session) : (s.setSession id x).spine = s.spine := rfl
@[simp] theorem State.setSession_flash (id : Nat) (x : Option Session) : (s.setSession id x).flash = s.flash := rfl
@[simp] theorem State.setSession_pins (id : Nat) (x : Option Session) : (s.setSession id x).pins = s.pins := rfl
@[simp] theorem State.setSession_splice (id : Nat) (x : Option Session) : (s.setSession id x).splice = s.splice := rfl
@[simp] theorem State.setSession_groups (id : Nat) (x : Option Session) : (s.setSession id x).groups = s.groups := rfl
@[simp] theorem State.setSession_colls (id : Nat) (x : Option Session) : (s.setSession id x).colls = s.colls := rfl
@[simp] theorem State.setSession_transfers (id : Nat) (x : Option Session) : (s.setSession id x).transfers = s.transfers := rfl
@[simp] theorem State.setSession_records (id : Nat) (x : Option Session) : (s.setSession id x).records = s.records := rfl
@[simp] theorem State.setSession_grade768 (id : Nat) (x : Option Session) : (s.setSession id x).grade768 = s.grade768 := rfl
@[simp] theorem State.setSession_device (id : Nat) (x : Option Session) : (s.setSession id x).device = s.device := rfl
@[simp] theorem State.setSession_incarnation (id : Nat) (x : Option Session) : (s.setSession id x).incarnation = s.incarnation := rfl

@[simp] theorem State.send_pending (o : NetOut) : (s.send o).pending = s.pending := rfl
@[simp] theorem State.send_free (o : NetOut) : (s.send o).free = s.free := rfl
@[simp] theorem State.send_nextTag (o : NetOut) : (s.send o).nextTag = s.nextTag := rfl
@[simp] theorem State.send_tiles (o : NetOut) : (s.send o).tiles = s.tiles := rfl
@[simp] theorem State.send_islands (o : NetOut) : (s.send o).islands = s.islands := rfl
@[simp] theorem State.send_mesh (o : NetOut) : (s.send o).mesh = s.mesh := rfl
@[simp] theorem State.send_hbm (o : NetOut) : (s.send o).hbm = s.hbm := rfl
@[simp] theorem State.send_chans (o : NetOut) : (s.send o).chans = s.chans := rfl
@[simp] theorem State.send_mem (o : NetOut) : (s.send o).mem = s.mem := rfl
@[simp] theorem State.send_rights (o : NetOut) : (s.send o).rights = s.rights := rfl
@[simp] theorem State.send_alarms (o : NetOut) : (s.send o).alarms = s.alarms := rfl
@[simp] theorem State.send_alarmSeq (o : NetOut) : (s.send o).alarmSeq = s.alarmSeq := rfl
@[simp] theorem State.send_logQ (o : NetOut) : (s.send o).logQ = s.logQ := rfl
@[simp] theorem State.send_logSeq (o : NetOut) : (s.send o).logSeq = s.logSeq := rfl
@[simp] theorem State.send_logLost (o : NetOut) : (s.send o).logLost = s.logLost := rfl
@[simp] theorem State.send_logRing (o : NetOut) : (s.send o).logRing = s.logRing := rfl
@[simp] theorem State.send_logRead (o : NetOut) : (s.send o).logRead = s.logRead := rfl
@[simp] theorem State.send_traceLost (o : NetOut) : (s.send o).traceLost = s.traceLost := rfl
@[simp] theorem State.send_score (o : NetOut) : (s.send o).score = s.score := rfl
@[simp] theorem State.send_corrSum (o : NetOut) : (s.send o).corrSum = s.corrSum := rfl
@[simp] theorem State.send_lost (o : NetOut) : (s.send o).lost = s.lost := rfl
@[simp] theorem State.send_noReplay (o : NetOut) : (s.send o).noReplay = s.noReplay := rfl
@[simp] theorem State.send_counts (o : NetOut) : (s.send o).counts = s.counts := rfl
@[simp] theorem State.send_quires (o : NetOut) : (s.send o).quires = s.quires := rfl
@[simp] theorem State.send_survive (o : NetOut) : (s.send o).survive = s.survive := rfl
@[simp] theorem State.send_power (o : NetOut) : (s.send o).power = s.power := rfl
@[simp] theorem State.send_boot (o : NetOut) : (s.send o).boot = s.boot := rfl
@[simp] theorem State.send_spine (o : NetOut) : (s.send o).spine = s.spine := rfl
@[simp] theorem State.send_flash (o : NetOut) : (s.send o).flash = s.flash := rfl
@[simp] theorem State.send_pins (o : NetOut) : (s.send o).pins = s.pins := rfl
@[simp] theorem State.send_splice (o : NetOut) : (s.send o).splice = s.splice := rfl
@[simp] theorem State.send_groups (o : NetOut) : (s.send o).groups = s.groups := rfl
@[simp] theorem State.send_colls (o : NetOut) : (s.send o).colls = s.colls := rfl
@[simp] theorem State.send_transfers (o : NetOut) : (s.send o).transfers = s.transfers := rfl
@[simp] theorem State.send_records (o : NetOut) : (s.send o).records = s.records := rfl
@[simp] theorem State.send_grade768 (o : NetOut) : (s.send o).grade768 = s.grade768 := rfl
@[simp] theorem State.send_device (o : NetOut) : (s.send o).device = s.device := rfl
@[simp] theorem State.send_incarnation (o : NetOut) : (s.send o).incarnation = s.incarnation := rfl

@[simp] theorem State.setGroup_pending (g : Nat) (x : Option Group) : (s.setGroup g x).pending = s.pending := rfl
@[simp] theorem State.setGroup_free (g : Nat) (x : Option Group) : (s.setGroup g x).free = s.free := rfl
@[simp] theorem State.setGroup_nextTag (g : Nat) (x : Option Group) : (s.setGroup g x).nextTag = s.nextTag := rfl
@[simp] theorem State.setGroup_tiles (g : Nat) (x : Option Group) : (s.setGroup g x).tiles = s.tiles := rfl
@[simp] theorem State.setGroup_islands (g : Nat) (x : Option Group) : (s.setGroup g x).islands = s.islands := rfl
@[simp] theorem State.setGroup_mesh (g : Nat) (x : Option Group) : (s.setGroup g x).mesh = s.mesh := rfl
@[simp] theorem State.setGroup_hbm (g : Nat) (x : Option Group) : (s.setGroup g x).hbm = s.hbm := rfl
@[simp] theorem State.setGroup_chans (g : Nat) (x : Option Group) : (s.setGroup g x).chans = s.chans := rfl
@[simp] theorem State.setGroup_mem (g : Nat) (x : Option Group) : (s.setGroup g x).mem = s.mem := rfl
@[simp] theorem State.setGroup_rights (g : Nat) (x : Option Group) : (s.setGroup g x).rights = s.rights := rfl
@[simp] theorem State.setGroup_alarms (g : Nat) (x : Option Group) : (s.setGroup g x).alarms = s.alarms := rfl
@[simp] theorem State.setGroup_alarmSeq (g : Nat) (x : Option Group) : (s.setGroup g x).alarmSeq = s.alarmSeq := rfl
@[simp] theorem State.setGroup_logQ (g : Nat) (x : Option Group) : (s.setGroup g x).logQ = s.logQ := rfl
@[simp] theorem State.setGroup_logSeq (g : Nat) (x : Option Group) : (s.setGroup g x).logSeq = s.logSeq := rfl
@[simp] theorem State.setGroup_logLost (g : Nat) (x : Option Group) : (s.setGroup g x).logLost = s.logLost := rfl
@[simp] theorem State.setGroup_logRing (g : Nat) (x : Option Group) : (s.setGroup g x).logRing = s.logRing := rfl
@[simp] theorem State.setGroup_logRead (g : Nat) (x : Option Group) : (s.setGroup g x).logRead = s.logRead := rfl
@[simp] theorem State.setGroup_traceLost (g : Nat) (x : Option Group) : (s.setGroup g x).traceLost = s.traceLost := rfl
@[simp] theorem State.setGroup_score (g : Nat) (x : Option Group) : (s.setGroup g x).score = s.score := rfl
@[simp] theorem State.setGroup_corrSum (g : Nat) (x : Option Group) : (s.setGroup g x).corrSum = s.corrSum := rfl
@[simp] theorem State.setGroup_lost (g : Nat) (x : Option Group) : (s.setGroup g x).lost = s.lost := rfl
@[simp] theorem State.setGroup_noReplay (g : Nat) (x : Option Group) : (s.setGroup g x).noReplay = s.noReplay := rfl
@[simp] theorem State.setGroup_counts (g : Nat) (x : Option Group) : (s.setGroup g x).counts = s.counts := rfl
@[simp] theorem State.setGroup_quires (g : Nat) (x : Option Group) : (s.setGroup g x).quires = s.quires := rfl
@[simp] theorem State.setGroup_survive (g : Nat) (x : Option Group) : (s.setGroup g x).survive = s.survive := rfl
@[simp] theorem State.setGroup_net (g : Nat) (x : Option Group) : (s.setGroup g x).net = s.net := rfl
@[simp] theorem State.setGroup_power (g : Nat) (x : Option Group) : (s.setGroup g x).power = s.power := rfl
@[simp] theorem State.setGroup_boot (g : Nat) (x : Option Group) : (s.setGroup g x).boot = s.boot := rfl
@[simp] theorem State.setGroup_spine (g : Nat) (x : Option Group) : (s.setGroup g x).spine = s.spine := rfl
@[simp] theorem State.setGroup_flash (g : Nat) (x : Option Group) : (s.setGroup g x).flash = s.flash := rfl
@[simp] theorem State.setGroup_pins (g : Nat) (x : Option Group) : (s.setGroup g x).pins = s.pins := rfl
@[simp] theorem State.setGroup_splice (g : Nat) (x : Option Group) : (s.setGroup g x).splice = s.splice := rfl
@[simp] theorem State.setGroup_colls (g : Nat) (x : Option Group) : (s.setGroup g x).colls = s.colls := rfl
@[simp] theorem State.setGroup_transfers (g : Nat) (x : Option Group) : (s.setGroup g x).transfers = s.transfers := rfl
@[simp] theorem State.setGroup_records (g : Nat) (x : Option Group) : (s.setGroup g x).records = s.records := rfl
@[simp] theorem State.setGroup_grade768 (g : Nat) (x : Option Group) : (s.setGroup g x).grade768 = s.grade768 := rfl
@[simp] theorem State.setGroup_device (g : Nat) (x : Option Group) : (s.setGroup g x).device = s.device := rfl
@[simp] theorem State.setGroup_incarnation (g : Nat) (x : Option Group) : (s.setGroup g x).incarnation = s.incarnation := rfl

@[simp] theorem State.setFeed_pending (f : Feed) (x : FeedInfo) : (s.setFeed f x).pending = s.pending := rfl
@[simp] theorem State.setFeed_free (f : Feed) (x : FeedInfo) : (s.setFeed f x).free = s.free := rfl
@[simp] theorem State.setFeed_nextTag (f : Feed) (x : FeedInfo) : (s.setFeed f x).nextTag = s.nextTag := rfl
@[simp] theorem State.setFeed_tiles (f : Feed) (x : FeedInfo) : (s.setFeed f x).tiles = s.tiles := rfl
@[simp] theorem State.setFeed_islands (f : Feed) (x : FeedInfo) : (s.setFeed f x).islands = s.islands := rfl
@[simp] theorem State.setFeed_mesh (f : Feed) (x : FeedInfo) : (s.setFeed f x).mesh = s.mesh := rfl
@[simp] theorem State.setFeed_hbm (f : Feed) (x : FeedInfo) : (s.setFeed f x).hbm = s.hbm := rfl
@[simp] theorem State.setFeed_chans (f : Feed) (x : FeedInfo) : (s.setFeed f x).chans = s.chans := rfl
@[simp] theorem State.setFeed_mem (f : Feed) (x : FeedInfo) : (s.setFeed f x).mem = s.mem := rfl
@[simp] theorem State.setFeed_rights (f : Feed) (x : FeedInfo) : (s.setFeed f x).rights = s.rights := rfl
@[simp] theorem State.setFeed_alarms (f : Feed) (x : FeedInfo) : (s.setFeed f x).alarms = s.alarms := rfl
@[simp] theorem State.setFeed_alarmSeq (f : Feed) (x : FeedInfo) : (s.setFeed f x).alarmSeq = s.alarmSeq := rfl
@[simp] theorem State.setFeed_logQ (f : Feed) (x : FeedInfo) : (s.setFeed f x).logQ = s.logQ := rfl
@[simp] theorem State.setFeed_logSeq (f : Feed) (x : FeedInfo) : (s.setFeed f x).logSeq = s.logSeq := rfl
@[simp] theorem State.setFeed_logLost (f : Feed) (x : FeedInfo) : (s.setFeed f x).logLost = s.logLost := rfl
@[simp] theorem State.setFeed_logRing (f : Feed) (x : FeedInfo) : (s.setFeed f x).logRing = s.logRing := rfl
@[simp] theorem State.setFeed_logRead (f : Feed) (x : FeedInfo) : (s.setFeed f x).logRead = s.logRead := rfl
@[simp] theorem State.setFeed_traceLost (f : Feed) (x : FeedInfo) : (s.setFeed f x).traceLost = s.traceLost := rfl
@[simp] theorem State.setFeed_score (f : Feed) (x : FeedInfo) : (s.setFeed f x).score = s.score := rfl
@[simp] theorem State.setFeed_corrSum (f : Feed) (x : FeedInfo) : (s.setFeed f x).corrSum = s.corrSum := rfl
@[simp] theorem State.setFeed_lost (f : Feed) (x : FeedInfo) : (s.setFeed f x).lost = s.lost := rfl
@[simp] theorem State.setFeed_noReplay (f : Feed) (x : FeedInfo) : (s.setFeed f x).noReplay = s.noReplay := rfl
@[simp] theorem State.setFeed_counts (f : Feed) (x : FeedInfo) : (s.setFeed f x).counts = s.counts := rfl
@[simp] theorem State.setFeed_quires (f : Feed) (x : FeedInfo) : (s.setFeed f x).quires = s.quires := rfl
@[simp] theorem State.setFeed_survive (f : Feed) (x : FeedInfo) : (s.setFeed f x).survive = s.survive := rfl
@[simp] theorem State.setFeed_net (f : Feed) (x : FeedInfo) : (s.setFeed f x).net = s.net := rfl
@[simp] theorem State.setFeed_boot (f : Feed) (x : FeedInfo) : (s.setFeed f x).boot = s.boot := rfl
@[simp] theorem State.setFeed_spine (f : Feed) (x : FeedInfo) : (s.setFeed f x).spine = s.spine := rfl
@[simp] theorem State.setFeed_flash (f : Feed) (x : FeedInfo) : (s.setFeed f x).flash = s.flash := rfl
@[simp] theorem State.setFeed_pins (f : Feed) (x : FeedInfo) : (s.setFeed f x).pins = s.pins := rfl
@[simp] theorem State.setFeed_splice (f : Feed) (x : FeedInfo) : (s.setFeed f x).splice = s.splice := rfl
@[simp] theorem State.setFeed_groups (f : Feed) (x : FeedInfo) : (s.setFeed f x).groups = s.groups := rfl
@[simp] theorem State.setFeed_colls (f : Feed) (x : FeedInfo) : (s.setFeed f x).colls = s.colls := rfl
@[simp] theorem State.setFeed_transfers (f : Feed) (x : FeedInfo) : (s.setFeed f x).transfers = s.transfers := rfl
@[simp] theorem State.setFeed_records (f : Feed) (x : FeedInfo) : (s.setFeed f x).records = s.records := rfl
@[simp] theorem State.setFeed_grade768 (f : Feed) (x : FeedInfo) : (s.setFeed f x).grade768 = s.grade768 := rfl
@[simp] theorem State.setFeed_device (f : Feed) (x : FeedInfo) : (s.setFeed f x).device = s.device := rfl
@[simp] theorem State.setFeed_incarnation (f : Feed) (x : FeedInfo) : (s.setFeed f x).incarnation = s.incarnation := rfl

@[simp] theorem State.writeBytes_pending (a : Nat) (bs : List Byte) : (s.writeBytes a bs).pending = s.pending := rfl
@[simp] theorem State.writeBytes_free (a : Nat) (bs : List Byte) : (s.writeBytes a bs).free = s.free := rfl
@[simp] theorem State.writeBytes_nextTag (a : Nat) (bs : List Byte) : (s.writeBytes a bs).nextTag = s.nextTag := rfl
@[simp] theorem State.writeBytes_tiles (a : Nat) (bs : List Byte) : (s.writeBytes a bs).tiles = s.tiles := rfl
@[simp] theorem State.writeBytes_islands (a : Nat) (bs : List Byte) : (s.writeBytes a bs).islands = s.islands := rfl
@[simp] theorem State.writeBytes_mesh (a : Nat) (bs : List Byte) : (s.writeBytes a bs).mesh = s.mesh := rfl
@[simp] theorem State.writeBytes_hbm (a : Nat) (bs : List Byte) : (s.writeBytes a bs).hbm = s.hbm := rfl
@[simp] theorem State.writeBytes_chans (a : Nat) (bs : List Byte) : (s.writeBytes a bs).chans = s.chans := rfl
@[simp] theorem State.writeBytes_rights (a : Nat) (bs : List Byte) : (s.writeBytes a bs).rights = s.rights := rfl
@[simp] theorem State.writeBytes_alarms (a : Nat) (bs : List Byte) : (s.writeBytes a bs).alarms = s.alarms := rfl
@[simp] theorem State.writeBytes_alarmSeq (a : Nat) (bs : List Byte) : (s.writeBytes a bs).alarmSeq = s.alarmSeq := rfl
@[simp] theorem State.writeBytes_logQ (a : Nat) (bs : List Byte) : (s.writeBytes a bs).logQ = s.logQ := rfl
@[simp] theorem State.writeBytes_logSeq (a : Nat) (bs : List Byte) : (s.writeBytes a bs).logSeq = s.logSeq := rfl
@[simp] theorem State.writeBytes_logLost (a : Nat) (bs : List Byte) : (s.writeBytes a bs).logLost = s.logLost := rfl
@[simp] theorem State.writeBytes_logRing (a : Nat) (bs : List Byte) : (s.writeBytes a bs).logRing = s.logRing := rfl
@[simp] theorem State.writeBytes_logRead (a : Nat) (bs : List Byte) : (s.writeBytes a bs).logRead = s.logRead := rfl
@[simp] theorem State.writeBytes_traceLost (a : Nat) (bs : List Byte) : (s.writeBytes a bs).traceLost = s.traceLost := rfl
@[simp] theorem State.writeBytes_score (a : Nat) (bs : List Byte) : (s.writeBytes a bs).score = s.score := rfl
@[simp] theorem State.writeBytes_corrSum (a : Nat) (bs : List Byte) : (s.writeBytes a bs).corrSum = s.corrSum := rfl
@[simp] theorem State.writeBytes_lost (a : Nat) (bs : List Byte) : (s.writeBytes a bs).lost = s.lost := rfl
@[simp] theorem State.writeBytes_noReplay (a : Nat) (bs : List Byte) : (s.writeBytes a bs).noReplay = s.noReplay := rfl
@[simp] theorem State.writeBytes_counts (a : Nat) (bs : List Byte) : (s.writeBytes a bs).counts = s.counts := rfl
@[simp] theorem State.writeBytes_quires (a : Nat) (bs : List Byte) : (s.writeBytes a bs).quires = s.quires := rfl
@[simp] theorem State.writeBytes_survive (a : Nat) (bs : List Byte) : (s.writeBytes a bs).survive = s.survive := rfl
@[simp] theorem State.writeBytes_net (a : Nat) (bs : List Byte) : (s.writeBytes a bs).net = s.net := rfl
@[simp] theorem State.writeBytes_power (a : Nat) (bs : List Byte) : (s.writeBytes a bs).power = s.power := rfl
@[simp] theorem State.writeBytes_boot (a : Nat) (bs : List Byte) : (s.writeBytes a bs).boot = s.boot := rfl
@[simp] theorem State.writeBytes_spine (a : Nat) (bs : List Byte) : (s.writeBytes a bs).spine = s.spine := rfl
@[simp] theorem State.writeBytes_flash (a : Nat) (bs : List Byte) : (s.writeBytes a bs).flash = s.flash := rfl
@[simp] theorem State.writeBytes_pins (a : Nat) (bs : List Byte) : (s.writeBytes a bs).pins = s.pins := rfl
@[simp] theorem State.writeBytes_splice (a : Nat) (bs : List Byte) : (s.writeBytes a bs).splice = s.splice := rfl
@[simp] theorem State.writeBytes_groups (a : Nat) (bs : List Byte) : (s.writeBytes a bs).groups = s.groups := rfl
@[simp] theorem State.writeBytes_colls (a : Nat) (bs : List Byte) : (s.writeBytes a bs).colls = s.colls := rfl
@[simp] theorem State.writeBytes_transfers (a : Nat) (bs : List Byte) : (s.writeBytes a bs).transfers = s.transfers := rfl
@[simp] theorem State.writeBytes_records (a : Nat) (bs : List Byte) : (s.writeBytes a bs).records = s.records := rfl
@[simp] theorem State.writeBytes_grade768 (a : Nat) (bs : List Byte) : (s.writeBytes a bs).grade768 = s.grade768 := rfl
@[simp] theorem State.writeBytes_device (a : Nat) (bs : List Byte) : (s.writeBytes a bs).device = s.device := rfl
@[simp] theorem State.writeBytes_incarnation (a : Nat) (bs : List Byte) : (s.writeBytes a bs).incarnation = s.incarnation := rfl

@[simp] theorem State.count_pending (q k n : Nat) : (s.count q k n).pending = s.pending := rfl
@[simp] theorem State.count_free (q k n : Nat) : (s.count q k n).free = s.free := rfl
@[simp] theorem State.count_nextTag (q k n : Nat) : (s.count q k n).nextTag = s.nextTag := rfl
@[simp] theorem State.count_tiles (q k n : Nat) : (s.count q k n).tiles = s.tiles := rfl
@[simp] theorem State.count_islands (q k n : Nat) : (s.count q k n).islands = s.islands := rfl
@[simp] theorem State.count_mesh (q k n : Nat) : (s.count q k n).mesh = s.mesh := rfl
@[simp] theorem State.count_hbm (q k n : Nat) : (s.count q k n).hbm = s.hbm := rfl
@[simp] theorem State.count_chans (q k n : Nat) : (s.count q k n).chans = s.chans := rfl
@[simp] theorem State.count_mem (q k n : Nat) : (s.count q k n).mem = s.mem := rfl
@[simp] theorem State.count_rights (q k n : Nat) : (s.count q k n).rights = s.rights := rfl
@[simp] theorem State.count_alarms (q k n : Nat) : (s.count q k n).alarms = s.alarms := rfl
@[simp] theorem State.count_alarmSeq (q k n : Nat) : (s.count q k n).alarmSeq = s.alarmSeq := rfl
@[simp] theorem State.count_logQ (q k n : Nat) : (s.count q k n).logQ = s.logQ := rfl
@[simp] theorem State.count_logSeq (q k n : Nat) : (s.count q k n).logSeq = s.logSeq := rfl
@[simp] theorem State.count_logLost (q k n : Nat) : (s.count q k n).logLost = s.logLost := rfl
@[simp] theorem State.count_logRing (q k n : Nat) : (s.count q k n).logRing = s.logRing := rfl
@[simp] theorem State.count_logRead (q k n : Nat) : (s.count q k n).logRead = s.logRead := rfl
@[simp] theorem State.count_traceLost (q k n : Nat) : (s.count q k n).traceLost = s.traceLost := rfl
@[simp] theorem State.count_score (q k n : Nat) : (s.count q k n).score = s.score := rfl
@[simp] theorem State.count_corrSum (q k n : Nat) : (s.count q k n).corrSum = s.corrSum := rfl
@[simp] theorem State.count_lost (q k n : Nat) : (s.count q k n).lost = s.lost := rfl
@[simp] theorem State.count_noReplay (q k n : Nat) : (s.count q k n).noReplay = s.noReplay := rfl
@[simp] theorem State.count_quires (q k n : Nat) : (s.count q k n).quires = s.quires := rfl
@[simp] theorem State.count_survive (q k n : Nat) : (s.count q k n).survive = s.survive := rfl
@[simp] theorem State.count_net (q k n : Nat) : (s.count q k n).net = s.net := rfl
@[simp] theorem State.count_power (q k n : Nat) : (s.count q k n).power = s.power := rfl
@[simp] theorem State.count_boot (q k n : Nat) : (s.count q k n).boot = s.boot := rfl
@[simp] theorem State.count_spine (q k n : Nat) : (s.count q k n).spine = s.spine := rfl
@[simp] theorem State.count_flash (q k n : Nat) : (s.count q k n).flash = s.flash := rfl
@[simp] theorem State.count_pins (q k n : Nat) : (s.count q k n).pins = s.pins := rfl
@[simp] theorem State.count_splice (q k n : Nat) : (s.count q k n).splice = s.splice := rfl
@[simp] theorem State.count_groups (q k n : Nat) : (s.count q k n).groups = s.groups := rfl
@[simp] theorem State.count_colls (q k n : Nat) : (s.count q k n).colls = s.colls := rfl
@[simp] theorem State.count_transfers (q k n : Nat) : (s.count q k n).transfers = s.transfers := rfl
@[simp] theorem State.count_records (q k n : Nat) : (s.count q k n).records = s.records := rfl
@[simp] theorem State.count_grade768 (q k n : Nat) : (s.count q k n).grade768 = s.grade768 := rfl
@[simp] theorem State.count_device (q k n : Nat) : (s.count q k n).device = s.device := rfl
@[simp] theorem State.count_incarnation (q k n : Nat) : (s.count q k n).incarnation = s.incarnation := rfl

@[simp] theorem State.payEnergy_pending (q n : Nat) : (s.payEnergy q n).pending = s.pending := rfl
@[simp] theorem State.payEnergy_free (q n : Nat) : (s.payEnergy q n).free = s.free := rfl
@[simp] theorem State.payEnergy_nextTag (q n : Nat) : (s.payEnergy q n).nextTag = s.nextTag := rfl
@[simp] theorem State.payEnergy_tiles (q n : Nat) : (s.payEnergy q n).tiles = s.tiles := rfl
@[simp] theorem State.payEnergy_islands (q n : Nat) : (s.payEnergy q n).islands = s.islands := rfl
@[simp] theorem State.payEnergy_mesh (q n : Nat) : (s.payEnergy q n).mesh = s.mesh := rfl
@[simp] theorem State.payEnergy_hbm (q n : Nat) : (s.payEnergy q n).hbm = s.hbm := rfl
@[simp] theorem State.payEnergy_chans (q n : Nat) : (s.payEnergy q n).chans = s.chans := rfl
@[simp] theorem State.payEnergy_mem (q n : Nat) : (s.payEnergy q n).mem = s.mem := rfl
@[simp] theorem State.payEnergy_rights (q n : Nat) : (s.payEnergy q n).rights = s.rights := rfl
@[simp] theorem State.payEnergy_alarms (q n : Nat) : (s.payEnergy q n).alarms = s.alarms := rfl
@[simp] theorem State.payEnergy_alarmSeq (q n : Nat) : (s.payEnergy q n).alarmSeq = s.alarmSeq := rfl
@[simp] theorem State.payEnergy_logQ (q n : Nat) : (s.payEnergy q n).logQ = s.logQ := rfl
@[simp] theorem State.payEnergy_logSeq (q n : Nat) : (s.payEnergy q n).logSeq = s.logSeq := rfl
@[simp] theorem State.payEnergy_logLost (q n : Nat) : (s.payEnergy q n).logLost = s.logLost := rfl
@[simp] theorem State.payEnergy_logRing (q n : Nat) : (s.payEnergy q n).logRing = s.logRing := rfl
@[simp] theorem State.payEnergy_logRead (q n : Nat) : (s.payEnergy q n).logRead = s.logRead := rfl
@[simp] theorem State.payEnergy_traceLost (q n : Nat) : (s.payEnergy q n).traceLost = s.traceLost := rfl
@[simp] theorem State.payEnergy_score (q n : Nat) : (s.payEnergy q n).score = s.score := rfl
@[simp] theorem State.payEnergy_corrSum (q n : Nat) : (s.payEnergy q n).corrSum = s.corrSum := rfl
@[simp] theorem State.payEnergy_lost (q n : Nat) : (s.payEnergy q n).lost = s.lost := rfl
@[simp] theorem State.payEnergy_noReplay (q n : Nat) : (s.payEnergy q n).noReplay = s.noReplay := rfl
@[simp] theorem State.payEnergy_counts (q n : Nat) : (s.payEnergy q n).counts = s.counts := rfl
@[simp] theorem State.payEnergy_survive (q n : Nat) : (s.payEnergy q n).survive = s.survive := rfl
@[simp] theorem State.payEnergy_net (q n : Nat) : (s.payEnergy q n).net = s.net := rfl
@[simp] theorem State.payEnergy_power (q n : Nat) : (s.payEnergy q n).power = s.power := rfl
@[simp] theorem State.payEnergy_boot (q n : Nat) : (s.payEnergy q n).boot = s.boot := rfl
@[simp] theorem State.payEnergy_spine (q n : Nat) : (s.payEnergy q n).spine = s.spine := rfl
@[simp] theorem State.payEnergy_flash (q n : Nat) : (s.payEnergy q n).flash = s.flash := rfl
@[simp] theorem State.payEnergy_pins (q n : Nat) : (s.payEnergy q n).pins = s.pins := rfl
@[simp] theorem State.payEnergy_splice (q n : Nat) : (s.payEnergy q n).splice = s.splice := rfl
@[simp] theorem State.payEnergy_groups (q n : Nat) : (s.payEnergy q n).groups = s.groups := rfl
@[simp] theorem State.payEnergy_colls (q n : Nat) : (s.payEnergy q n).colls = s.colls := rfl
@[simp] theorem State.payEnergy_transfers (q n : Nat) : (s.payEnergy q n).transfers = s.transfers := rfl
@[simp] theorem State.payEnergy_records (q n : Nat) : (s.payEnergy q n).records = s.records := rfl
@[simp] theorem State.payEnergy_grade768 (q n : Nat) : (s.payEnergy q n).grade768 = s.grade768 := rfl
@[simp] theorem State.payEnergy_device (q n : Nat) : (s.payEnergy q n).device = s.device := rfl
@[simp] theorem State.payEnergy_incarnation (q n : Nat) : (s.payEnergy q n).incarnation = s.incarnation := rfl

@[simp] theorem State.takeTag_pending : s.takeTag.2.pending = s.pending := rfl
@[simp] theorem State.takeTag_free : s.takeTag.2.free = s.free := rfl
@[simp] theorem State.takeTag_tiles : s.takeTag.2.tiles = s.tiles := rfl
@[simp] theorem State.takeTag_islands : s.takeTag.2.islands = s.islands := rfl
@[simp] theorem State.takeTag_mesh : s.takeTag.2.mesh = s.mesh := rfl
@[simp] theorem State.takeTag_hbm : s.takeTag.2.hbm = s.hbm := rfl
@[simp] theorem State.takeTag_chans : s.takeTag.2.chans = s.chans := rfl
@[simp] theorem State.takeTag_mem : s.takeTag.2.mem = s.mem := rfl
@[simp] theorem State.takeTag_rights : s.takeTag.2.rights = s.rights := rfl
@[simp] theorem State.takeTag_alarms : s.takeTag.2.alarms = s.alarms := rfl
@[simp] theorem State.takeTag_alarmSeq : s.takeTag.2.alarmSeq = s.alarmSeq := rfl
@[simp] theorem State.takeTag_logQ : s.takeTag.2.logQ = s.logQ := rfl
@[simp] theorem State.takeTag_logSeq : s.takeTag.2.logSeq = s.logSeq := rfl
@[simp] theorem State.takeTag_logLost : s.takeTag.2.logLost = s.logLost := rfl
@[simp] theorem State.takeTag_logRing : s.takeTag.2.logRing = s.logRing := rfl
@[simp] theorem State.takeTag_logRead : s.takeTag.2.logRead = s.logRead := rfl
@[simp] theorem State.takeTag_traceLost : s.takeTag.2.traceLost = s.traceLost := rfl
@[simp] theorem State.takeTag_score : s.takeTag.2.score = s.score := rfl
@[simp] theorem State.takeTag_corrSum : s.takeTag.2.corrSum = s.corrSum := rfl
@[simp] theorem State.takeTag_lost : s.takeTag.2.lost = s.lost := rfl
@[simp] theorem State.takeTag_noReplay : s.takeTag.2.noReplay = s.noReplay := rfl
@[simp] theorem State.takeTag_counts : s.takeTag.2.counts = s.counts := rfl
@[simp] theorem State.takeTag_quires : s.takeTag.2.quires = s.quires := rfl
@[simp] theorem State.takeTag_survive : s.takeTag.2.survive = s.survive := rfl
@[simp] theorem State.takeTag_net : s.takeTag.2.net = s.net := rfl
@[simp] theorem State.takeTag_power : s.takeTag.2.power = s.power := rfl
@[simp] theorem State.takeTag_boot : s.takeTag.2.boot = s.boot := rfl
@[simp] theorem State.takeTag_spine : s.takeTag.2.spine = s.spine := rfl
@[simp] theorem State.takeTag_flash : s.takeTag.2.flash = s.flash := rfl
@[simp] theorem State.takeTag_pins : s.takeTag.2.pins = s.pins := rfl
@[simp] theorem State.takeTag_splice : s.takeTag.2.splice = s.splice := rfl
@[simp] theorem State.takeTag_groups : s.takeTag.2.groups = s.groups := rfl
@[simp] theorem State.takeTag_colls : s.takeTag.2.colls = s.colls := rfl
@[simp] theorem State.takeTag_transfers : s.takeTag.2.transfers = s.transfers := rfl
@[simp] theorem State.takeTag_records : s.takeTag.2.records = s.records := rfl
@[simp] theorem State.takeTag_grade768 : s.takeTag.2.grade768 = s.grade768 := rfl
@[simp] theorem State.takeTag_device : s.takeTag.2.device = s.device := rfl
@[simp] theorem State.takeTag_incarnation : s.takeTag.2.incarnation = s.incarnation := rfl
@[simp] theorem State.takeTag_fst : s.takeTag.1 = s.nextTag := rfl
@[simp] theorem State.takeTag_nextTag : s.takeTag.2.nextTag = s.nextTag + 1 := rfl

@[simp] theorem State.takeFree_pending : s.takeFree.2.pending = s.pending := rfl
@[simp] theorem State.takeFree_nextTag : s.takeFree.2.nextTag = s.nextTag := rfl
@[simp] theorem State.takeFree_tiles : s.takeFree.2.tiles = s.tiles := rfl
@[simp] theorem State.takeFree_islands : s.takeFree.2.islands = s.islands := rfl
@[simp] theorem State.takeFree_mesh : s.takeFree.2.mesh = s.mesh := rfl
@[simp] theorem State.takeFree_hbm : s.takeFree.2.hbm = s.hbm := rfl
@[simp] theorem State.takeFree_chans : s.takeFree.2.chans = s.chans := rfl
@[simp] theorem State.takeFree_mem : s.takeFree.2.mem = s.mem := rfl
@[simp] theorem State.takeFree_rights : s.takeFree.2.rights = s.rights := rfl
@[simp] theorem State.takeFree_alarms : s.takeFree.2.alarms = s.alarms := rfl
@[simp] theorem State.takeFree_alarmSeq : s.takeFree.2.alarmSeq = s.alarmSeq := rfl
@[simp] theorem State.takeFree_logQ : s.takeFree.2.logQ = s.logQ := rfl
@[simp] theorem State.takeFree_logSeq : s.takeFree.2.logSeq = s.logSeq := rfl
@[simp] theorem State.takeFree_logLost : s.takeFree.2.logLost = s.logLost := rfl
@[simp] theorem State.takeFree_logRing : s.takeFree.2.logRing = s.logRing := rfl
@[simp] theorem State.takeFree_logRead : s.takeFree.2.logRead = s.logRead := rfl
@[simp] theorem State.takeFree_traceLost : s.takeFree.2.traceLost = s.traceLost := rfl
@[simp] theorem State.takeFree_score : s.takeFree.2.score = s.score := rfl
@[simp] theorem State.takeFree_corrSum : s.takeFree.2.corrSum = s.corrSum := rfl
@[simp] theorem State.takeFree_lost : s.takeFree.2.lost = s.lost := rfl
@[simp] theorem State.takeFree_noReplay : s.takeFree.2.noReplay = s.noReplay := rfl
@[simp] theorem State.takeFree_counts : s.takeFree.2.counts = s.counts := rfl
@[simp] theorem State.takeFree_quires : s.takeFree.2.quires = s.quires := rfl
@[simp] theorem State.takeFree_survive : s.takeFree.2.survive = s.survive := rfl
@[simp] theorem State.takeFree_net : s.takeFree.2.net = s.net := rfl
@[simp] theorem State.takeFree_power : s.takeFree.2.power = s.power := rfl
@[simp] theorem State.takeFree_boot : s.takeFree.2.boot = s.boot := rfl
@[simp] theorem State.takeFree_spine : s.takeFree.2.spine = s.spine := rfl
@[simp] theorem State.takeFree_flash : s.takeFree.2.flash = s.flash := rfl
@[simp] theorem State.takeFree_pins : s.takeFree.2.pins = s.pins := rfl
@[simp] theorem State.takeFree_splice : s.takeFree.2.splice = s.splice := rfl
@[simp] theorem State.takeFree_groups : s.takeFree.2.groups = s.groups := rfl
@[simp] theorem State.takeFree_colls : s.takeFree.2.colls = s.colls := rfl
@[simp] theorem State.takeFree_transfers : s.takeFree.2.transfers = s.transfers := rfl
@[simp] theorem State.takeFree_records : s.takeFree.2.records = s.records := rfl
@[simp] theorem State.takeFree_grade768 : s.takeFree.2.grade768 = s.grade768 := rfl
@[simp] theorem State.takeFree_device : s.takeFree.2.device = s.device := rfl
@[simp] theorem State.takeFree_incarnation : s.takeFree.2.incarnation = s.incarnation := rfl
@[simp] theorem State.takeFree_fst : s.takeFree.1 = s.free := rfl
@[simp] theorem State.takeFree_free : s.takeFree.2.free = s.free + 1 := rfl

@[simp] theorem State.island_setTile (t : TileId) (x : Tile) (i : Nat) : (s.setTile t x).island i = s.island i := rfl
@[simp] theorem State.stackOf_setTile (t : TileId) (x : Tile) (m : Nat) : (s.setTile t x).stackOf m = s.stackOf m := rfl
@[simp] theorem State.chan_setTile (t : TileId) (x : Tile) (c : Nat) : (s.setTile t x).chan c = s.chan c := rfl
@[simp] theorem State.region_setTile (t : TileId) (x : Tile) (i : Nat) : (s.setTile t x).region i = s.region i := rfl
@[simp] theorem State.right_setTile (t : TileId) (x : Tile) (q j : Nat) : (s.setTile t x).right q j = s.right q j := rfl
@[simp] theorem State.quire_setTile (t : TileId) (x : Tile) (q : Nat) : (s.setTile t x).quire q = s.quire q := rfl
@[simp] theorem State.eth_setTile (t : TileId) (x : Tile) (e : Nat) : (s.setTile t x).eth e = s.eth e := rfl
@[simp] theorem State.session_setTile (t : TileId) (x : Tile) (id : Nat) : (s.setTile t x).session id = s.session id := rfl
@[simp] theorem State.port_setTile (t : TileId) (x : Tile) (p : Nat) : (s.setTile t x).port p = s.port p := rfl
@[simp] theorem State.group_setTile (t : TileId) (x : Tile) (g : Nat) : (s.setTile t x).group g = s.group g := rfl
@[simp] theorem State.feedInfo_setTile (t : TileId) (x : Tile) (f : Feed) : (s.setTile t x).feedInfo f = s.feedInfo f := rfl
@[simp] theorem State.bytes_setTile (t : TileId) (x : Tile) (a n : Nat) : (s.setTile t x).bytes a n = s.bytes a n := rfl
@[simp] theorem State.spineUp_setTile (t : TileId) (x : Tile)  : (s.setTile t x).spineUp = s.spineUp := rfl
@[simp] theorem State.isReady_setTile (t : TileId) (x : Tile)  : (s.setTile t x).isReady = s.isReady := rfl
@[simp] theorem State.memTop_setTile (t : TileId) (x : Tile)  : (s.setTile t x).memTop = s.memTop := rfl
@[simp] theorem State.island_updTile (t : TileId) (f : Tile → Tile) (i : Nat) : (s.updTile t f).island i = s.island i := rfl
@[simp] theorem State.stackOf_updTile (t : TileId) (f : Tile → Tile) (m : Nat) : (s.updTile t f).stackOf m = s.stackOf m := rfl
@[simp] theorem State.chan_updTile (t : TileId) (f : Tile → Tile) (c : Nat) : (s.updTile t f).chan c = s.chan c := rfl
@[simp] theorem State.region_updTile (t : TileId) (f : Tile → Tile) (i : Nat) : (s.updTile t f).region i = s.region i := rfl
@[simp] theorem State.right_updTile (t : TileId) (f : Tile → Tile) (q j : Nat) : (s.updTile t f).right q j = s.right q j := rfl
@[simp] theorem State.quire_updTile (t : TileId) (f : Tile → Tile) (q : Nat) : (s.updTile t f).quire q = s.quire q := rfl
@[simp] theorem State.eth_updTile (t : TileId) (f : Tile → Tile) (e : Nat) : (s.updTile t f).eth e = s.eth e := rfl
@[simp] theorem State.session_updTile (t : TileId) (f : Tile → Tile) (id : Nat) : (s.updTile t f).session id = s.session id := rfl
@[simp] theorem State.port_updTile (t : TileId) (f : Tile → Tile) (p : Nat) : (s.updTile t f).port p = s.port p := rfl
@[simp] theorem State.group_updTile (t : TileId) (f : Tile → Tile) (g : Nat) : (s.updTile t f).group g = s.group g := rfl
@[simp] theorem State.feedInfo_updTile (t : TileId) (f : Tile → Tile) (f' : Feed) : (s.updTile t f).feedInfo f' = s.feedInfo f' := rfl
@[simp] theorem State.bytes_updTile (t : TileId) (f : Tile → Tile) (a n : Nat) : (s.updTile t f).bytes a n = s.bytes a n := rfl
@[simp] theorem State.spineUp_updTile (t : TileId) (f : Tile → Tile)  : (s.updTile t f).spineUp = s.spineUp := rfl
@[simp] theorem State.isReady_updTile (t : TileId) (f : Tile → Tile)  : (s.updTile t f).isReady = s.isReady := rfl
@[simp] theorem State.memTop_updTile (t : TileId) (f : Tile → Tile)  : (s.updTile t f).memTop = s.memTop := rfl
@[simp] theorem State.island_setStrand (a : At) (r : Strand) (i : Nat) : (s.setStrand a r).island i = s.island i := rfl
@[simp] theorem State.stackOf_setStrand (a : At) (r : Strand) (m : Nat) : (s.setStrand a r).stackOf m = s.stackOf m := rfl
@[simp] theorem State.chan_setStrand (a : At) (r : Strand) (c : Nat) : (s.setStrand a r).chan c = s.chan c := rfl
@[simp] theorem State.region_setStrand (a : At) (r : Strand) (i : Nat) : (s.setStrand a r).region i = s.region i := rfl
@[simp] theorem State.right_setStrand (a : At) (r : Strand) (q j : Nat) : (s.setStrand a r).right q j = s.right q j := rfl
@[simp] theorem State.quire_setStrand (a : At) (r : Strand) (q : Nat) : (s.setStrand a r).quire q = s.quire q := rfl
@[simp] theorem State.eth_setStrand (a : At) (r : Strand) (e : Nat) : (s.setStrand a r).eth e = s.eth e := rfl
@[simp] theorem State.session_setStrand (a : At) (r : Strand) (id : Nat) : (s.setStrand a r).session id = s.session id := rfl
@[simp] theorem State.port_setStrand (a : At) (r : Strand) (p : Nat) : (s.setStrand a r).port p = s.port p := rfl
@[simp] theorem State.group_setStrand (a : At) (r : Strand) (g : Nat) : (s.setStrand a r).group g = s.group g := rfl
@[simp] theorem State.feedInfo_setStrand (a : At) (r : Strand) (f : Feed) : (s.setStrand a r).feedInfo f = s.feedInfo f := rfl
@[simp] theorem State.bytes_setStrand (a : At) (r : Strand) (a' n : Nat) : (s.setStrand a r).bytes a' n = s.bytes a' n := rfl
@[simp] theorem State.spineUp_setStrand (a : At) (r : Strand)  : (s.setStrand a r).spineUp = s.spineUp := rfl
@[simp] theorem State.isReady_setStrand (a : At) (r : Strand)  : (s.setStrand a r).isReady = s.isReady := rfl
@[simp] theorem State.memTop_setStrand (a : At) (r : Strand)  : (s.setStrand a r).memTop = s.memTop := rfl
@[simp] theorem State.island_updStrand (a : At) (f : Strand → Strand) (i : Nat) : (s.updStrand a f).island i = s.island i := rfl
@[simp] theorem State.stackOf_updStrand (a : At) (f : Strand → Strand) (m : Nat) : (s.updStrand a f).stackOf m = s.stackOf m := rfl
@[simp] theorem State.chan_updStrand (a : At) (f : Strand → Strand) (c : Nat) : (s.updStrand a f).chan c = s.chan c := rfl
@[simp] theorem State.region_updStrand (a : At) (f : Strand → Strand) (i : Nat) : (s.updStrand a f).region i = s.region i := rfl
@[simp] theorem State.right_updStrand (a : At) (f : Strand → Strand) (q j : Nat) : (s.updStrand a f).right q j = s.right q j := rfl
@[simp] theorem State.quire_updStrand (a : At) (f : Strand → Strand) (q : Nat) : (s.updStrand a f).quire q = s.quire q := rfl
@[simp] theorem State.eth_updStrand (a : At) (f : Strand → Strand) (e : Nat) : (s.updStrand a f).eth e = s.eth e := rfl
@[simp] theorem State.session_updStrand (a : At) (f : Strand → Strand) (id : Nat) : (s.updStrand a f).session id = s.session id := rfl
@[simp] theorem State.port_updStrand (a : At) (f : Strand → Strand) (p : Nat) : (s.updStrand a f).port p = s.port p := rfl
@[simp] theorem State.group_updStrand (a : At) (f : Strand → Strand) (g : Nat) : (s.updStrand a f).group g = s.group g := rfl
@[simp] theorem State.feedInfo_updStrand (a : At) (f : Strand → Strand) (f' : Feed) : (s.updStrand a f).feedInfo f' = s.feedInfo f' := rfl
@[simp] theorem State.bytes_updStrand (a : At) (f : Strand → Strand) (a' n : Nat) : (s.updStrand a f).bytes a' n = s.bytes a' n := rfl
@[simp] theorem State.spineUp_updStrand (a : At) (f : Strand → Strand)  : (s.updStrand a f).spineUp = s.spineUp := rfl
@[simp] theorem State.isReady_updStrand (a : At) (f : Strand → Strand)  : (s.updStrand a f).isReady = s.isReady := rfl
@[simp] theorem State.memTop_updStrand (a : At) (f : Strand → Strand)  : (s.updStrand a f).memTop = s.memTop := rfl
@[simp] theorem State.tile_setIsland (i : Nat) (x : Island) (t : TileId) : (s.setIsland i x).tile t = s.tile t := rfl
@[simp] theorem State.strand_setIsland (i : Nat) (x : Island) (a : At) : (s.setIsland i x).strand a = s.strand a := rfl
@[simp] theorem State.stackOf_setIsland (i : Nat) (x : Island) (m : Nat) : (s.setIsland i x).stackOf m = s.stackOf m := rfl
@[simp] theorem State.chan_setIsland (i : Nat) (x : Island) (c : Nat) : (s.setIsland i x).chan c = s.chan c := rfl
@[simp] theorem State.region_setIsland (i : Nat) (x : Island) (i' : Nat) : (s.setIsland i x).region i' = s.region i' := rfl
@[simp] theorem State.right_setIsland (i : Nat) (x : Island) (q j : Nat) : (s.setIsland i x).right q j = s.right q j := rfl
@[simp] theorem State.quire_setIsland (i : Nat) (x : Island) (q : Nat) : (s.setIsland i x).quire q = s.quire q := rfl
@[simp] theorem State.eth_setIsland (i : Nat) (x : Island) (e : Nat) : (s.setIsland i x).eth e = s.eth e := rfl
@[simp] theorem State.session_setIsland (i : Nat) (x : Island) (id : Nat) : (s.setIsland i x).session id = s.session id := rfl
@[simp] theorem State.port_setIsland (i : Nat) (x : Island) (p : Nat) : (s.setIsland i x).port p = s.port p := rfl
@[simp] theorem State.group_setIsland (i : Nat) (x : Island) (g : Nat) : (s.setIsland i x).group g = s.group g := rfl
@[simp] theorem State.feedInfo_setIsland (i : Nat) (x : Island) (f : Feed) : (s.setIsland i x).feedInfo f = s.feedInfo f := rfl
@[simp] theorem State.bytes_setIsland (i : Nat) (x : Island) (a n : Nat) : (s.setIsland i x).bytes a n = s.bytes a n := rfl
@[simp] theorem State.spineUp_setIsland (i : Nat) (x : Island)  : (s.setIsland i x).spineUp = s.spineUp := rfl
@[simp] theorem State.isReady_setIsland (i : Nat) (x : Island)  : (s.setIsland i x).isReady = s.isReady := rfl
@[simp] theorem State.memTop_setIsland (i : Nat) (x : Island)  : (s.setIsland i x).memTop = s.memTop := rfl
@[simp] theorem State.tile_setStack (m : Nat) (x : Stack) (t : TileId) : (s.setStack m x).tile t = s.tile t := rfl
@[simp] theorem State.strand_setStack (m : Nat) (x : Stack) (a : At) : (s.setStack m x).strand a = s.strand a := rfl
@[simp] theorem State.island_setStack (m : Nat) (x : Stack) (i : Nat) : (s.setStack m x).island i = s.island i := rfl
@[simp] theorem State.chan_setStack (m : Nat) (x : Stack) (c : Nat) : (s.setStack m x).chan c = s.chan c := rfl
@[simp] theorem State.region_setStack (m : Nat) (x : Stack) (i : Nat) : (s.setStack m x).region i = s.region i := rfl
@[simp] theorem State.right_setStack (m : Nat) (x : Stack) (q j : Nat) : (s.setStack m x).right q j = s.right q j := rfl
@[simp] theorem State.quire_setStack (m : Nat) (x : Stack) (q : Nat) : (s.setStack m x).quire q = s.quire q := rfl
@[simp] theorem State.eth_setStack (m : Nat) (x : Stack) (e : Nat) : (s.setStack m x).eth e = s.eth e := rfl
@[simp] theorem State.session_setStack (m : Nat) (x : Stack) (id : Nat) : (s.setStack m x).session id = s.session id := rfl
@[simp] theorem State.port_setStack (m : Nat) (x : Stack) (p : Nat) : (s.setStack m x).port p = s.port p := rfl
@[simp] theorem State.group_setStack (m : Nat) (x : Stack) (g : Nat) : (s.setStack m x).group g = s.group g := rfl
@[simp] theorem State.feedInfo_setStack (m : Nat) (x : Stack) (f : Feed) : (s.setStack m x).feedInfo f = s.feedInfo f := rfl
@[simp] theorem State.bytes_setStack (m : Nat) (x : Stack) (a n : Nat) : (s.setStack m x).bytes a n = s.bytes a n := rfl
@[simp] theorem State.spineUp_setStack (m : Nat) (x : Stack)  : (s.setStack m x).spineUp = s.spineUp := rfl
@[simp] theorem State.isReady_setStack (m : Nat) (x : Stack)  : (s.setStack m x).isReady = s.isReady := rfl
@[simp] theorem State.memTop_setStack (m : Nat) (x : Stack)  : (s.setStack m x).memTop = s.memTop := rfl
@[simp] theorem State.tile_setChan (c : Nat) (x : Chan) (t : TileId) : (s.setChan c x).tile t = s.tile t := rfl
@[simp] theorem State.strand_setChan (c : Nat) (x : Chan) (a : At) : (s.setChan c x).strand a = s.strand a := rfl
@[simp] theorem State.island_setChan (c : Nat) (x : Chan) (i : Nat) : (s.setChan c x).island i = s.island i := rfl
@[simp] theorem State.stackOf_setChan (c : Nat) (x : Chan) (m : Nat) : (s.setChan c x).stackOf m = s.stackOf m := rfl
@[simp] theorem State.region_setChan (c : Nat) (x : Chan) (i : Nat) : (s.setChan c x).region i = s.region i := rfl
@[simp] theorem State.right_setChan (c : Nat) (x : Chan) (q j : Nat) : (s.setChan c x).right q j = s.right q j := rfl
@[simp] theorem State.quire_setChan (c : Nat) (x : Chan) (q : Nat) : (s.setChan c x).quire q = s.quire q := rfl
@[simp] theorem State.eth_setChan (c : Nat) (x : Chan) (e : Nat) : (s.setChan c x).eth e = s.eth e := rfl
@[simp] theorem State.session_setChan (c : Nat) (x : Chan) (id : Nat) : (s.setChan c x).session id = s.session id := rfl
@[simp] theorem State.port_setChan (c : Nat) (x : Chan) (p : Nat) : (s.setChan c x).port p = s.port p := rfl
@[simp] theorem State.group_setChan (c : Nat) (x : Chan) (g : Nat) : (s.setChan c x).group g = s.group g := rfl
@[simp] theorem State.feedInfo_setChan (c : Nat) (x : Chan) (f : Feed) : (s.setChan c x).feedInfo f = s.feedInfo f := rfl
@[simp] theorem State.bytes_setChan (c : Nat) (x : Chan) (a n : Nat) : (s.setChan c x).bytes a n = s.bytes a n := rfl
@[simp] theorem State.spineUp_setChan (c : Nat) (x : Chan)  : (s.setChan c x).spineUp = s.spineUp := rfl
@[simp] theorem State.isReady_setChan (c : Nat) (x : Chan)  : (s.setChan c x).isReady = s.isReady := rfl
@[simp] theorem State.memTop_setChan (c : Nat) (x : Chan)  : (s.setChan c x).memTop = s.memTop := rfl
@[simp] theorem State.tile_setRegion (i : Nat) (r : Region) (t : TileId) : (s.setRegion i r).tile t = s.tile t := rfl
@[simp] theorem State.strand_setRegion (i : Nat) (r : Region) (a : At) : (s.setRegion i r).strand a = s.strand a := rfl
@[simp] theorem State.island_setRegion (i : Nat) (r : Region) (i' : Nat) : (s.setRegion i r).island i' = s.island i' := rfl
@[simp] theorem State.stackOf_setRegion (i : Nat) (r : Region) (m : Nat) : (s.setRegion i r).stackOf m = s.stackOf m := rfl
@[simp] theorem State.chan_setRegion (i : Nat) (r : Region) (c : Nat) : (s.setRegion i r).chan c = s.chan c := rfl
@[simp] theorem State.right_setRegion (i : Nat) (r : Region) (q j : Nat) : (s.setRegion i r).right q j = s.right q j := rfl
@[simp] theorem State.quire_setRegion (i : Nat) (r : Region) (q : Nat) : (s.setRegion i r).quire q = s.quire q := rfl
@[simp] theorem State.eth_setRegion (i : Nat) (r : Region) (e : Nat) : (s.setRegion i r).eth e = s.eth e := rfl
@[simp] theorem State.session_setRegion (i : Nat) (r : Region) (id : Nat) : (s.setRegion i r).session id = s.session id := rfl
@[simp] theorem State.port_setRegion (i : Nat) (r : Region) (p : Nat) : (s.setRegion i r).port p = s.port p := rfl
@[simp] theorem State.group_setRegion (i : Nat) (r : Region) (g : Nat) : (s.setRegion i r).group g = s.group g := rfl
@[simp] theorem State.feedInfo_setRegion (i : Nat) (r : Region) (f : Feed) : (s.setRegion i r).feedInfo f = s.feedInfo f := rfl
@[simp] theorem State.spineUp_setRegion (i : Nat) (r : Region)  : (s.setRegion i r).spineUp = s.spineUp := rfl
@[simp] theorem State.isReady_setRegion (i : Nat) (r : Region)  : (s.setRegion i r).isReady = s.isReady := rfl
@[simp] theorem State.tile_setQuire (q : Nat) (x : Quire) (t : TileId) : (s.setQuire q x).tile t = s.tile t := rfl
@[simp] theorem State.strand_setQuire (q : Nat) (x : Quire) (a : At) : (s.setQuire q x).strand a = s.strand a := rfl
@[simp] theorem State.island_setQuire (q : Nat) (x : Quire) (i : Nat) : (s.setQuire q x).island i = s.island i := rfl
@[simp] theorem State.stackOf_setQuire (q : Nat) (x : Quire) (m : Nat) : (s.setQuire q x).stackOf m = s.stackOf m := rfl
@[simp] theorem State.chan_setQuire (q : Nat) (x : Quire) (c : Nat) : (s.setQuire q x).chan c = s.chan c := rfl
@[simp] theorem State.region_setQuire (q : Nat) (x : Quire) (i : Nat) : (s.setQuire q x).region i = s.region i := rfl
@[simp] theorem State.right_setQuire (q : Nat) (x : Quire) (q' j : Nat) : (s.setQuire q x).right q' j = s.right q' j := rfl
@[simp] theorem State.eth_setQuire (q : Nat) (x : Quire) (e : Nat) : (s.setQuire q x).eth e = s.eth e := rfl
@[simp] theorem State.session_setQuire (q : Nat) (x : Quire) (id : Nat) : (s.setQuire q x).session id = s.session id := rfl
@[simp] theorem State.port_setQuire (q : Nat) (x : Quire) (p : Nat) : (s.setQuire q x).port p = s.port p := rfl
@[simp] theorem State.group_setQuire (q : Nat) (x : Quire) (g : Nat) : (s.setQuire q x).group g = s.group g := rfl
@[simp] theorem State.feedInfo_setQuire (q : Nat) (x : Quire) (f : Feed) : (s.setQuire q x).feedInfo f = s.feedInfo f := rfl
@[simp] theorem State.bytes_setQuire (q : Nat) (x : Quire) (a n : Nat) : (s.setQuire q x).bytes a n = s.bytes a n := rfl
@[simp] theorem State.spineUp_setQuire (q : Nat) (x : Quire)  : (s.setQuire q x).spineUp = s.spineUp := rfl
@[simp] theorem State.isReady_setQuire (q : Nat) (x : Quire)  : (s.setQuire q x).isReady = s.isReady := rfl
@[simp] theorem State.memTop_setQuire (q : Nat) (x : Quire)  : (s.setQuire q x).memTop = s.memTop := rfl
@[simp] theorem State.tile_updQuire (q : Nat) (f : Quire → Quire) (t : TileId) : (s.updQuire q f).tile t = s.tile t := rfl
@[simp] theorem State.strand_updQuire (q : Nat) (f : Quire → Quire) (a : At) : (s.updQuire q f).strand a = s.strand a := rfl
@[simp] theorem State.island_updQuire (q : Nat) (f : Quire → Quire) (i : Nat) : (s.updQuire q f).island i = s.island i := rfl
@[simp] theorem State.stackOf_updQuire (q : Nat) (f : Quire → Quire) (m : Nat) : (s.updQuire q f).stackOf m = s.stackOf m := rfl
@[simp] theorem State.chan_updQuire (q : Nat) (f : Quire → Quire) (c : Nat) : (s.updQuire q f).chan c = s.chan c := rfl
@[simp] theorem State.region_updQuire (q : Nat) (f : Quire → Quire) (i : Nat) : (s.updQuire q f).region i = s.region i := rfl
@[simp] theorem State.right_updQuire (q : Nat) (f : Quire → Quire) (q' j : Nat) : (s.updQuire q f).right q' j = s.right q' j := rfl
@[simp] theorem State.eth_updQuire (q : Nat) (f : Quire → Quire) (e : Nat) : (s.updQuire q f).eth e = s.eth e := rfl
@[simp] theorem State.session_updQuire (q : Nat) (f : Quire → Quire) (id : Nat) : (s.updQuire q f).session id = s.session id := rfl
@[simp] theorem State.port_updQuire (q : Nat) (f : Quire → Quire) (p : Nat) : (s.updQuire q f).port p = s.port p := rfl
@[simp] theorem State.group_updQuire (q : Nat) (f : Quire → Quire) (g : Nat) : (s.updQuire q f).group g = s.group g := rfl
@[simp] theorem State.feedInfo_updQuire (q : Nat) (f : Quire → Quire) (f' : Feed) : (s.updQuire q f).feedInfo f' = s.feedInfo f' := rfl
@[simp] theorem State.bytes_updQuire (q : Nat) (f : Quire → Quire) (a n : Nat) : (s.updQuire q f).bytes a n = s.bytes a n := rfl
@[simp] theorem State.spineUp_updQuire (q : Nat) (f : Quire → Quire)  : (s.updQuire q f).spineUp = s.spineUp := rfl
@[simp] theorem State.isReady_updQuire (q : Nat) (f : Quire → Quire)  : (s.updQuire q f).isReady = s.isReady := rfl
@[simp] theorem State.memTop_updQuire (q : Nat) (f : Quire → Quire)  : (s.updQuire q f).memTop = s.memTop := rfl
@[simp] theorem State.tile_setEth (e : Nat) (x : Eth) (t : TileId) : (s.setEth e x).tile t = s.tile t := rfl
@[simp] theorem State.strand_setEth (e : Nat) (x : Eth) (a : At) : (s.setEth e x).strand a = s.strand a := rfl
@[simp] theorem State.island_setEth (e : Nat) (x : Eth) (i : Nat) : (s.setEth e x).island i = s.island i := rfl
@[simp] theorem State.stackOf_setEth (e : Nat) (x : Eth) (m : Nat) : (s.setEth e x).stackOf m = s.stackOf m := rfl
@[simp] theorem State.chan_setEth (e : Nat) (x : Eth) (c : Nat) : (s.setEth e x).chan c = s.chan c := rfl
@[simp] theorem State.region_setEth (e : Nat) (x : Eth) (i : Nat) : (s.setEth e x).region i = s.region i := rfl
@[simp] theorem State.right_setEth (e : Nat) (x : Eth) (q j : Nat) : (s.setEth e x).right q j = s.right q j := rfl
@[simp] theorem State.quire_setEth (e : Nat) (x : Eth) (q : Nat) : (s.setEth e x).quire q = s.quire q := rfl
@[simp] theorem State.port_setEth (e : Nat) (x : Eth) (p : Nat) : (s.setEth e x).port p = s.port p := rfl
@[simp] theorem State.group_setEth (e : Nat) (x : Eth) (g : Nat) : (s.setEth e x).group g = s.group g := rfl
@[simp] theorem State.feedInfo_setEth (e : Nat) (x : Eth) (f : Feed) : (s.setEth e x).feedInfo f = s.feedInfo f := rfl
@[simp] theorem State.bytes_setEth (e : Nat) (x : Eth) (a n : Nat) : (s.setEth e x).bytes a n = s.bytes a n := rfl
@[simp] theorem State.spineUp_setEth (e : Nat) (x : Eth)  : (s.setEth e x).spineUp = s.spineUp := rfl
@[simp] theorem State.isReady_setEth (e : Nat) (x : Eth)  : (s.setEth e x).isReady = s.isReady := rfl
@[simp] theorem State.memTop_setEth (e : Nat) (x : Eth)  : (s.setEth e x).memTop = s.memTop := rfl
@[simp] theorem State.tile_setPort (p : Nat) (x : Port) (t : TileId) : (s.setPort p x).tile t = s.tile t := rfl
@[simp] theorem State.strand_setPort (p : Nat) (x : Port) (a : At) : (s.setPort p x).strand a = s.strand a := rfl
@[simp] theorem State.island_setPort (p : Nat) (x : Port) (i : Nat) : (s.setPort p x).island i = s.island i := rfl
@[simp] theorem State.stackOf_setPort (p : Nat) (x : Port) (m : Nat) : (s.setPort p x).stackOf m = s.stackOf m := rfl
@[simp] theorem State.chan_setPort (p : Nat) (x : Port) (c : Nat) : (s.setPort p x).chan c = s.chan c := rfl
@[simp] theorem State.region_setPort (p : Nat) (x : Port) (i : Nat) : (s.setPort p x).region i = s.region i := rfl
@[simp] theorem State.right_setPort (p : Nat) (x : Port) (q j : Nat) : (s.setPort p x).right q j = s.right q j := rfl
@[simp] theorem State.quire_setPort (p : Nat) (x : Port) (q : Nat) : (s.setPort p x).quire q = s.quire q := rfl
@[simp] theorem State.eth_setPort (p : Nat) (x : Port) (e : Nat) : (s.setPort p x).eth e = s.eth e := rfl
@[simp] theorem State.session_setPort (p : Nat) (x : Port) (id : Nat) : (s.setPort p x).session id = s.session id := rfl
@[simp] theorem State.group_setPort (p : Nat) (x : Port) (g : Nat) : (s.setPort p x).group g = s.group g := rfl
@[simp] theorem State.feedInfo_setPort (p : Nat) (x : Port) (f : Feed) : (s.setPort p x).feedInfo f = s.feedInfo f := rfl
@[simp] theorem State.bytes_setPort (p : Nat) (x : Port) (a n : Nat) : (s.setPort p x).bytes a n = s.bytes a n := rfl
@[simp] theorem State.spineUp_setPort (p : Nat) (x : Port)  : (s.setPort p x).spineUp = s.spineUp := rfl
@[simp] theorem State.isReady_setPort (p : Nat) (x : Port)  : (s.setPort p x).isReady = s.isReady := rfl
@[simp] theorem State.memTop_setPort (p : Nat) (x : Port)  : (s.setPort p x).memTop = s.memTop := rfl
@[simp] theorem State.tile_setSession (id : Nat) (x : Option Session) (t : TileId) : (s.setSession id x).tile t = s.tile t := rfl
@[simp] theorem State.strand_setSession (id : Nat) (x : Option Session) (a : At) : (s.setSession id x).strand a = s.strand a := rfl
@[simp] theorem State.island_setSession (id : Nat) (x : Option Session) (i : Nat) : (s.setSession id x).island i = s.island i := rfl
@[simp] theorem State.stackOf_setSession (id : Nat) (x : Option Session) (m : Nat) : (s.setSession id x).stackOf m = s.stackOf m := rfl
@[simp] theorem State.chan_setSession (id : Nat) (x : Option Session) (c : Nat) : (s.setSession id x).chan c = s.chan c := rfl
@[simp] theorem State.region_setSession (id : Nat) (x : Option Session) (i : Nat) : (s.setSession id x).region i = s.region i := rfl
@[simp] theorem State.right_setSession (id : Nat) (x : Option Session) (q j : Nat) : (s.setSession id x).right q j = s.right q j := rfl
@[simp] theorem State.quire_setSession (id : Nat) (x : Option Session) (q : Nat) : (s.setSession id x).quire q = s.quire q := rfl
@[simp] theorem State.port_setSession (id : Nat) (x : Option Session) (p : Nat) : (s.setSession id x).port p = s.port p := rfl
@[simp] theorem State.group_setSession (id : Nat) (x : Option Session) (g : Nat) : (s.setSession id x).group g = s.group g := rfl
@[simp] theorem State.feedInfo_setSession (id : Nat) (x : Option Session) (f : Feed) : (s.setSession id x).feedInfo f = s.feedInfo f := rfl
@[simp] theorem State.bytes_setSession (id : Nat) (x : Option Session) (a n : Nat) : (s.setSession id x).bytes a n = s.bytes a n := rfl
@[simp] theorem State.spineUp_setSession (id : Nat) (x : Option Session)  : (s.setSession id x).spineUp = s.spineUp := rfl
@[simp] theorem State.isReady_setSession (id : Nat) (x : Option Session)  : (s.setSession id x).isReady = s.isReady := rfl
@[simp] theorem State.memTop_setSession (id : Nat) (x : Option Session)  : (s.setSession id x).memTop = s.memTop := rfl
@[simp] theorem State.tile_send (o : NetOut) (t : TileId) : (s.send o).tile t = s.tile t := rfl
@[simp] theorem State.strand_send (o : NetOut) (a : At) : (s.send o).strand a = s.strand a := rfl
@[simp] theorem State.island_send (o : NetOut) (i : Nat) : (s.send o).island i = s.island i := rfl
@[simp] theorem State.stackOf_send (o : NetOut) (m : Nat) : (s.send o).stackOf m = s.stackOf m := rfl
@[simp] theorem State.chan_send (o : NetOut) (c : Nat) : (s.send o).chan c = s.chan c := rfl
@[simp] theorem State.region_send (o : NetOut) (i : Nat) : (s.send o).region i = s.region i := rfl
@[simp] theorem State.right_send (o : NetOut) (q j : Nat) : (s.send o).right q j = s.right q j := rfl
@[simp] theorem State.quire_send (o : NetOut) (q : Nat) : (s.send o).quire q = s.quire q := rfl
@[simp] theorem State.port_send (o : NetOut) (p : Nat) : (s.send o).port p = s.port p := rfl
@[simp] theorem State.group_send (o : NetOut) (g : Nat) : (s.send o).group g = s.group g := rfl
@[simp] theorem State.feedInfo_send (o : NetOut) (f : Feed) : (s.send o).feedInfo f = s.feedInfo f := rfl
@[simp] theorem State.bytes_send (o : NetOut) (a n : Nat) : (s.send o).bytes a n = s.bytes a n := rfl
@[simp] theorem State.spineUp_send (o : NetOut)  : (s.send o).spineUp = s.spineUp := rfl
@[simp] theorem State.isReady_send (o : NetOut)  : (s.send o).isReady = s.isReady := rfl
@[simp] theorem State.memTop_send (o : NetOut)  : (s.send o).memTop = s.memTop := rfl
@[simp] theorem State.tile_setGroup (g : Nat) (x : Option Group) (t : TileId) : (s.setGroup g x).tile t = s.tile t := rfl
@[simp] theorem State.strand_setGroup (g : Nat) (x : Option Group) (a : At) : (s.setGroup g x).strand a = s.strand a := rfl
@[simp] theorem State.island_setGroup (g : Nat) (x : Option Group) (i : Nat) : (s.setGroup g x).island i = s.island i := rfl
@[simp] theorem State.stackOf_setGroup (g : Nat) (x : Option Group) (m : Nat) : (s.setGroup g x).stackOf m = s.stackOf m := rfl
@[simp] theorem State.chan_setGroup (g : Nat) (x : Option Group) (c : Nat) : (s.setGroup g x).chan c = s.chan c := rfl
@[simp] theorem State.region_setGroup (g : Nat) (x : Option Group) (i : Nat) : (s.setGroup g x).region i = s.region i := rfl
@[simp] theorem State.right_setGroup (g : Nat) (x : Option Group) (q j : Nat) : (s.setGroup g x).right q j = s.right q j := rfl
@[simp] theorem State.quire_setGroup (g : Nat) (x : Option Group) (q : Nat) : (s.setGroup g x).quire q = s.quire q := rfl
@[simp] theorem State.eth_setGroup (g : Nat) (x : Option Group) (e : Nat) : (s.setGroup g x).eth e = s.eth e := rfl
@[simp] theorem State.session_setGroup (g : Nat) (x : Option Group) (id : Nat) : (s.setGroup g x).session id = s.session id := rfl
@[simp] theorem State.port_setGroup (g : Nat) (x : Option Group) (p : Nat) : (s.setGroup g x).port p = s.port p := rfl
@[simp] theorem State.feedInfo_setGroup (g : Nat) (x : Option Group) (f : Feed) : (s.setGroup g x).feedInfo f = s.feedInfo f := rfl
@[simp] theorem State.bytes_setGroup (g : Nat) (x : Option Group) (a n : Nat) : (s.setGroup g x).bytes a n = s.bytes a n := rfl
@[simp] theorem State.spineUp_setGroup (g : Nat) (x : Option Group)  : (s.setGroup g x).spineUp = s.spineUp := rfl
@[simp] theorem State.isReady_setGroup (g : Nat) (x : Option Group)  : (s.setGroup g x).isReady = s.isReady := rfl
@[simp] theorem State.memTop_setGroup (g : Nat) (x : Option Group)  : (s.setGroup g x).memTop = s.memTop := rfl
@[simp] theorem State.tile_setFeed (f : Feed) (x : FeedInfo) (t : TileId) : (s.setFeed f x).tile t = s.tile t := rfl
@[simp] theorem State.strand_setFeed (f : Feed) (x : FeedInfo) (a : At) : (s.setFeed f x).strand a = s.strand a := rfl
@[simp] theorem State.island_setFeed (f : Feed) (x : FeedInfo) (i : Nat) : (s.setFeed f x).island i = s.island i := rfl
@[simp] theorem State.stackOf_setFeed (f : Feed) (x : FeedInfo) (m : Nat) : (s.setFeed f x).stackOf m = s.stackOf m := rfl
@[simp] theorem State.chan_setFeed (f : Feed) (x : FeedInfo) (c : Nat) : (s.setFeed f x).chan c = s.chan c := rfl
@[simp] theorem State.region_setFeed (f : Feed) (x : FeedInfo) (i : Nat) : (s.setFeed f x).region i = s.region i := rfl
@[simp] theorem State.right_setFeed (f : Feed) (x : FeedInfo) (q j : Nat) : (s.setFeed f x).right q j = s.right q j := rfl
@[simp] theorem State.quire_setFeed (f : Feed) (x : FeedInfo) (q : Nat) : (s.setFeed f x).quire q = s.quire q := rfl
@[simp] theorem State.eth_setFeed (f : Feed) (x : FeedInfo) (e : Nat) : (s.setFeed f x).eth e = s.eth e := rfl
@[simp] theorem State.session_setFeed (f : Feed) (x : FeedInfo) (id : Nat) : (s.setFeed f x).session id = s.session id := rfl
@[simp] theorem State.port_setFeed (f : Feed) (x : FeedInfo) (p : Nat) : (s.setFeed f x).port p = s.port p := rfl
@[simp] theorem State.group_setFeed (f : Feed) (x : FeedInfo) (g : Nat) : (s.setFeed f x).group g = s.group g := rfl
@[simp] theorem State.bytes_setFeed (f : Feed) (x : FeedInfo) (a n : Nat) : (s.setFeed f x).bytes a n = s.bytes a n := rfl
@[simp] theorem State.spineUp_setFeed (f : Feed) (x : FeedInfo)  : (s.setFeed f x).spineUp = s.spineUp := rfl
@[simp] theorem State.isReady_setFeed (f : Feed) (x : FeedInfo)  : (s.setFeed f x).isReady = s.isReady := rfl
@[simp] theorem State.memTop_setFeed (f : Feed) (x : FeedInfo)  : (s.setFeed f x).memTop = s.memTop := rfl
@[simp] theorem State.tile_writeBytes (a : Nat) (bs : List Byte) (t : TileId) : (s.writeBytes a bs).tile t = s.tile t := rfl
@[simp] theorem State.strand_writeBytes (a : Nat) (bs : List Byte) (a' : At) : (s.writeBytes a bs).strand a' = s.strand a' := rfl
@[simp] theorem State.island_writeBytes (a : Nat) (bs : List Byte) (i : Nat) : (s.writeBytes a bs).island i = s.island i := rfl
@[simp] theorem State.stackOf_writeBytes (a : Nat) (bs : List Byte) (m : Nat) : (s.writeBytes a bs).stackOf m = s.stackOf m := rfl
@[simp] theorem State.chan_writeBytes (a : Nat) (bs : List Byte) (c : Nat) : (s.writeBytes a bs).chan c = s.chan c := rfl
@[simp] theorem State.right_writeBytes (a : Nat) (bs : List Byte) (q j : Nat) : (s.writeBytes a bs).right q j = s.right q j := rfl
@[simp] theorem State.quire_writeBytes (a : Nat) (bs : List Byte) (q : Nat) : (s.writeBytes a bs).quire q = s.quire q := rfl
@[simp] theorem State.eth_writeBytes (a : Nat) (bs : List Byte) (e : Nat) : (s.writeBytes a bs).eth e = s.eth e := rfl
@[simp] theorem State.session_writeBytes (a : Nat) (bs : List Byte) (id : Nat) : (s.writeBytes a bs).session id = s.session id := rfl
@[simp] theorem State.port_writeBytes (a : Nat) (bs : List Byte) (p : Nat) : (s.writeBytes a bs).port p = s.port p := rfl
@[simp] theorem State.group_writeBytes (a : Nat) (bs : List Byte) (g : Nat) : (s.writeBytes a bs).group g = s.group g := rfl
@[simp] theorem State.feedInfo_writeBytes (a : Nat) (bs : List Byte) (f : Feed) : (s.writeBytes a bs).feedInfo f = s.feedInfo f := rfl
@[simp] theorem State.spineUp_writeBytes (a : Nat) (bs : List Byte)  : (s.writeBytes a bs).spineUp = s.spineUp := rfl
@[simp] theorem State.isReady_writeBytes (a : Nat) (bs : List Byte)  : (s.writeBytes a bs).isReady = s.isReady := rfl
@[simp] theorem State.tile_count (q k n : Nat) (t : TileId) : (s.count q k n).tile t = s.tile t := rfl
@[simp] theorem State.strand_count (q k n : Nat) (a : At) : (s.count q k n).strand a = s.strand a := rfl
@[simp] theorem State.island_count (q k n : Nat) (i : Nat) : (s.count q k n).island i = s.island i := rfl
@[simp] theorem State.stackOf_count (q k n : Nat) (m : Nat) : (s.count q k n).stackOf m = s.stackOf m := rfl
@[simp] theorem State.chan_count (q k n : Nat) (c : Nat) : (s.count q k n).chan c = s.chan c := rfl
@[simp] theorem State.region_count (q k n : Nat) (i : Nat) : (s.count q k n).region i = s.region i := rfl
@[simp] theorem State.right_count (q k n : Nat) (q' j : Nat) : (s.count q k n).right q' j = s.right q' j := rfl
@[simp] theorem State.quire_count (q k n : Nat) (q' : Nat) : (s.count q k n).quire q' = s.quire q' := rfl
@[simp] theorem State.eth_count (q k n : Nat) (e : Nat) : (s.count q k n).eth e = s.eth e := rfl
@[simp] theorem State.session_count (q k n : Nat) (id : Nat) : (s.count q k n).session id = s.session id := rfl
@[simp] theorem State.port_count (q k n : Nat) (p : Nat) : (s.count q k n).port p = s.port p := rfl
@[simp] theorem State.group_count (q k n : Nat) (g : Nat) : (s.count q k n).group g = s.group g := rfl
@[simp] theorem State.feedInfo_count (q k n : Nat) (f : Feed) : (s.count q k n).feedInfo f = s.feedInfo f := rfl
@[simp] theorem State.bytes_count (q k n : Nat) (a n' : Nat) : (s.count q k n).bytes a n' = s.bytes a n' := rfl
@[simp] theorem State.spineUp_count (q k n : Nat)  : (s.count q k n).spineUp = s.spineUp := rfl
@[simp] theorem State.isReady_count (q k n : Nat)  : (s.count q k n).isReady = s.isReady := rfl
@[simp] theorem State.memTop_count (q k n : Nat)  : (s.count q k n).memTop = s.memTop := rfl
@[simp] theorem State.tile_payEnergy (q n : Nat) (t : TileId) : (s.payEnergy q n).tile t = s.tile t := rfl
@[simp] theorem State.strand_payEnergy (q n : Nat) (a : At) : (s.payEnergy q n).strand a = s.strand a := rfl
@[simp] theorem State.island_payEnergy (q n : Nat) (i : Nat) : (s.payEnergy q n).island i = s.island i := rfl
@[simp] theorem State.stackOf_payEnergy (q n : Nat) (m : Nat) : (s.payEnergy q n).stackOf m = s.stackOf m := rfl
@[simp] theorem State.chan_payEnergy (q n : Nat) (c : Nat) : (s.payEnergy q n).chan c = s.chan c := rfl
@[simp] theorem State.region_payEnergy (q n : Nat) (i : Nat) : (s.payEnergy q n).region i = s.region i := rfl
@[simp] theorem State.right_payEnergy (q n : Nat) (q' j : Nat) : (s.payEnergy q n).right q' j = s.right q' j := rfl
@[simp] theorem State.eth_payEnergy (q n : Nat) (e : Nat) : (s.payEnergy q n).eth e = s.eth e := rfl
@[simp] theorem State.session_payEnergy (q n : Nat) (id : Nat) : (s.payEnergy q n).session id = s.session id := rfl
@[simp] theorem State.port_payEnergy (q n : Nat) (p : Nat) : (s.payEnergy q n).port p = s.port p := rfl
@[simp] theorem State.group_payEnergy (q n : Nat) (g : Nat) : (s.payEnergy q n).group g = s.group g := rfl
@[simp] theorem State.feedInfo_payEnergy (q n : Nat) (f : Feed) : (s.payEnergy q n).feedInfo f = s.feedInfo f := rfl
@[simp] theorem State.bytes_payEnergy (q n : Nat) (a n' : Nat) : (s.payEnergy q n).bytes a n' = s.bytes a n' := rfl
@[simp] theorem State.spineUp_payEnergy (q n : Nat)  : (s.payEnergy q n).spineUp = s.spineUp := rfl
@[simp] theorem State.isReady_payEnergy (q n : Nat)  : (s.payEnergy q n).isReady = s.isReady := rfl
@[simp] theorem State.memTop_payEnergy (q n : Nat)  : (s.payEnergy q n).memTop = s.memTop := rfl

@[simp] theorem State.tile_setTile (t : TileId) (x : Tile) : (s.setTile t x).tile t = x := by
  simp [State.tile, State.setTile]

theorem State.tile_setTile_ne {t u : TileId} (x : Tile) (h : u ≠ t) : (s.setTile t x).tile u = s.tile u := by
  simp [State.tile, State.setTile, Sparse.get_set, Fin.val_ne_of_ne h]

@[simp] theorem State.tile_updTile (t : TileId) (f : Tile → Tile) : (s.updTile t f).tile t = f (s.tile t) := by
  simp [State.updTile]

theorem State.tile_updTile_ne {t u : TileId} (f : Tile → Tile) (h : u ≠ t) : (s.updTile t f).tile u = s.tile u :=
  s.tile_setTile_ne _ h

@[simp] theorem Tile.strand_setStrand (x : Tile) (h : StrandId) (r : Strand) : (x.setStrand h r).strand h = r := by
  simp [Tile.strand, Tile.setStrand]

theorem Tile.strand_setStrand_ne (x : Tile) {h k : StrandId} (r : Strand) (n : k ≠ h) : (x.setStrand h r).strand k = x.strand k := by
  simp [Tile.strand, Tile.setStrand, Sparse.get_set, Fin.val_ne_of_ne n]

@[simp] theorem State.strand_setStrand (a : At) (r : Strand) : (s.setStrand a r).strand a = r := by
  simp [State.strand, State.setStrand]

theorem State.strand_setStrand_ne {a b : At} (r : Strand) (n : b ≠ a) : (s.setStrand a r).strand b = s.strand b := by
  unfold State.strand State.setStrand
  by_cases ht : b.t = a.t
  · rw [ht, State.tile_setTile]
    exact Tile.strand_setStrand_ne _ _ fun h => n (by cases a; cases b; simp_all)
  · rw [State.tile_setTile_ne _ _ ht]

@[simp] theorem State.strand_updStrand (a : At) (f : Strand → Strand) : (s.updStrand a f).strand a = f (s.strand a) := by
  simp [State.updStrand]

theorem State.strand_updStrand_ne {a b : At} (f : Strand → Strand) (n : b ≠ a) : (s.updStrand a f).strand b = s.strand b :=
  s.strand_setStrand_ne _ n

@[simp] theorem State.island_setIsland (i : Nat) (x : Island) : (s.setIsland i x).island i = x := by simp [State.island, State.setIsland]
@[simp] theorem State.stackOf_setStack (m : Nat) (x : Stack) : (s.setStack m x).stackOf m = x := by simp [State.stackOf, State.setStack]
@[simp] theorem State.chan_setChan (c : Nat) (x : Chan) : (s.setChan c x).chan c = x := by simp [State.chan, State.setChan]
@[simp] theorem State.region_setRegion (i : Nat) (r : Region) : (s.setRegion i r).region i = r := by simp [State.region, State.setRegion]
@[simp] theorem State.quire_setQuire (q : Nat) (x : Quire) : (s.setQuire q x).quire q = x := by simp [State.quire, State.setQuire]
@[simp] theorem State.quire_updQuire (q : Nat) (f : Quire → Quire) : (s.updQuire q f).quire q = f (s.quire q) := by simp [State.updQuire]
@[simp] theorem State.eth_setEth (e : Nat) (x : Eth) : (s.setEth e x).eth e = x := by simp [State.eth, State.setEth]
@[simp] theorem State.port_setPort (p : Nat) (x : Port) : (s.setPort p x).port p = x := by simp [State.port, State.setPort]
@[simp] theorem State.session_setSession (id : Nat) (x : Option Session) : (s.setSession id x).session id = x := by
  simp [State.session, State.setSession]
@[simp] theorem State.setSession_setSession (id : Nat) (x y : Option Session) : (s.setSession id x).setSession id y = s.setSession id y := by
  simp [State.setSession]
@[simp] theorem State.eth_setSession (id : Nat) (x : Option Session) (e : Nat) : (s.setSession id x).eth e = s.eth e := rfl
@[simp] theorem State.session_setEth (e : Nat) (x : Eth) (id : Nat) : (s.setEth e x).session id = s.session id := rfl

/-- What a general register reads after a write: g0 reads 0 and discards what is written to it. -/
theorem Strand.g_setG (r : Strand) (i j : BitVec 5) (v : Word) : (r.setG i v).g j = if j = i ∧ i ≠ 0 then v else r.g j := by
  unfold Strand.setG Strand.g
  by_cases hi : i = 0
  · rw [if_pos hi, if_neg (show ¬ (j = i ∧ i ≠ 0) from fun c => c.2 hi)]
  rw [if_neg hi]
  by_cases hj : j = 0
  · rw [if_pos hj, if_pos hj, if_neg (show ¬ (j = i ∧ i ≠ 0) from fun c => hi (c.1 ▸ hj))]
  rw [if_neg hj, if_neg hj, Sparse.get_set]
  by_cases h : j = i
  · rw [if_pos (congrArg BitVec.toNat h), if_pos ⟨h, hi⟩]
  · rw [if_neg (show ¬ j.toNat = i.toNat from fun c => h (BitVec.eq_of_toNat_eq c)), if_neg (show ¬ (j = i ∧ i ≠ 0) from fun c => h c.1)]

/-- Counting an event on a tile changes the counts of its quire only. -/
theorem State.countTile_eq (t : TileId) (k n : Nat) : ∃ c, s.countTile t k n = { s with counts := c } := by
  unfold State.countTile
  split
  · exact ⟨_, rfl⟩
  · exact ⟨s.counts, rfl⟩

@[simp] theorem State.tile_countTile (t u : TileId) (k n : Nat) : (s.countTile t k n).tile u = s.tile u := by
  obtain ⟨c, h⟩ := s.countTile_eq t k n; rw [h]; rfl
@[simp] theorem State.strand_countTile (t : TileId) (a : At) (k n : Nat) : (s.countTile t k n).strand a = s.strand a := by
  obtain ⟨c, h⟩ := s.countTile_eq t k n; rw [h]; rfl
@[simp] theorem State.mem_countTile (t : TileId) (k n : Nat) : (s.countTile t k n).mem = s.mem := by
  obtain ⟨c, h⟩ := s.countTile_eq t k n; rw [h]

end Sys2Proof.Machine
end

