-- ==== Sys2Proof/Laws/Issue.lean ====
section
/-! SUPPORT. What an instruction that is ready does, by the outcome of its effect; and what a command that the gateway admits does, by its
result. -/

namespace Sys2Proof.Machine

theorem State.ready_iff {s : State} {a : At} {len : Nat} {plain : Bool} {uses : List (BitVec 5)} :
    s.ready a len plain uses = true ↔
      (s.strand a).mayIssue = true ∧ s.hasCode a true (s.strand a).pc (lenHere (s.strand a).pc len) = true ∧
      (lenHere (s.strand a).pc len = len ∨
        s.hasCode a false ((s.strand a).pc + word (lenHere (s.strand a).pc len)) (len - lenHere (s.strand a).pc len) = true) ∧
      (s.strand a).misplaced plain = false ∧ uses.any (s.strand a).busy = false := by
  simp only [State.ready, Bool.and_eq_true, Bool.or_eq_true, beq_iff_eq, Bool.not_eq_true', and_assoc]

theorem State.fetchLine_hasCode {s : State} {a : At} {first : Bool} {pc : Word} {len : Nat} (h : s.hasCode a first pc len = true) :
    s.fetchLine a first pc len = .ready s := by
  simp only [State.hasCode, Bool.and_eq_true, Bool.or_eq_true, decide_eq_true_eq] at h
  unfold State.fetchLine
  dsimp only
  rw [if_neg, if_pos h.2]
  rcases h.1 with hp | hp
  · rw [decide_eq_false (Nat.not_le.mpr hp)]; simp
  · simp [hp]

theorem State.fetch_ready {s : State} {a : At} {len : Nat} {plain : Bool} {uses : List (BitVec 5)} (h : s.ready a len plain uses = true) :
    s.fetch a len = .ready s := by
  obtain ⟨-, h1, h2, -⟩ := State.ready_iff.mp h
  unfold State.fetch
  dsimp only
  rw [State.fetchLine_hasCode h1]
  dsimp only
  split
  · rfl
  · exact State.fetchLine_hasCode (h2.resolve_left ‹_›)

/-- An instruction that is ready does what its effect says. -/
theorem State.issue_ready {s : State} {a : At} {len : Nat} {plain : Bool} {uses : List (BitVec 5)} (eff : State → Act)
    (h : s.ready a len plain uses = true) :
    s.issue a len plain uses eff = match eff s with
      | .wait => s
      | .later t => t
      | .fault c k w v => s.raise a c k w v
      | .done t => t.completed a len
      | .go t => t.issued a := by
  obtain ⟨hm, -, -, hp, hu⟩ := State.ready_iff.mp h
  unfold State.issue State.issueWith
  rw [hm, State.fetch_ready h]
  dsimp only
  unfold State.attempt
  dsimp only
  rw [hp, hu]
  cases eff s <;> rfl

/-- A strand that may not issue, or whose operand is awaited, leaves the state as it is (02 R32, R34). -/
theorem State.issue_blocked {s : State} {a : At} (len : Nat) (plain : Bool) (uses : List (BitVec 5)) (eff : State → Act)
    (h : (s.strand a).mayIssue = false) : s.issue a len plain uses eff = s := by
  unfold State.issue State.issueWith
  rw [h]
  rfl

theorem State.issue_done {s t : State} {a : At} {len : Nat} {plain : Bool} {uses : List (BitVec 5)} {eff : State → Act}
    (h : s.ready a len plain uses = true) (e : eff s = .done t) : s.issue a len plain uses eff = t.completed a len := by
  rw [State.issue_ready eff h, e]

theorem State.issue_go {s t : State} {a : At} {len : Nat} {plain : Bool} {uses : List (BitVec 5)} {eff : State → Act}
    (h : s.ready a len plain uses = true) (e : eff s = .go t) : s.issue a len plain uses eff = t.issued a := by
  rw [State.issue_ready eff h, e]

theorem State.issue_later {s t : State} {a : At} {len : Nat} {plain : Bool} {uses : List (BitVec 5)} {eff : State → Act}
    (h : s.ready a len plain uses = true) (e : eff s = .later t) : s.issue a len plain uses eff = t := by
  rw [State.issue_ready eff h, e]

theorem State.issue_fault {s : State} {a : At} {len : Nat} {plain : Bool} {uses : List (BitVec 5)} {eff : State → Act} {c k w : Nat}
    {v : Word} (h : s.ready a len plain uses = true) (e : eff s = .fault c k w v) :
    s.issue a len plain uses eff = s.raise a c k w v := by
  rw [State.issue_ready eff h, e]

theorem State.issue_wait {s : State} {a : At} {len : Nat} {plain : Bool} {uses : List (BitVec 5)} {eff : State → Act}
    (h : s.ready a len plain uses = true) (e : eff s = .wait) : s.issue a len plain uses eff = s := by
  rw [State.issue_ready eff h, e]

/-- The same for a tile instruction, where no recorded fault comes first (07 R189). -/
theorem State.issueTile_ready {s : State} {a : At} {uses : List (BitVec 5)} (eff : State → Act) (h : s.ready a 8 false uses = true)
    (ht : (s.strand a).tfault.getLsbD 24 = false) :
    s.issueTile a uses eff = match eff s with
      | .wait => s
      | .later t => t
      | .fault c k w v => s.raise a c k w v
      | .done t => t.completed a 8
      | .go t => t.issued a := by
  obtain ⟨hm, -, -, hp, hu⟩ := State.ready_iff.mp h
  unfold State.issueTile State.issueWith
  rw [hm, State.fetch_ready h]
  unfold State.tileReach State.attempt
  dsimp only
  rw [ht, hp, hu]
  cases eff s <;> rfl

/-- A message of one packet is whole (12 R310). -/
theorem State.joinPart_whole (s : State) {c : Hdr} (op : Nat) (hp : c.part = 0) (hm : c.more = false) : s.joinPart c op = (true, s) := by
  simp [State.joinPart, hp, hm]

/-- A command that the gateway admits runs in the opened state. -/
theorem State.command_admitted {s : State} {c : Hdr} {x : Session} {op : Nat} (run : State → Session → Res)
    (h : s.admits c x op = true) :
    s.command c op run = (s.opened c x).runCommand c op (run (s.opened c x) (x.takes c)) := by
  simp only [State.admits, wholePacket, Bool.and_eq_true, decide_eq_true_eq, beq_iff_eq, Bool.not_eq_true', Option.isNone_iff_eq_none] at h
  obtain ⟨⟨⟨⟨⟨⟨⟨⟨⟨⟨hup, hsp⟩, hst⟩, hx⟩, ⟨⟨⟨⟨hpk, hclear⟩, hpart⟩, hmore⟩, hep⟩, htag⟩, hseq⟩, hnew⟩, hhigh⟩, hv⟩, hout⟩, hg⟩ := h
  unfold State.command
  rw [if_neg (by simp [hup, hsp]; omega), if_neg (by simp [hpk, hclear]), hx]
  dsimp only
  rw [if_neg (by rw [hep]; decide), if_neg (by simp [htag]), State.joinPart_whole _ op hpart hmore]
  dsimp only
  rw [if_neg (by omega), if_neg (by rw [show State.acceptedSeq (s.setSession c.session (some (x.heard c))) x c = s.acceptedSeq x c from rfl, hnew]; decide), if_neg (by omega)]
  unfold State.accepted
  rw [State.session_setSession]
  dsimp only
  rw [if_neg (by simp [hv]), if_neg (by exact Nat.not_le.mpr hout)]
  rw [State.setSession_setSession]
  change (match (s.opened c x).gate x.role c op with | some (st, tlvs) => _ | none => _) = _
  rw [hg]
  rfl

theorem State.command_done {s u : State} {c : Hdr} {x : Session} {op st : Nat} {tlvs : List Tlv} {run : State → Session → Res}
    (h : s.admits c x op = true) (e : run (s.opened c x) (x.takes c) = .done st tlvs u) :
    s.command c op run = u.answer c op st tlvs := by
  rw [State.command_admitted run h, e]; rfl

theorem State.command_pend {s u : State} {c : Hdr} {x : Session} {op st : Nat} {tlvs : List Tlv} {w : Wait} {run : State → Session → Res}
    (h : s.admits c x op = true) (e : run (s.opened c x) (x.takes c) = .pend st tlvs w u) :
    s.command c op run = u.defer c op st tlvs w := by
  rw [State.command_admitted run h, e]; rfl

theorem State.command_both {s u : State} {c : Hdr} {x : Session} {op a b : Nat} {ft tlvs : List Tlv} {run : State → Session → Res}
    (h : s.admits c x op = true) (e : run (s.opened c x) (x.takes c) = .both a ft b tlvs u) :
    s.command c op run = u.twice c op a ft b tlvs := by
  rw [State.command_admitted run h, e]; rfl

end Sys2Proof.Machine
end

