-- ==== Sys2Proof/Laws/Exec.lean ====
section
/-! SUPPORT. What each table of Safety.lean has in common: the shared operation that its commands are. -/

namespace Sys2Proof.Machine

/-- The commands of a table, each with what it does. -/
def tableRuns {F β : Type} (l : List ((At → F → Instr) × β)) : List (At → F → State → Out) := l.map fun e a f s => exec (e.1 a f) s

/-- A table whose commands are, one by one, what `g` makes of their rows. -/
theorem tableRuns_mem {F β : Type} {l : List ((At → F → Instr) × β)} {g : (At → F → Instr) × β → At → F → State → Out}
    (h : tableRuns l = l.map g) : ∀ e ∈ l, ∀ a f s, exec (e.1 a f) s = g e a f s :=
  fun e he a f s => congrFun (congrFun (congrFun (List.map_inj_left.mp h e he) a) f) s

theorem intRegisterOps_run : ∀ e ∈ intRegisterOps, ∀ a f s, exec (e.1 a f) s = intR e.2 a f s :=
  tableRuns_mem (g := fun e => intR e.2) rfl

theorem intUnaryOps_run : ∀ e ∈ intUnaryOps, ∀ a f s, exec (e.1 a f) s = intU e.2 a f s :=
  tableRuns_mem (g := fun e => intU e.2) rfl

theorem intImmediateOps_run : ∀ e ∈ intImmediateOps, ∀ a f s, exec (e.1 a f) s = intI e.2 a f s :=
  tableRuns_mem (g := fun e => intI e.2) rfl

theorem branchOps_run : ∀ e ∈ branchOps, ∀ a f s, exec (e.1 a f) s = branch e.2 a f s :=
  tableRuns_mem (g := fun e => branch e.2) rfl

theorem scalarLoads_run : ∀ e ∈ scalarLoads, ∀ a f s, exec (e.1 a f) s = scalarLoad e.2.1 e.2.2 a f s := by
  intro e he a f s
  unfold scalarLoads at he
  fin_cases he <;> rfl

theorem scalarStores_run : ∀ e ∈ scalarStores, ∀ a f s, exec (e.1 a f) s = scalarStore e.2 a f s :=
  tableRuns_mem (g := fun e => scalarStore e.2) rfl

theorem readOps_run : ∀ e ∈ readOps, ∀ (a : At) (f : RF) (s : State), exec (e.1 a f) s =
    sysOp a [f.rs1, f.rs2] [f.rd] (fun s => result s a f.rd (e.2 s a)) s :=
  tableRuns_mem (F := RF) (β := State → At → Word) (g := fun e a f => sysOp a [f.rs1, f.rs2] [f.rd] fun s => result s a f.rd (e.2 s a)) rfl

theorem vectorOps1_run : ∀ e ∈ vectorOps1, ∀ a f s, exec (e.1 a f) s = vectorIssue e.2 a f s :=
  tableRuns_mem (g := fun e => vectorIssue e.2) rfl

theorem vectorOps2_run : ∀ e ∈ vectorOps2, ∀ a f s, exec (e.1 a f) s = vectorIssue e.2 a f s :=
  tableRuns_mem (g := fun e => vectorIssue e.2) rfl

theorem vectorOps3_run : ∀ e ∈ vectorOps3, ∀ a f s, exec (e.1 a f) s = vectorIssue e.2 a f s :=
  tableRuns_mem (g := fun e => vectorIssue e.2) rfl

theorem vectorOps4_run : ∀ e ∈ vectorOps4, ∀ a f s, exec (e.1 a f) s = vectorIssue e.2 a f s :=
  tableRuns_mem (g := fun e => vectorIssue e.2) rfl

theorem vectorOps_run : ∀ e ∈ vectorOps, ∀ a f s, exec (e.1 a f) s = vectorIssue e.2 a f s := by
  intro e he
  simp only [vectorOps, List.mem_append] at he
  rcases he with ((he | he) | he) | he
  exacts [vectorOps1_run e he, vectorOps2_run e he, vectorOps3_run e he, vectorOps4_run e he]

theorem matrixOps_run : ∀ e ∈ matrixOps, ∀ a f s, exec (e.1 a f) s = tileIssue (.mat e.2 f) a s :=
  tableRuns_mem (g := fun e a f => tileIssue (.mat e.2 f) a) rfl

theorem tileMemOps_run : ∀ e ∈ tileMemOps, ∀ a f s, exec (e.1 a f) s = tileIssue (.mem e.2 f) a s :=
  tableRuns_mem (g := fun e a f => tileIssue (.mem e.2 f) a) rfl

theorem upkeepOnes_run : ∀ e ∈ upkeepOnes, ∀ a f s, exec (e.1 a f) s = upkeepOne e.2 a f s :=
  tableRuns_mem (g := fun e => upkeepOne e.2) rfl

theorem upkeepRanges_run : ∀ e ∈ upkeepRanges, ∀ a f s, exec (e.1 a f) s = upkeepRange e.2 a f s :=
  tableRuns_mem (g := fun e => upkeepRange e.2) rfl

theorem upkeepSetWays_run : ∀ e ∈ upkeepSetWays, ∀ a f s, exec (e.1 a f) s = upkeepSetWay e.2 a f s :=
  tableRuns_mem (g := fun e => upkeepSetWay e.2) rfl

theorem upkeepAlls_run : ∀ e ∈ upkeepAlls, ∀ a f s, exec (e.1 a f) s = upkeepAll e.2 a f s :=
  tableRuns_mem (g := fun e => upkeepAll e.2) rfl

end Sys2Proof.Machine
end

