-- ==== Sys2Proof/Laws/Kept.lean ====
section
/-! SUPPORT. How a function that gives a state is shown to keep the queue and the canonical form of memory: the rules that the files
KeptParts, KeptTile, KeptNet and KeptSpine apply, one lemma for each function. -/

namespace Sys2Proof.Machine

theorem Kept.refl (s : State) : s.Kept s := ⟨rfl, id⟩

theorem kept_mk {s0 s : State} (h : s0.Kept s) {x2 x3 x4 x5 x6 x7 x8 x10 x11 x12 x13 x14 x15 x16 x17 x18 x19 x20 x21 x22 x23 x24 x25 x26 x27 x28 x29 x30 x31 x32 x33 x34 x35 x36 x37 x38 x39} :
  s0.Kept ⟨s.pending, x2, x3, x4, x5, x6, x7, x8, s.mem, x10, x11, x12, x13, x14, x15, x16, x17, x18, x19, x20, x21, x22, x23, x24, x25, x26, x27, x28, x29, x30, x31, x32, x33, x34, x35, x36, x37, x38, x39⟩ :=
  ⟨h.1, h.2⟩

theorem kept_mem {s0 s : State} (h : s0.Kept s) {x2 x3 x4 x5 x6 x7 x8 y2 y3 y4 y5 y6 y7 y8 y9 y10 y11 y12 y13 y14 x10 x11 x12 x13 x14 x15 x16 x17 x18 x19 x20 x21 x22 x23 x24 x25 x26 x27 x28 x29 x30 x31 x32 x33 x34 x35 x36 x37 x38 x39} :
  s0.Kept ⟨s.pending, x2, x3, x4, x5, x6, x7, x8, ⟨s.mem.bytes, y2, y3, y4, y5, y6, y7, y8, y9, y10, y11, y12, y13, y14⟩, x10, x11, x12, x13, x14, x15, x16, x17, x18, x19, x20, x21, x22, x23, x24, x25, x26, x27, x28, x29, x30, x31, x32, x33, x34, x35, x36, x37, x38, x39⟩ :=
  ⟨h.1, h.2⟩

theorem kept_foldl {s0 : State} {α} (f : State → α → State) (l : List α) {s : State} (hf : ∀ s x, s0.Kept s → s0.Kept (f s x)) (h : s0.Kept s) :
    s0.Kept (l.foldl f s) := by
  induction l generalizing s with
  | nil => exact h
  | cons x l ih => exact ih (hf s x h)

def Act.Keeps (s0 : State) : Act → Prop
  | .wait => True
  | .later s => s0.Kept s
  | .fault .. => True
  | .done s => s0.Kept s
  | .go s => s0.Kept s

theorem Act.keeps_done {s0 s : State} (h : s0.Kept s) : (Act.done s).Keeps s0 := h

theorem Act.keeps_go {s0 s : State} (h : s0.Kept s) : (Act.go s).Keeps s0 := h

theorem Act.keeps_later {s0 s : State} (h : s0.Kept s) : (Act.later s).Keeps s0 := h

theorem Act.keeps_wait {s0 : State} : Act.wait.Keeps s0 := trivial

theorem Act.keeps_fault {s0 : State} {c k w v} : (Act.fault c k w v).Keeps s0 := trivial

def Res.Keeps (s0 : State) : Res → Prop
  | .done _ _ s => s0.Kept s
  | .pend _ _ _ s => s0.Kept s
  | .both _ _ _ _ s => s0.Kept s

theorem Res.keeps_done {s0 s : State} {a b} (h : s0.Kept s) : (Res.done a b s).Keeps s0 := h

theorem Res.keeps_pend {s0 s : State} {a b c} (h : s0.Kept s) : (Res.pend a b c s).Keeps s0 := h

theorem Res.keeps_both {s0 s : State} {a b c d} (h : s0.Kept s) : (Res.both a b c d s).Keeps s0 := h

def Fetch.Keeps (s0 : State) : Fetch → Prop
  | .ready s => s0.Kept s
  | .wait s => s0.Kept s
  | .fault .. => True

theorem Fetch.keeps_ready {s0 s : State} (h : s0.Kept s) : (Fetch.ready s).Keeps s0 := h

theorem Fetch.keeps_wait {s0 s : State} (h : s0.Kept s) : (Fetch.wait s).Keeps s0 := h

theorem Fetch.keeps_fault {s0 : State} {a b c} : (Fetch.fault a b c).Keeps s0 := trivial

def Tended.Keeps (s0 : State) : Tended → Prop
  | .wait => True
  | .done s => s0.Kept s
  | .lost s _ => s0.Kept s

theorem Tended.keeps_wait {s0 : State} : Tended.wait.Keeps s0 := trivial

theorem Tended.keeps_done {s0 s : State} (h : s0.Kept s) : (Tended.done s).Keeps s0 := h

theorem Tended.keeps_lost {s0 s : State} {i} (h : s0.Kept s) : (Tended.lost s i).Keeps s0 := h

theorem Tended.keeps_of_done {s0 u : State} {r : Tended} (e : r = .done u) (h : r.Keeps s0) : s0.Kept u := by
  rw [e] at h; exact h

theorem Tended.keeps_of_lost {s0 u : State} {r : Tended} {i : Nat} (e : r = .lost u i) (h : r.Keeps s0) : s0.Kept u := by
  rw [e] at h; exact h

theorem Fetch.keeps_of_ready {s0 u : State} {f : Fetch} (e : f = .ready u) (h : f.Keeps s0) : s0.Kept u := by
  rw [e] at h; exact h

theorem Fetch.keeps_of_wait {s0 u : State} {f : Fetch} (e : f = .wait u) (h : f.Keeps s0) : s0.Kept u := by
  rw [e] at h; exact h

theorem Act.keeps_of_done {s0 u : State} {act : Act} (e : act = .done u) (h : act.Keeps s0) : s0.Kept u := by
  rw [e] at h; exact h

theorem kept_getD {s0 s : State} {o : Option State} (h : s0.Kept s) (ho : ∀ u, o = some u → s0.Kept u) : s0.Kept (o.getD s) := by
  cases o with
  | none => exact h
  | some u => exact ho u rfl

theorem kept_pair {s0 : State} {α : Type} {p : α × State} {a : α} {u : State} (e : p = (a, u)) (h : s0.Kept p.2) : s0.Kept u := by
  rw [e] at h; exact h

def Out.Keeps (s0 : State) (o : Out) : Prop := ∀ t, o = .next t → s0.Kept t

theorem Out.keeps_next {s0 s : State} (h : s0.Kept s) : Out.Keeps s0 (.next s) := by
  intro t e; cases e; exact h

end Sys2Proof.Machine
end

