-- ==== Sys2Proof/Laws/KeptParts.lean ====
section
/-! SUPPORT. What keeps the queue and the canonical form of memory: the parts of State, translation, routing, the tile store, reports, exceptions, and issue. One lemma for each function that
gives a state. -/

namespace Sys2Proof.Machine

theorem State.setQuire_kept {s0 s : State} (h : s0.Kept s) (q : ℕ) (x : Quire) : s0.Kept (State.setQuire s q x) := by
  unfold State.setQuire
  try dsimp only
  repeat' first
    | with_reducible assumption | fail_if_no_progress with_reducible apply kept_mk

theorem State.updQuire_kept {s0 s : State} (h : s0.Kept s) (q : ℕ) (f : Quire → Quire) : s0.Kept (State.updQuire s q f) := by
  unfold State.updQuire
  try dsimp only
  repeat' first
    | with_reducible assumption | with_reducible apply State.setQuire_kept | intro _

theorem State.payEnergy_kept {s0 s : State} (h : s0.Kept s) (q : ℕ) (n : ℕ) : s0.Kept (State.payEnergy s q n) := by
  unfold State.payEnergy
  try dsimp only
  repeat' first
    | with_reducible assumption | with_reducible apply State.updQuire_kept

theorem State.count_kept {s0 s : State} (h : s0.Kept s) (q : ℕ) (sel : ℕ) (n : ℕ) : s0.Kept (State.count s q sel n) := by
  unfold State.count
  try dsimp only
  repeat' first
    | with_reducible assumption | fail_if_no_progress with_reducible apply kept_mk

theorem State.setTile_kept {s0 s : State} (h : s0.Kept s) (t1 : TileId) (x : Tile) : s0.Kept (State.setTile s t1 x) := by
  unfold State.setTile
  try dsimp only
  repeat' first
    | with_reducible assumption | fail_if_no_progress with_reducible apply kept_mk

theorem State.updTile_kept {s0 s : State} (h : s0.Kept s) (t1 : TileId) (f : Tile → Tile) : s0.Kept (State.updTile s t1 f) := by
  unfold State.updTile
  try dsimp only
  repeat' first
    | with_reducible assumption | with_reducible apply State.setTile_kept | intro _

theorem State.answerRemote_kept {s0 s : State} (h : s0.Kept s) (p : SPacket) : s0.Kept (State.answerRemote s p) := by
  unfold State.answerRemote
  try dsimp only
  repeat' first
    | with_reducible assumption | with_reducible apply State.updTile_kept | split

theorem State.setPort_kept {s0 s : State} (h : s0.Kept s) (p : ℕ) (x : Port) : s0.Kept (State.setPort s p x) := by
  unfold State.setPort
  try dsimp only
  repeat' first
    | with_reducible assumption | fail_if_no_progress with_reducible apply kept_mk

theorem State.enqueue_kept {s0 s : State} (h : s0.Kept s) (out : ℕ) (inp : Option ℕ) (c : Bool) (p : SPacket) :
    s0.Kept (State.enqueue s out inp c p) := by
  unfold State.enqueue
  try dsimp only
  repeat' first
    | with_reducible assumption | with_reducible apply State.setPort_kept

theorem State.originate_kept {s0 s : State} (h : s0.Kept s) (p : SPacket) : s0.Kept (State.originate s p) := by
  unfold State.originate
  try dsimp only
  repeat' first
    | with_reducible assumption | with_reducible apply State.payEnergy_kept | with_reducible apply State.count_kept
    | with_reducible apply State.answerRemote_kept | with_reducible apply State.enqueue_kept
    | fail_if_no_progress with_reducible apply kept_mk | split

theorem State.takeTag_kept {s0 s : State} (h : s0.Kept s) : s0.Kept (State.takeTag s).2 := by
  unfold State.takeTag
  try dsimp only
  repeat' first
    | with_reducible assumption | fail_if_no_progress with_reducible apply kept_mk

theorem State.setChan_kept {s0 s : State} (h : s0.Kept s) (c : ℕ) (x : Chan) : s0.Kept (State.setChan s c x) := by
  unfold State.setChan
  try dsimp only
  repeat' first
    | with_reducible assumption | fail_if_no_progress with_reducible apply kept_mk

theorem State.takeFree_kept {s0 s : State} (h : s0.Kept s) : s0.Kept (State.takeFree s).2 := by
  unfold State.takeFree
  try dsimp only
  repeat' first
    | with_reducible assumption | fail_if_no_progress with_reducible apply kept_mk

theorem State.setEth_kept {s0 s : State} (h : s0.Kept s) (e : ℕ) (x : Eth) : s0.Kept (State.setEth s e x) := by
  unfold State.setEth
  try dsimp only
  repeat' first
    | with_reducible assumption | fail_if_no_progress with_reducible apply kept_mk

theorem State.send_kept {s0 s : State} (h : s0.Kept s) (o : NetOut) : s0.Kept (State.send s o) := by
  unfold State.send
  try dsimp only
  repeat' first
    | with_reducible assumption | fail_if_no_progress with_reducible apply kept_mk

theorem State.sendNotice_kept {s0 s : State} (h : s0.Kept s) (n : Notice) (b : Sub) : s0.Kept (State.sendNotice s n b) := by
  unfold State.sendNotice
  try dsimp only
  repeat' first
    | with_reducible assumption | with_reducible apply State.setEth_kept | with_reducible apply State.send_kept
    | fail_if_no_progress with_reducible apply kept_mk | split

theorem State.deliver_kept {s0 s : State} (h : s0.Kept s) (n : Notice) : s0.Kept (State.deliver s n) := by
  unfold State.deliver
  try dsimp only
  repeat' first
    | with_reducible assumption | with_reducible apply State.sendNotice_kept | with_reducible apply kept_foldl | intro _
    | fail_if_no_progress with_reducible apply kept_mk | split

theorem State.exportNow_kept {s0 s : State} (h : s0.Kept s) : s0.Kept (State.exportNow s) := by
  unfold State.exportNow
  try dsimp only
  repeat' first
    | with_reducible assumption | with_reducible apply State.takeFree_kept | with_reducible apply State.deliver_kept
    | with_reducible apply kept_foldl | (with_reducible eapply kept_pair; with_reducible assumption) | intro _
    | fail_if_no_progress with_reducible apply kept_mk | split

theorem State.notify_kept {s0 s : State} (h : s0.Kept s) (n : Notice) : s0.Kept (State.notify s n) := by
  unfold State.notify
  try dsimp only
  repeat' first
    | with_reducible assumption | with_reducible apply State.exportNow_kept | fail_if_no_progress with_reducible apply kept_mk | split

theorem State.post_kept {s0 s : State} (h : s0.Kept s) (q : ℕ) (kind : ℕ) (group : Option ℕ) : s0.Kept (State.post s q kind group) := by
  unfold State.post
  try dsimp only
  repeat' first
    | with_reducible assumption | with_reducible apply State.updTile_kept | with_reducible apply State.notify_kept
    | with_reducible apply kept_foldl | intro _ | split

theorem State.log_kept {s0 s : State} (h : s0.Kept s) (k : AlarmKind) (arg : ℕ) : s0.Kept (State.log s k arg) := by
  unfold State.log
  try dsimp only
  repeat' first
    | with_reducible assumption | fail_if_no_progress with_reducible apply kept_mk | split

theorem State.alarm_kept {s0 s : State} (h : s0.Kept s) (k : AlarmKind) (arg : ℕ) : s0.Kept (State.alarm s k arg) := by
  unfold State.alarm
  try dsimp only
  repeat' first
    | with_reducible assumption | with_reducible apply State.notify_kept | with_reducible apply State.log_kept
    | fail_if_no_progress with_reducible apply kept_mk | split

theorem State.watchRisk_kept {s0 s : State} (h : s0.Kept s) : s0.Kept (State.watchRisk s) := by
  unfold State.watchRisk
  try dsimp only
  repeat' first
    | with_reducible assumption | with_reducible apply State.post_kept | with_reducible apply State.alarm_kept
    | with_reducible apply kept_foldl | intro _ | fail_if_no_progress with_reducible apply kept_mk | split

theorem State.risk_kept {s0 s : State} (h : s0.Kept s) (points : ℕ) : s0.Kept (State.risk s points) := by
  unfold State.risk
  try dsimp only
  repeat' first
    | with_reducible assumption | with_reducible apply State.watchRisk_kept | fail_if_no_progress with_reducible apply kept_mk

theorem State.setRegion_kept {s0 s : State} (h : s0.Kept s) (i : ℕ) (r : Region) : s0.Kept (State.setRegion s i r) := by
  unfold State.setRegion
  try dsimp only
  repeat' first
    | with_reducible assumption | fail_if_no_progress with_reducible apply kept_mk | fail_if_no_progress with_reducible apply kept_mem

theorem State.beginRestripe_kept {s0 s : State} (h : s0.Kept s) (c : ℕ) : s0.Kept (State.beginRestripe s c) := by
  unfold State.beginRestripe
  try dsimp only
  repeat' first
    | with_reducible assumption | with_reducible apply State.setChan_kept | fail_if_no_progress with_reducible apply kept_mk
    | fail_if_no_progress with_reducible apply kept_mem | split

theorem State.tryRestripe_kept {s0 s : State} (h : s0.Kept s) (c : ℕ) : s0.Kept (State.tryRestripe s c) := by
  unfold State.tryRestripe
  try dsimp only
  repeat' first
    | with_reducible assumption | with_reducible apply State.alarm_kept | with_reducible apply State.setRegion_kept
    | with_reducible apply State.beginRestripe_kept | with_reducible apply kept_foldl | intro _
    | fail_if_no_progress with_reducible apply kept_mk | fail_if_no_progress with_reducible apply kept_mem | split

theorem State.nextRestripe_kept {s0 s : State} (h : s0.Kept s) : s0.Kept (State.nextRestripe s) := by
  unfold State.nextRestripe
  try dsimp only
  repeat' first
    | with_reducible assumption | with_reducible apply State.tryRestripe_kept | fail_if_no_progress with_reducible apply kept_mk
    | fail_if_no_progress with_reducible apply kept_mem | split

theorem State.candidate_kept {s0 s : State} (h : s0.Kept s) (c : ℕ) (first : Bool) : s0.Kept (State.candidate s c first) := by
  unfold State.candidate
  try dsimp only
  repeat' first
    | with_reducible assumption | with_reducible apply State.nextRestripe_kept | fail_if_no_progress with_reducible apply kept_mk
    | fail_if_no_progress with_reducible apply kept_mem | split

theorem State.setStack_kept {s0 s : State} (h : s0.Kept s) (m : ℕ) (x : Stack) : s0.Kept (State.setStack s m x) := by
  unfold State.setStack
  try dsimp only
  repeat' first
    | with_reducible assumption | fail_if_no_progress with_reducible apply kept_mk

theorem State.loseRegion_kept {s0 s : State} (h : s0.Kept s) (i : ℕ) : s0.Kept (State.loseRegion s i) := by
  unfold State.loseRegion
  try dsimp only
  repeat' first
    | with_reducible assumption | with_reducible apply State.post_kept | with_reducible apply State.alarm_kept
    | with_reducible apply State.risk_kept | with_reducible apply State.setRegion_kept | fail_if_no_progress with_reducible apply kept_mk
    | split

theorem State.noteEcc_kept {s0 s : State} (h : s0.Kept s) (a : ℕ) (e : Ecc) : s0.Kept (State.noteEcc s a e) := by
  unfold State.noteEcc
  try dsimp only
  repeat' first
    | with_reducible assumption | with_reducible apply State.setChan_kept | with_reducible apply State.risk_kept
    | with_reducible apply State.candidate_kept | with_reducible apply State.setStack_kept | with_reducible apply State.loseRegion_kept
    | fail_if_no_progress with_reducible apply kept_mk | split

theorem State.writeBytes_kept {s0 s : State} (h : s0.Kept s) (a : Nat) (bs : List Byte) : s0.Kept (s.writeBytes a bs) :=
  ⟨h.1, fun w => Sparse.wf_setList _ _ (h.2 w)⟩

theorem State.setStrand_kept {s0 s : State} (h : s0.Kept s) (a : At) (r : Strand) : s0.Kept (State.setStrand s a r) := by
  unfold State.setStrand
  try dsimp only
  repeat' first
    | with_reducible assumption | with_reducible apply State.setTile_kept

theorem State.updStrand_kept {s0 s : State} (h : s0.Kept s) (a : At) (f : Strand → Strand) : s0.Kept (State.updStrand s a f) := by
  unfold State.updStrand
  try dsimp only
  repeat' first
    | with_reducible assumption | with_reducible apply State.setStrand_kept | intro _

theorem State.startWalk_kept {s0 s : State} (h : s0.Kept s) (t1 : TileId) (m : Miss) : s0.Kept (State.startWalk s t1 m) := by
  unfold State.startWalk
  try dsimp only
  repeat' first
    | with_reducible assumption | with_reducible apply State.updTile_kept | split

theorem State.inject_kept {s0 s : State} (h : s0.Kept s) (t1 : TileId) (m : StackId) (p : MPacket) : s0.Kept (State.inject s t1 m p) := by
  unfold State.inject
  try dsimp only
  repeat' first
    | with_reducible assumption | with_reducible apply State.setTile_kept | fail_if_no_progress with_reducible apply kept_mk | split

theorem State.ask_kept {s0 s : State} (h : s0.Kept s) (t1 : TileId) (h2 : StrandId) (kind : AskKind) (va : Word) (addr : ℕ) (isSeal : Bool) (b : Body) :
    s0.Kept (State.ask s t1 h2 kind va addr isSeal b).2 := by
  unfold State.ask
  try dsimp only
  repeat' first
    | with_reducible assumption | with_reducible apply State.updTile_kept | with_reducible apply State.takeTag_kept
    | with_reducible apply State.inject_kept | (with_reducible eapply kept_pair; with_reducible assumption) | split

theorem State.fetchLine_kept {s0 s : State} (h : s0.Kept s) (a : At) (first : Bool) (pc : Word) (len : ℕ) :
    (State.fetchLine s a first pc len).Keeps s0 := by
  unfold State.fetchLine
  try dsimp only
  repeat' first
    | with_reducible assumption | with_reducible apply State.updStrand_kept | with_reducible apply State.startWalk_kept
    | with_reducible apply State.ask_kept | with_reducible apply Fetch.keeps_ready | with_reducible apply Fetch.keeps_wait
    | with_reducible apply Fetch.keeps_fault | (with_reducible eapply kept_pair; with_reducible assumption) | split

theorem State.fetch_kept {s0 s : State} (h : s0.Kept s) (a : At) (len : ℕ) : (State.fetch s a len).Keeps s0 := by
  unfold State.fetch
  try dsimp only
  repeat' first
    | with_reducible assumption | with_reducible apply State.fetchLine_kept | with_reducible apply Fetch.keeps_ready
    | with_reducible apply Fetch.keeps_wait | with_reducible apply Fetch.keeps_fault
    | (with_reducible eapply Fetch.keeps_of_ready; with_reducible assumption)
    | (with_reducible eapply Fetch.keeps_of_wait; with_reducible assumption) | split

theorem State.stopStrand_kept {s0 s : State} (h : s0.Kept s) (a : At) : s0.Kept (State.stopStrand s a) := by
  unfold State.stopStrand
  try dsimp only
  repeat' first
    | with_reducible assumption | with_reducible apply State.updTile_kept | with_reducible apply State.alarm_kept
    | with_reducible apply State.updStrand_kept

theorem State.walkNow_kept {s0 s : State} (h : s0.Kept s) (t1 : TileId) (au : Auth) (need : Need) (a : ℕ) (n : ℕ) :
    s0.Kept (State.walkNow s t1 au need a n) := by
  unfold State.walkNow
  try dsimp only
  repeat' first
    | with_reducible assumption | with_reducible apply State.updTile_kept | with_reducible apply State.takeFree_kept
    | (with_reducible eapply kept_pair; with_reducible assumption) | split

theorem State.walkEntry_kept {s0 s : State} (h : s0.Kept s) (a : At) (code : ℕ) : s0.Kept (State.walkEntry s a code) := by
  unfold State.walkEntry
  try dsimp only
  repeat' first
    | with_reducible assumption | with_reducible apply State.walkNow_kept

theorem State.enterTile_kept {s0 s : State} (h : s0.Kept s) (a : At) : s0.Kept (State.enterTile s a) := by
  unfold State.enterTile
  try dsimp only
  repeat' first
    | with_reducible assumption | with_reducible apply State.updTile_kept | with_reducible apply kept_foldl | intro _ | split

theorem State.countTile_kept {s0 s : State} (h : s0.Kept s) (t1 : TileId) (sel : ℕ) (n : ℕ) : s0.Kept (State.countTile s t1 sel n) := by
  unfold State.countTile
  try dsimp only
  repeat' first
    | with_reducible assumption | with_reducible apply State.count_kept | split

theorem State.escalate_kept {s0 s : State} (h : s0.Kept s) (a : At) (fail : ℕ × ℕ × ℕ) (cause : Word) (addr : Word) (pc : Word) :
    s0.Kept (State.escalate s a fail cause addr pc) := by
  unfold State.escalate
  try dsimp only
  repeat' first
    | with_reducible assumption | with_reducible apply State.updTile_kept | with_reducible apply State.updStrand_kept
    | with_reducible apply State.enterTile_kept | with_reducible apply State.countTile_kept

theorem State.askRemote_kept {s0 s : State} (h : s0.Kept s) (t1 : TileId) (h2 : StrandId) (kind : AskKind) (va : Word) (addr : ℕ) (b : Body) :
    s0.Kept (State.askRemote s t1 h2 kind va addr b).2 := by
  unfold State.askRemote
  try dsimp only
  repeat' first
    | with_reducible assumption | with_reducible apply State.updTile_kept | with_reducible apply State.originate_kept
    | with_reducible apply State.takeTag_kept | (with_reducible eapply kept_pair; with_reducible assumption) | split

theorem State.sendStore_kept {s0 s : State} (h : s0.Kept s) (t1 : TileId) (h2 : StrandId) (kind : AskKind) (va : Word) (x : Xlate) (bs : List Byte) :
    s0.Kept (State.sendStore s t1 h2 kind va x bs) := by
  unfold State.sendStore
  try dsimp only
  repeat' first
    | with_reducible assumption | with_reducible apply State.ask_kept | with_reducible apply State.askRemote_kept
    | with_reducible apply kept_foldl | (with_reducible eapply kept_pair; with_reducible assumption) | intro _ | split

theorem State.mendLine_kept {s0 s : State} (h : s0.Kept s) (t1 : TileId) (k : ℕ) (w : ℕ) (ws : BitVec 32) :
    s0.Kept (State.mendLine s t1 k w ws) := by
  unfold State.mendLine
  try dsimp only
  repeat' first
    | with_reducible assumption | with_reducible apply State.updTile_kept | with_reducible apply State.loseRegion_kept
    | with_reducible apply kept_foldl | intro _ | split

theorem State.mend_kept {s0 s : State} (h : s0.Kept s) (t1 : TileId) (a : ℕ) (ws : BitVec 32) : s0.Kept (State.mend s t1 a ws) := by
  unfold State.mend
  try dsimp only
  repeat' first
    | with_reducible assumption | with_reducible apply State.mendLine_kept | split

theorem State.cleanLine_kept {s0 s : State} (h : s0.Kept s) (t1 : TileId) (k : ℕ) (w : ℕ) (who : Option StrandId) (mask : BitVec 4) :
    s0.Kept (State.cleanLine s t1 k w who mask) := by
  unfold State.cleanLine
  try dsimp only
  repeat' first
    | with_reducible assumption | with_reducible apply State.updTile_kept | with_reducible apply State.ask_kept
    | with_reducible apply State.mendLine_kept | with_reducible apply kept_foldl
    | (with_reducible eapply kept_pair; with_reducible assumption) | intro _ | split

theorem State.allocLine_kept {s0 s : State} (h : s0.Kept s) (t1 : TileId) (a : ℕ) (untouched : Bool) (isSeal : Bool) {u : ℕ × State} (e : State.allocLine s t1 a untouched isSeal = some u) :
    s0.Kept u.2 := by
  unfold State.allocLine at e
  try dsimp only at e
  repeat' first | (cases e; done) | (injection e with e; subst e) | split at e
  all_goals repeat' first
    | with_reducible assumption | with_reducible apply State.setTile_kept | with_reducible apply State.updTile_kept
    | with_reducible apply State.takeFree_kept | with_reducible apply State.cleanLine_kept
    | (with_reducible eapply kept_pair; with_reducible assumption) | split

theorem State.sendMerge_kept {s0 s : State} (h : s0.Kept s) (t1 : TileId) (e : MergeEntry) : s0.Kept (State.sendMerge s t1 e) := by
  unfold State.sendMerge
  try dsimp only
  repeat' first
    | with_reducible assumption | with_reducible apply State.updTile_kept | with_reducible apply State.ask_kept

theorem State.requestLine_kept {s0 s : State} (h : s0.Kept s) (t1 : TileId) (h2 : StrandId) (va : Word) (a : ℕ) (isSeal : Bool) (stream : Option ℕ) (demand : Bool) :
    s0.Kept (State.requestLine s t1 h2 va a isSeal stream demand).2 := by
  unfold State.requestLine
  try dsimp only
  repeat' first
    | with_reducible assumption | with_reducible apply State.updTile_kept | with_reducible apply State.ask_kept
    | with_reducible apply State.sendMerge_kept | with_reducible apply kept_foldl
    | with_reducible refine State.allocLine_kept (u := (_, _)) ?_ _ _ _ _ (by with_reducible assumption)
    | (with_reducible eapply kept_pair; with_reducible assumption) | intro _ | split

theorem State.missLine_kept {s0 s : State} (h : s0.Kept s) (t1 : TileId) (h2 : StrandId) (va : Word) (a : ℕ) (isSeal : Bool) :
    s0.Kept (State.missLine s t1 h2 va a isSeal).2 := by
  unfold State.missLine
  try dsimp only
  repeat' first
    | with_reducible assumption | with_reducible apply State.countTile_kept | with_reducible apply State.requestLine_kept
    | (with_reducible eapply kept_pair; with_reducible assumption) | split

theorem State.mergeIn_kept {s0 s : State} (h : s0.Kept s) (t1 : TileId) (who : StoreBy) (a : ℕ) (isSeal : Bool) (bs : List Byte) {u : State} (e : State.mergeIn s t1 who a isSeal bs = some u) :
    s0.Kept u := by
  unfold State.mergeIn at e
  try dsimp only at e
  repeat' first | (cases e; done) | (injection e with e; subst e) | split at e
  all_goals repeat' first
    | with_reducible assumption | with_reducible apply State.setTile_kept | with_reducible apply State.updTile_kept
    | with_reducible apply State.sendMerge_kept | split

theorem State.putSlice_kept {s0 s : State} (h : s0.Kept s) (t1 : TileId) (who : StoreBy) (va : Word) (p : Policy) (a : ℕ) (isSeal : Bool) (bs : List Byte) :
    s0.Kept (State.putSlice s t1 who va p a isSeal bs).2 := by
  unfold State.putSlice
  try dsimp only
  repeat' first
    | with_reducible assumption | with_reducible apply State.updTile_kept | with_reducible apply State.mend_kept
    | with_reducible apply State.missLine_kept
    | with_reducible refine State.allocLine_kept (u := (_, _)) ?_ _ _ _ _ (by with_reducible assumption)
    | (with_reducible eapply State.mergeIn_kept; rotate_left; with_reducible assumption)
    | (with_reducible eapply kept_pair; with_reducible assumption) | split

theorem State.putSector_kept {s0 s : State} (h : s0.Kept s) (a : At) (va : ℕ) (x : Xlate) (bs : List Byte) {u : State} (e : State.putSector s a va x bs = some u) :
    s0.Kept u := by
  unfold State.putSector at e
  try dsimp only at e
  repeat' first | (cases e; done) | (injection e with e; subst e) | split at e
  all_goals repeat' first
    | with_reducible assumption | with_reducible apply State.updTile_kept | with_reducible apply State.sendStore_kept
    | with_reducible apply State.putSlice_kept | (with_reducible eapply kept_pair; with_reducible assumption) | split

theorem State.putFrame_kept {s0 s : State} (h : s0.Kept s) (a : At) (au : Auth) (lo : ℕ) (bs : List Byte) (ks : List ℕ) {u : State} (e : State.putFrame s a au lo bs ks = some u) : s0.Kept u := by
  induction ks generalizing s with
  | nil => cases e; exact h
  | cons k ks ih =>
    unfold State.putFrame at e
    split at e
    · obtain ⟨v, hv, e⟩ := Option.bind_eq_some_iff.mp e
      exact ih (State.putSector_kept h _ _ _ _ hv) e
    · exact ih h e

theorem State.pushFrame_kept {s0 s : State} (h : s0.Kept s) (a : At) (f : EntryFrame) : s0.Kept (State.pushFrame s a f) := by
  unfold State.pushFrame
  try dsimp only
  repeat' first
    | with_reducible assumption | with_reducible apply State.writeBytes_kept | with_reducible apply State.updStrand_kept | split

theorem State.enterHandler_kept {s0 s : State} (h : s0.Kept s) (a : At) (code : ℕ) (cause : Word) (addr : Word) (pc : Word) :
    s0.Kept (State.enterHandler s a code cause addr pc) := by
  unfold State.enterHandler
  try dsimp only
  repeat' first
    | with_reducible assumption | with_reducible apply State.updStrand_kept | with_reducible apply State.enterTile_kept
    | with_reducible apply State.countTile_kept | with_reducible apply State.pushFrame_kept
    | (with_reducible eapply State.putFrame_kept; rotate_left; with_reducible assumption) | split

theorem State.enter_kept {s0 s : State} (h : s0.Kept s) (a : At) (c : Cause) (addr : Word) (pc : Word) :
    s0.Kept (State.enter s a c addr pc) := by
  unfold State.enter
  try dsimp only
  repeat' first
    | with_reducible assumption | with_reducible apply State.updStrand_kept | with_reducible apply State.stopStrand_kept
    | with_reducible apply State.walkEntry_kept | with_reducible apply State.escalate_kept | with_reducible apply State.enterHandler_kept
    | split

theorem State.raiseAt_kept {s0 s : State} (h : s0.Kept s) (a : At) (code : ℕ) (check : ℕ) (wreg : ℕ) (addr : Word) :
    s0.Kept (State.raiseAt s a code check wreg addr) := by
  unfold State.raiseAt
  try dsimp only
  repeat' first
    | with_reducible assumption | with_reducible apply State.enter_kept | split

theorem State.raise_kept {s0 s : State} (h : s0.Kept s) (a : At) (code : ℕ) (check : ℕ) (wreg : ℕ) (addr : Word) :
    s0.Kept (State.raise s a code check wreg addr) := by
  unfold State.raise
  try dsimp only
  repeat' first
    | with_reducible assumption | with_reducible apply State.raiseAt_kept

theorem State.issueWith_kept {s0 s : State} (h : s0.Kept s) (a : At) (len : ℕ) (k : State → State) (h_k : ∀ s, s0.Kept s → s0.Kept (k s)) :
    s0.Kept (State.issueWith s a len k) := by
  unfold State.issueWith
  try dsimp only
  repeat' first
    | with_reducible assumption | with_reducible apply h_k | with_reducible apply State.fetch_kept
    | with_reducible apply State.raise_kept | (with_reducible eapply Fetch.keeps_of_ready; with_reducible assumption)
    | (with_reducible eapply Fetch.keeps_of_wait; with_reducible assumption) | intro _ | split

theorem State.beat_kept {s0 s : State} (h : s0.Kept s) (t1 : TileId) : s0.Kept (State.beat s t1) := by
  unfold State.beat
  try dsimp only
  repeat' first
    | with_reducible assumption | with_reducible apply State.updTile_kept

theorem State.attempt_kept {s0 s : State} (h : s0.Kept s) (a : At) (len : ℕ) (plain : Bool) (uses : List (BitVec 5)) (eff : State → Act) (h_eff : ∀ s, s0.Kept s → (eff s).Keeps s0) : s0.Kept (State.attempt s a len plain uses eff) := by
  have hs := h_eff s h
  unfold State.attempt
  dsimp only
  split
  · exact State.raise_kept h _ _ _ _ _
  split
  · exact h
  split <;> rename_i e <;> rw [e] at hs
  · exact h
  · exact hs
  · exact State.raise_kept h _ _ _ _ _
  · exact State.updStrand_kept (State.countTile_kept (State.beat_kept hs _) _ _ _) _ _
  · exact State.countTile_kept (State.beat_kept hs _) _ _ _

theorem illegal_kept {s0 s : State} (h : s0.Kept s) (a : At) : (illegal s a).Keeps s0 := by
  unfold illegal
  try dsimp only
  repeat' first
    | with_reducible assumption | with_reducible apply Act.keeps_done | with_reducible apply Act.keeps_go
    | with_reducible apply Act.keeps_later | with_reducible apply Act.keeps_wait | with_reducible apply Act.keeps_fault

theorem result_kept {s0 s : State} (h : s0.Kept s) (a : At) (rd : BitVec 5) (v : Word) : (result s a rd v).Keeps s0 := by
  unfold result
  try dsimp only
  repeat' first
    | with_reducible assumption | with_reducible apply State.updStrand_kept | with_reducible apply Act.keeps_done
    | with_reducible apply Act.keeps_go | with_reducible apply Act.keeps_later | with_reducible apply Act.keeps_wait
    | with_reducible apply Act.keeps_fault

theorem State.setIsland_kept {s0 s : State} (h : s0.Kept s) (i : ℕ) (x : Island) : s0.Kept (State.setIsland s i x) := by
  unfold State.setIsland
  try dsimp only
  repeat' first
    | with_reducible assumption | fail_if_no_progress with_reducible apply kept_mk

theorem State.issue_kept {s0 s : State} (h : s0.Kept s) (a : At) (len : ℕ) (plain : Bool) (uses : List (BitVec 5)) (eff : State → Act) (h_eff : ∀ s, s0.Kept s → (eff s).Keeps s0) :
    s0.Kept (State.issue s a len plain uses eff) := by
  unfold State.issue
  try dsimp only
  repeat' first
    | with_reducible assumption | with_reducible apply h_eff | with_reducible apply State.issueWith_kept
    | with_reducible apply State.attempt_kept | intro _

theorem State.payTile_kept {s0 s : State} (h : s0.Kept s) (t1 : TileId) (n : ℕ) : s0.Kept (State.payTile s t1 n) := by
  unfold State.payTile
  try dsimp only
  repeat' first
    | with_reducible assumption | with_reducible apply State.payEnergy_kept | split

theorem State.spoilReplay_kept {s0 s : State} (h : s0.Kept s) (a : At) (cause : ℕ) : s0.Kept (State.spoilReplay s a cause) := by
  unfold State.spoilReplay
  try dsimp only
  repeat' first
    | with_reducible assumption | with_reducible apply State.updQuire_kept | fail_if_no_progress with_reducible apply kept_mk | split

theorem State.issue32_kept {s0 s : State} (h : s0.Kept s) (a : At) (uses : List (BitVec 5)) (eff : State → Act) (h_eff : ∀ s, s0.Kept s → (eff s).Keeps s0) :
    Out.Keeps s0 (State.issue32 s a uses eff) := by
  unfold State.issue32
  try dsimp only
  repeat' first
    | with_reducible assumption | with_reducible apply h_eff | with_reducible apply State.issue_kept
    | with_reducible apply Act.keeps_done | with_reducible apply Act.keeps_go | with_reducible apply Act.keeps_later
    | with_reducible apply Act.keeps_wait | with_reducible apply Act.keeps_fault | with_reducible apply Out.keeps_next | intro _

theorem State.flushMerge_kept {s0 s : State} (h : s0.Kept s) (t1 : TileId) (a : ℕ) : s0.Kept (State.flushMerge s t1 a) := by
  unfold State.flushMerge
  try dsimp only
  repeat' first
    | with_reducible assumption | with_reducible apply State.sendMerge_kept | with_reducible apply kept_foldl | intro _

theorem State.giveUpSector_kept {s0 s : State} (h : s0.Kept s) (t1 : TileId) (a : ℕ) : s0.Kept (State.giveUpSector s t1 a) := by
  unfold State.giveUpSector
  try dsimp only
  repeat' first
    | with_reducible assumption | with_reducible apply State.updTile_kept | with_reducible apply State.cleanLine_kept | split

theorem State.leaveHandler_kept {s0 s : State} (h : s0.Kept s) (a : At) (bs : List Byte) : s0.Kept (State.leaveHandler s a bs) := by
  unfold State.leaveHandler
  try dsimp only
  repeat' first
    | with_reducible assumption | with_reducible apply State.updTile_kept | with_reducible apply State.updStrand_kept

theorem State.issueCtl_kept {s0 s : State} (h : s0.Kept s) (a : At) (uses : List (BitVec 5)) (eff : State → Act) (h_eff : ∀ s, s0.Kept s → (eff s).Keeps s0) :
    Out.Keeps s0 (State.issueCtl s a uses eff) := by
  unfold State.issueCtl
  try dsimp only
  repeat' first
    | with_reducible assumption | with_reducible apply h_eff | with_reducible apply State.issue_kept
    | with_reducible apply Act.keeps_done | with_reducible apply Act.keeps_go | with_reducible apply Act.keeps_later
    | with_reducible apply Act.keeps_wait | with_reducible apply Act.keeps_fault | with_reducible apply Out.keeps_next | intro _

theorem State.issue64_kept {s0 s : State} (h : s0.Kept s) (a : At) (uses : List (BitVec 5)) (eff : State → Act) (h_eff : ∀ s, s0.Kept s → (eff s).Keeps s0) :
    Out.Keeps s0 (State.issue64 s a uses eff) := by
  unfold State.issue64
  try dsimp only
  repeat' first
    | with_reducible assumption | with_reducible apply h_eff | with_reducible apply State.issue_kept
    | with_reducible apply Act.keeps_done | with_reducible apply Act.keeps_go | with_reducible apply Act.keeps_later
    | with_reducible apply Act.keeps_wait | with_reducible apply Act.keeps_fault | with_reducible apply Out.keeps_next | intro _

theorem State.creditBack_kept {s0 s : State} (h : s0.Kept s) (t1 : TileId) (m : StackId) : s0.Kept (State.creditBack s t1 m) := by
  unfold State.creditBack
  try dsimp only
  repeat' first
    | with_reducible assumption | with_reducible apply State.setTile_kept | fail_if_no_progress with_reducible apply kept_mk | split

theorem State.leaveBackstop_kept {s0 s : State} (h : s0.Kept s) (a : At) : s0.Kept (State.leaveBackstop s a) := by
  unfold State.leaveBackstop
  try dsimp only
  repeat' first
    | with_reducible assumption | with_reducible apply State.updTile_kept | with_reducible apply State.updStrand_kept

end Sys2Proof.Machine
end

