-- ==== Sys2Proof/Laws/KeptTile.lean ====
section
/-! SUPPORT. What keeps the queue and the canonical form of memory: the shared operations of the instructions of a tile. One lemma for each function that
gives a state. -/

namespace Sys2Proof.Machine

theorem State.raiseRecorded_kept {s0 s : State} (h : s0.Kept s) (a : At) : s0.Kept (State.raiseRecorded s a) := by
  unfold State.raiseRecorded
  try dsimp only
  repeat' first
    | with_reducible assumption | with_reducible apply State.updStrand_kept | with_reducible apply State.raise_kept | split

theorem State.tileReach_kept {s0 s : State} (h : s0.Kept s) (a : At) (k : State) (h_k : s0.Kept k) : s0.Kept (State.tileReach s a k) := by
  unfold State.tileReach
  try dsimp only
  repeat' first
    | with_reducible assumption | with_reducible apply State.raiseRecorded_kept | split

theorem State.issueTile_kept {s0 s : State} (h : s0.Kept s) (a : At) (uses : List (BitVec 5)) (eff : State → Act) (h_eff : ∀ s, s0.Kept s → (eff s).Keeps s0) :
    s0.Kept (State.issueTile s a uses eff) := by
  unfold State.issueTile
  try dsimp only
  repeat' first
    | with_reducible assumption | with_reducible apply h_eff | with_reducible apply State.issueWith_kept
    | with_reducible apply State.tileReach_kept | with_reducible apply State.attempt_kept | intro _

theorem tileCtl_kept {s0 s : State} (h : s0.Kept s) (a : At) (f : CF) (sel : ℕ) (uses : List (BitVec 5)) (eff : State → Act) (h_eff : ∀ s, s0.Kept s → (eff s).Keeps s0) :
    Out.Keeps s0 (tileCtl a f sel uses eff s) := by
  unfold tileCtl
  try dsimp only
  repeat' first
    | with_reducible assumption | with_reducible apply h_eff | with_reducible apply State.issueTile_kept
    | with_reducible apply illegal_kept | with_reducible apply Act.keeps_done | with_reducible apply Act.keeps_go
    | with_reducible apply Act.keeps_later | with_reducible apply Act.keeps_wait | with_reducible apply Act.keeps_fault
    | with_reducible apply Out.keeps_next | intro _ | split

theorem State.enqueueVec_kept {s0 s : State} (h : s0.Kept s) (a : At) (o : VOp) : s0.Kept (State.enqueueVec s a o) := by
  unfold State.enqueueVec
  try dsimp only
  repeat' first
    | with_reducible assumption | with_reducible apply State.updTile_kept | with_reducible apply State.updStrand_kept
    | with_reducible apply State.payTile_kept | with_reducible apply State.spoilReplay_kept | split

theorem vectorIssue_kept {s0 s : State} (h : s0.Kept s) (k : VKind) (a : At) (f : VF) : Out.Keeps s0 (vectorIssue k a f s) := by
  unfold vectorIssue
  try dsimp only
  repeat' first
    | with_reducible assumption | with_reducible apply State.updTile_kept | with_reducible apply illegal_kept
    | with_reducible apply State.issue_kept | with_reducible apply State.enqueueVec_kept | with_reducible apply Act.keeps_done
    | with_reducible apply Act.keeps_go | with_reducible apply Act.keeps_later | with_reducible apply Act.keeps_wait
    | with_reducible apply Act.keeps_fault | with_reducible apply Out.keeps_next | intro _ | split

theorem State.backToVec_kept {s0 s : State} (h : s0.Kept s) (o : VOp) (t2 : TileId) (i : ℕ) : s0.Kept (State.backToVec s o t2 i) := by
  unfold State.backToVec
  try dsimp only
  repeat' first
    | with_reducible assumption | with_reducible apply State.updTile_kept | with_reducible apply State.updStrand_kept

theorem sysOp_kept {s0 s : State} (h : s0.Kept s) (a : At) (zero : List (BitVec 5)) (uses : List (BitVec 5)) (eff : State → Act) (h_eff : ∀ s, s0.Kept s → (eff s).Keeps s0) :
    Out.Keeps s0 (sysOp a zero uses eff s) := by
  unfold sysOp
  try dsimp only
  repeat' first
    | with_reducible assumption | with_reducible apply h_eff | with_reducible apply illegal_kept
    | with_reducible apply State.issue32_kept | with_reducible apply Act.keeps_done | with_reducible apply Act.keeps_go
    | with_reducible apply Act.keeps_later | with_reducible apply Act.keeps_wait | with_reducible apply Act.keeps_fault
    | with_reducible apply Out.keeps_next | intro _ | split

theorem State.readBeats_kept {s0 s : State} (h : s0.Kept s) (t1 : TileId) : s0.Kept (State.readBeats s t1).2 := by
  unfold State.readBeats
  try dsimp only
  repeat' first
    | with_reducible assumption | with_reducible apply State.updTile_kept | with_reducible apply State.takeFree_kept
    | (with_reducible eapply kept_pair; with_reducible assumption) | split

theorem State.tryPart_kept {s0 s : State} (h : s0.Kept s) (a : At) (ld : PendingLoad) (p : LoadPart) (ctl : Option (ℕ → Word)) :
    s0.Kept (State.tryPart s a ld p ctl).2 := by
  unfold State.tryPart
  try dsimp only
  repeat' first
    | with_reducible assumption | with_reducible apply State.setTile_kept | with_reducible apply State.updTile_kept
    | with_reducible apply State.ask_kept | with_reducible apply State.askRemote_kept | with_reducible apply State.mend_kept
    | with_reducible apply State.missLine_kept | with_reducible apply State.flushMerge_kept
    | with_reducible apply State.giveUpSector_kept | (with_reducible eapply kept_pair; with_reducible assumption) | intro _ | split

theorem State.tryParts_kept {s0 s : State} (h : s0.Kept s) (a : At) (ld : PendingLoad) (ctl : Option (ℕ → Word)) (ps : List LoadPart) : s0.Kept (State.tryParts s a ld ctl ps).2 := by
  induction ps generalizing s with
  | nil => exact h
  | cons p ps ih => exact ih (State.tryPart_kept h _ _ _ _)

theorem State.finishLoad_kept {s0 s : State} (h : s0.Kept s) (a : At) (l : PendingLoad) (bs : List Byte) :
    s0.Kept (State.finishLoad s a l bs) := by
  unfold State.finishLoad
  try dsimp only
  repeat' first
    | with_reducible assumption | with_reducible apply State.updStrand_kept | with_reducible apply State.leaveHandler_kept | split

theorem State.startLoad_kept {s0 s : State} (h : s0.Kept s) (a : At) (kind : LoadKind) (rd : BitVec 5) (n : ℕ) (isSeal : Bool) (parts : List LoadPart) :
    s0.Kept (State.startLoad s a kind rd n isSeal parts) := by
  unfold State.startLoad
  try dsimp only
  repeat' first
    | with_reducible assumption | with_reducible apply State.updStrand_kept | with_reducible apply State.tryParts_kept
    | with_reducible apply State.finishLoad_kept | (with_reducible eapply kept_pair; with_reducible assumption) | split

theorem intR_kept {s0 s : State} (h : s0.Kept s) (op : Word → Word → Word) (a : At) (f : RF) : Out.Keeps s0 (intR op a f s) := by
  unfold intR
  try dsimp only
  repeat' first
    | with_reducible assumption | with_reducible apply result_kept | with_reducible apply State.issue32_kept
    | with_reducible apply Act.keeps_done | with_reducible apply Act.keeps_go | with_reducible apply Act.keeps_later
    | with_reducible apply Act.keeps_wait | with_reducible apply Act.keeps_fault | with_reducible apply Out.keeps_next | intro _

theorem State.replayFault_kept {s0 s : State} (h : s0.Kept s) (a : At) (code : ℕ) (check : ℕ) (wreg : ℕ) (addr : Word) :
    s0.Kept (State.replayFault s a code check wreg addr) := by
  unfold State.replayFault
  try dsimp only
  repeat' first
    | with_reducible assumption | with_reducible apply State.updStrand_kept | with_reducible apply State.raise_kept | split

theorem State.malformed_kept {s0 s : State} (h : s0.Kept s) (a : At) : s0.Kept (State.malformed s a) := by
  unfold State.malformed
  try dsimp only
  repeat' first
    | with_reducible assumption | with_reducible apply State.updStrand_kept | with_reducible apply State.raiseRecorded_kept
    | with_reducible apply State.replayFault_kept | split

theorem State.startReplay_kept {s0 s : State} (h : s0.Kept s) (a : At) (ps : List (Word × ℕ × Xlate)) :
    s0.Kept (State.startReplay s a ps) := by
  unfold State.startReplay
  try dsimp only
  repeat' first
    | with_reducible assumption | with_reducible apply State.updStrand_kept

theorem State.finishReplay_kept {s0 s : State} (h : s0.Kept s) (a : At) (l : PendingLoad) (bs : List Byte) :
    s0.Kept (State.finishReplay s a l bs) := by
  unfold State.finishReplay
  try dsimp only
  repeat' first
    | with_reducible assumption | with_reducible apply State.setTile_kept | with_reducible apply State.updStrand_kept
    | with_reducible apply State.startWalk_kept | with_reducible apply State.replayFault_kept | with_reducible apply State.malformed_kept
    | with_reducible apply State.startReplay_kept | split

theorem State.readTicks_kept {s0 s : State} (h : s0.Kept s) (t1 : TileId) : s0.Kept (State.readTicks s t1).2 := by
  unfold State.readTicks
  try dsimp only
  repeat' first
    | with_reducible assumption | with_reducible apply State.takeFree_kept | with_reducible apply State.setIsland_kept
    | (with_reducible eapply kept_pair; with_reducible assumption) | split

theorem State.passUnit_kept {s0 s : State} (h : s0.Kept s) (t1 : TileId) (o : VOp) (u : ℕ) (n : ℕ) :
    s0.Kept (State.passUnit s t1 o u n) := by
  unfold State.passUnit
  try dsimp only
  repeat' first
    | with_reducible assumption | with_reducible apply State.updTile_kept | with_reducible apply State.countTile_kept

theorem State.awaitVec_kept {s0 s : State} (h : s0.Kept s) (t1 : TileId) (o : VOp) (tag : Option ℕ) :
    s0.Kept (State.awaitVec s t1 o tag) := by
  unfold State.awaitVec
  try dsimp only
  repeat' first
    | with_reducible assumption | with_reducible apply State.updTile_kept

theorem State.vecLoad_kept {s0 s : State} (h : s0.Kept s) (t1 : TileId) (o : VOp) (u : ℕ) (va : Word) (l : Xlate) :
    s0.Kept (State.vecLoad s t1 o u va l) := by
  unfold State.vecLoad
  try dsimp only
  repeat' first
    | with_reducible assumption | with_reducible apply State.setTile_kept | with_reducible apply State.ask_kept
    | with_reducible apply State.askRemote_kept | with_reducible apply State.mend_kept | with_reducible apply State.missLine_kept
    | with_reducible apply State.flushMerge_kept | with_reducible apply State.passUnit_kept | with_reducible apply State.awaitVec_kept
    | (with_reducible eapply kept_pair; with_reducible assumption) | split

theorem State.enterStore_kept {s0 s : State} (h : s0.Kept s) (a : At) (ps : List (Word × ℕ × Xlate)) (bs : List Byte) :
    (State.enterStore s a ps bs).Keeps s0 := by
  unfold State.enterStore
  try dsimp only
  repeat' first
    | with_reducible assumption | with_reducible apply State.updStrand_kept | with_reducible apply Act.keeps_done
    | with_reducible apply Act.keeps_go | with_reducible apply Act.keeps_later | with_reducible apply Act.keeps_wait
    | with_reducible apply Act.keeps_fault | split

theorem scalarStore_kept {s0 s : State} (h : s0.Kept s) (n : ℕ) (a : At) (f : SF) : Out.Keeps s0 (scalarStore n a f s) := by
  unfold scalarStore
  try dsimp only
  repeat' first
    | with_reducible assumption | with_reducible apply State.startWalk_kept | with_reducible apply State.issue32_kept
    | with_reducible apply State.enterStore_kept | with_reducible apply Act.keeps_done | with_reducible apply Act.keeps_go
    | with_reducible apply Act.keeps_later | with_reducible apply Act.keeps_wait | with_reducible apply Act.keeps_fault
    | with_reducible apply Out.keeps_next | intro _ | split

theorem wfault_kept {s0 : State} (i : BitVec 5) (check : ℕ) : (wfault i check).Keeps s0 := by
  unfold wfault
  try dsimp only
  repeat' first
    | with_reducible assumption | with_reducible apply Act.keeps_done | with_reducible apply Act.keeps_go
    | with_reducible apply Act.keeps_later | with_reducible apply Act.keeps_wait | with_reducible apply Act.keeps_fault

theorem State.source_kept {s0 : State} (s : State) (a : At) (i : BitVec 5) (k : Warrant → Act) (h_k : ∀ w, (k w).Keeps s0) : (State.source s a i k).Keeps s0 := by
  unfold State.source
  split
  · trivial
  split
  · trivial
  · exact h_k _

theorem State.needs_kept {s0 : State} (s : State) (a : At) (i : BitVec 5) (kinds : List ℕ) (bit : Option ℕ) (k : Warrant → Act) (h_k : ∀ w, (k w).Keeps s0) : (State.needs s a i kinds bit k).Keeps s0 := by
  refine State.source_kept _ _ _ _ fun w => ?_
  split
  · trivial
  split
  · trivial
  split
  · split
    · exact h_k w
    · trivial
  · exact h_k w

theorem tileFault_kept {s0 s : State} (h : s0.Kept s) (a : At) (reason : ℕ) : (tileFault s a reason).Keeps s0 := by
  unfold tileFault
  try dsimp only
  repeat' first
    | with_reducible assumption | with_reducible apply State.updStrand_kept | with_reducible apply State.raise_kept
    | with_reducible apply Act.keeps_done | with_reducible apply Act.keeps_go | with_reducible apply Act.keeps_later
    | with_reducible apply Act.keeps_wait | with_reducible apply Act.keeps_fault | split

theorem State.enqueueTile_kept {s0 s : State} (h : s0.Kept s) (a : At) (i : TInstr) (charge : ℕ) :
    s0.Kept (State.enqueueTile s a i charge) := by
  unfold State.enqueueTile
  try dsimp only
  repeat' first
    | with_reducible assumption | with_reducible apply State.updTile_kept | with_reducible apply State.payTile_kept | split

theorem tileIssue_kept {s0 s : State} (h : s0.Kept s) (i : TInstr) (a : At) : Out.Keeps s0 (tileIssue i a s) := by
  unfold tileIssue
  try dsimp only
  repeat' first
    | with_reducible assumption | with_reducible apply State.updTile_kept | with_reducible apply State.issueTile_kept
    | with_reducible apply illegal_kept | with_reducible apply tileFault_kept | with_reducible apply State.enqueueTile_kept
    | with_reducible apply Act.keeps_done | with_reducible apply Act.keeps_go | with_reducible apply Act.keeps_later
    | with_reducible apply Act.keeps_wait | with_reducible apply Act.keeps_fault | with_reducible apply Out.keeps_next | intro _ | split

theorem State.vecAmo_kept {s0 s : State} (h : s0.Kept s) (t1 : TileId) (o : VOp) (u : ℕ) (va : Word) (l : Xlate) :
    s0.Kept (State.vecAmo s t1 o u va l) := by
  unfold State.vecAmo
  try dsimp only
  repeat' first
    | with_reducible assumption | with_reducible apply State.ask_kept | with_reducible apply State.askRemote_kept
    | with_reducible apply State.flushMerge_kept | with_reducible apply State.giveUpSector_kept
    | with_reducible apply State.passUnit_kept | (with_reducible eapply kept_pair; with_reducible assumption) | split

theorem toSlot_kept {s0 s : State} (h : s0.Kept s) (a : At) (next : Word) (link : Option (BitVec 5 × Word)) :
    (toSlot s a next link).Keeps s0 := by
  unfold toSlot
  try dsimp only
  repeat' first
    | with_reducible assumption | with_reducible apply State.updStrand_kept | with_reducible apply Act.keeps_done
    | with_reducible apply Act.keeps_go | with_reducible apply Act.keeps_later | with_reducible apply Act.keeps_wait
    | with_reducible apply Act.keeps_fault

theorem branch_kept {s0 s : State} (h : s0.Kept s) (cond : Word → Word → Bool) (a : At) (f : BF) : Out.Keeps s0 (branch cond a f s) := by
  unfold branch
  try dsimp only
  repeat' first
    | with_reducible assumption | with_reducible apply State.issueCtl_kept | with_reducible apply toSlot_kept
    | with_reducible apply Act.keeps_done | with_reducible apply Act.keeps_go | with_reducible apply Act.keeps_later
    | with_reducible apply Act.keeps_wait | with_reducible apply Act.keeps_fault | with_reducible apply Out.keeps_next | intro _ | split

theorem scalarLoad_kept {s0 s : State} (h : s0.Kept s) (n : ℕ) (signed : Bool) (a : At) (f : IF) :
    Out.Keeps s0 (scalarLoad n signed a f s) := by
  unfold scalarLoad
  try dsimp only
  repeat' first
    | with_reducible assumption | with_reducible apply State.startWalk_kept | with_reducible apply State.issue32_kept
    | with_reducible apply State.startLoad_kept | with_reducible apply Act.keeps_done | with_reducible apply Act.keeps_go
    | with_reducible apply Act.keeps_later | with_reducible apply Act.keeps_wait | with_reducible apply Act.keeps_fault
    | with_reducible apply Out.keeps_next | intro _ | split

theorem State.takeFailedLoads_kept {s0 s : State} (h : s0.Kept s) (a : At) : s0.Kept (State.takeFailedLoads s a) := by
  unfold State.takeFailedLoads
  try dsimp only
  repeat' first
    | with_reducible assumption | with_reducible apply State.updStrand_kept | with_reducible apply State.enter_kept
    | with_reducible apply kept_foldl | intro _ | split

theorem State.upkeep_kept {s0 s : State} (h : s0.Kept s) (a : At) (op : Upkeep) (k : ℕ) (w : ℕ) (mask : BitVec 4) :
    (State.upkeep s a op k w mask).Keeps s0 := by
  unfold State.upkeep
  try dsimp only
  repeat' first
    | with_reducible assumption | with_reducible apply State.updTile_kept | with_reducible apply State.cleanLine_kept
    | with_reducible apply Tended.keeps_done | with_reducible apply Tended.keeps_wait | with_reducible apply Tended.keeps_lost | split

theorem State.upkeepSector_kept {s0 s : State} (h : s0.Kept s) (a : At) (op : Upkeep) (l : Xlate) :
    (State.upkeepSector s a op l).Keeps s0 := by
  unfold State.upkeepSector
  try dsimp only
  repeat' first
    | with_reducible assumption | with_reducible apply State.flushMerge_kept | with_reducible apply State.upkeep_kept
    | with_reducible apply Tended.keeps_done | with_reducible apply Tended.keeps_wait | with_reducible apply Tended.keeps_lost
    | (with_reducible eapply Tended.keeps_of_done; with_reducible assumption)
    | (with_reducible eapply Tended.keeps_of_lost; with_reducible assumption) | split

theorem upkeepOne_kept {s0 s : State} (h : s0.Kept s) (op : Upkeep) (a : At) (f : RF) : Out.Keeps s0 (upkeepOne op a f s) := by
  unfold upkeepOne
  try dsimp only
  repeat' first
    | with_reducible assumption | with_reducible apply State.startWalk_kept | with_reducible apply State.raise_kept
    | with_reducible apply sysOp_kept | with_reducible apply State.upkeepSector_kept | with_reducible apply Act.keeps_done
    | with_reducible apply Act.keeps_go | with_reducible apply Act.keeps_later | with_reducible apply Act.keeps_wait
    | with_reducible apply Act.keeps_fault | with_reducible apply Out.keeps_next
    | (with_reducible eapply Tended.keeps_of_done; with_reducible assumption)
    | (with_reducible eapply Tended.keeps_of_lost; with_reducible assumption) | intro _ | split

theorem State.sendMerges_kept {s0 s : State} (h : s0.Kept s) (a : At) : s0.Kept (State.sendMerges s a) := by
  unfold State.sendMerges
  try dsimp only
  repeat' first
    | with_reducible assumption | with_reducible apply State.sendMerge_kept | with_reducible apply kept_foldl | intro _

theorem State.prefetchLine_kept {s0 s : State} (h : s0.Kept s) (a : At) (va : Word) : s0.Kept (State.prefetchLine s a va) := by
  unfold State.prefetchLine
  try dsimp only
  repeat' first
    | with_reducible assumption | with_reducible apply State.updTile_kept | with_reducible apply State.startWalk_kept
    | with_reducible apply State.requestLine_kept | (with_reducible eapply kept_pair; with_reducible assumption) | split

theorem vectorState_kept {s0 s : State} (h : s0.Kept s) (a : At) (f : VF) (uses : List (BitVec 5)) (eff : Strand → Option Strand) :
    Out.Keeps s0 (vectorState a f uses eff s) := by
  unfold vectorState
  try dsimp only
  repeat' first
    | with_reducible assumption | with_reducible apply State.setStrand_kept | with_reducible apply illegal_kept
    | with_reducible apply State.issue64_kept | with_reducible apply Act.keeps_done | with_reducible apply Act.keeps_go
    | with_reducible apply Act.keeps_later | with_reducible apply Act.keeps_wait | with_reducible apply Act.keeps_fault
    | with_reducible apply Out.keeps_next | intro _ | split

theorem State.upkeepLine_kept {s0 s : State} (h : s0.Kept s) (a : At) (op : Upkeep) (k : ℕ) (w : ℕ) :
    (State.upkeepLine s a op k w).Keeps s0 := by
  unfold State.upkeepLine
  try dsimp only
  repeat' first
    | with_reducible assumption | with_reducible apply State.sendMerge_kept | with_reducible apply State.upkeep_kept
    | with_reducible apply Tended.keeps_done | with_reducible apply Tended.keeps_wait | with_reducible apply Tended.keeps_lost
    | with_reducible apply kept_foldl | (with_reducible eapply Tended.keeps_of_done; with_reducible assumption)
    | (with_reducible eapply Tended.keeps_of_lost; with_reducible assumption) | intro _ | split

theorem upkeepSetWay_kept {s0 s : State} (h : s0.Kept s) (op : Upkeep) (a : At) (f : RF) : Out.Keeps s0 (upkeepSetWay op a f s) := by
  unfold upkeepSetWay
  try dsimp only
  repeat' first
    | with_reducible assumption | with_reducible apply State.raise_kept | with_reducible apply illegal_kept
    | with_reducible apply sysOp_kept | with_reducible apply State.upkeepLine_kept | with_reducible apply Act.keeps_done
    | with_reducible apply Act.keeps_go | with_reducible apply Act.keeps_later | with_reducible apply Act.keeps_wait
    | with_reducible apply Act.keeps_fault | with_reducible apply Out.keeps_next
    | (with_reducible eapply Tended.keeps_of_done; with_reducible assumption)
    | (with_reducible eapply Tended.keeps_of_lost; with_reducible assumption) | intro _ | split

theorem State.upkeepLines_kept {s0 s : State} (h : s0.Kept s) (a : At) (op : Upkeep) (ps : List ℕ) : (State.upkeepLines s a op ps).Keeps s0 := by
  induction ps generalizing s with
  | nil => exact h
  | cons p ps ih =>
    have hu := State.upkeepLine_kept h a op (p / 16) (p % 16)
    unfold State.upkeepLines
    split
    · rename_i e
      rw [e] at hu
      exact ih hu
    · exact hu

theorem State.takeRecur_kept {s0 s : State} (h : s0.Kept s) (a : At) (c : Cause) (v : Word) : s0.Kept (State.takeRecur s a c v) := by
  unfold State.takeRecur
  try dsimp only
  repeat' first
    | with_reducible assumption | with_reducible apply State.updStrand_kept | with_reducible apply State.enter_kept | split

theorem sysCtl_kept {s0 s : State} (h : s0.Kept s) (a : At) (zero : List (BitVec 5)) (uses : List (BitVec 5)) (eff : State → Act) (h_eff : ∀ s, s0.Kept s → (eff s).Keeps s0) :
    Out.Keeps s0 (sysCtl a zero uses eff s) := by
  unfold sysCtl
  try dsimp only
  repeat' first
    | with_reducible assumption | with_reducible apply h_eff | with_reducible apply illegal_kept
    | with_reducible apply State.issueCtl_kept | with_reducible apply Act.keeps_done | with_reducible apply Act.keeps_go
    | with_reducible apply Act.keeps_later | with_reducible apply Act.keeps_wait | with_reducible apply Act.keeps_fault
    | with_reducible apply Out.keeps_next | intro _ | split

theorem State.target_kept {s0 s : State} (h : s0.Kept s) (a : At) (i : BitVec 5) (k : Act) (h_k : k.Keeps s0) :
    (State.target s a i k).Keeps s0 := by
  unfold State.target
  try dsimp only
  repeat' first
    | with_reducible assumption | with_reducible apply wfault_kept | with_reducible apply State.source_kept
    | with_reducible apply Act.keeps_done | with_reducible apply Act.keeps_go | with_reducible apply Act.keeps_later
    | with_reducible apply Act.keeps_wait | with_reducible apply Act.keeps_fault | intro _ | split

theorem State.setW_kept {s0 s : State} (h : s0.Kept s) (a : At) (i : BitVec 5) (w : Warrant) : s0.Kept (State.setW s a i w) := by
  unfold State.setW
  try dsimp only
  repeat' first
    | with_reducible assumption | with_reducible apply State.updStrand_kept

theorem narrow_kept {s0 s : State} (h : s0.Kept s) (kinds : List ℕ) (change : Warrant → Except ℕ Warrant) (a : At) (wd : BitVec 5) :
    (narrow kinds change a wd s).Keeps s0 := by
  unfold narrow
  try dsimp only
  repeat' first
    | with_reducible assumption | with_reducible apply wfault_kept | with_reducible apply State.needs_kept
    | with_reducible apply State.target_kept | with_reducible apply State.setW_kept | with_reducible apply Act.keeps_done
    | with_reducible apply Act.keeps_go | with_reducible apply Act.keeps_later | with_reducible apply Act.keeps_wait
    | with_reducible apply Act.keeps_fault | intro _ | split

theorem State.tileLoad_kept {s0 s : State} (h : s0.Kept s) (t1 : TileId) (o : TOp) (va : Word) (l : Xlate) (n : ℕ) :
    s0.Kept (State.tileLoad s t1 o va l n) := by
  unfold State.tileLoad
  try dsimp only
  repeat' first
    | with_reducible assumption | with_reducible apply State.setTile_kept | with_reducible apply State.updTile_kept
    | with_reducible apply State.ask_kept | with_reducible apply State.askRemote_kept | with_reducible apply State.mend_kept
    | with_reducible apply State.missLine_kept | (with_reducible eapply kept_pair; with_reducible assumption) | split

theorem State.preciseTrap_kept {s0 s : State} (h : s0.Kept s) (t1 : TileId) (o : VOp) (i : ℕ) (flags : Flags) :
    s0.Kept (State.preciseTrap s t1 o i flags) := by
  unfold State.preciseTrap
  try dsimp only
  repeat' first
    | with_reducible assumption | with_reducible apply State.enter_kept | with_reducible apply State.backToVec_kept

theorem intI_kept {s0 s : State} (h : s0.Kept s) (op : Word → Word → Word) (a : At) (f : IF) : Out.Keeps s0 (intI op a f s) := by
  unfold intI
  try dsimp only
  repeat' first
    | with_reducible assumption | with_reducible apply result_kept | with_reducible apply State.issue32_kept
    | with_reducible apply Act.keeps_done | with_reducible apply Act.keeps_go | with_reducible apply Act.keeps_later
    | with_reducible apply Act.keeps_wait | with_reducible apply Act.keeps_fault | with_reducible apply Out.keeps_next | intro _

theorem State.takeEvent_kept {s0 s : State} (h : s0.Kept s) (a : At) : s0.Kept (State.takeEvent s a) := by
  unfold State.takeEvent
  try dsimp only
  repeat' first
    | with_reducible assumption | with_reducible apply State.enter_kept | split

theorem State.takeTrap_kept {s0 s : State} (h : s0.Kept s) (a : At) (p : Trap) : s0.Kept (State.takeTrap s a p) := by
  unfold State.takeTrap
  try dsimp only
  repeat' first
    | with_reducible assumption | with_reducible apply State.updStrand_kept | with_reducible apply State.enter_kept | split

theorem State.vecStoreOver_kept {s0 s : State} (h : s0.Kept s) (t1 : TileId) (o : VOp) (u : ℕ) (va : Word) (l : Xlate) (old : List Byte) :
    s0.Kept (State.vecStoreOver s t1 o u va l old) := by
  unfold State.vecStoreOver
  try dsimp only
  repeat' first
    | with_reducible assumption | with_reducible apply State.setTile_kept | with_reducible apply State.takeFree_kept
    | with_reducible apply State.sendStore_kept | with_reducible apply State.putSlice_kept | with_reducible apply State.passUnit_kept
    | with_reducible apply State.awaitVec_kept | (with_reducible eapply kept_pair; with_reducible assumption) | split

theorem intU_kept {s0 s : State} (h : s0.Kept s) (op : Word → Word) (a : At) (f : RF) : Out.Keeps s0 (intU op a f s) := by
  unfold intU
  try dsimp only
  repeat' first
    | with_reducible assumption | with_reducible apply illegal_kept | with_reducible apply result_kept
    | with_reducible apply State.issue32_kept | with_reducible apply Act.keeps_done | with_reducible apply Act.keeps_go
    | with_reducible apply Act.keeps_later | with_reducible apply Act.keeps_wait | with_reducible apply Act.keeps_fault
    | with_reducible apply Out.keeps_next | intro _ | split

theorem State.vecStoreGot_kept {s0 s : State} (h : s0.Kept s) (t1 : TileId) (o : VOp) (u : ℕ) (old : List Byte) :
    s0.Kept (State.vecStoreGot s t1 o u old) := by
  unfold State.vecStoreGot
  try dsimp only
  repeat' first
    | with_reducible assumption | with_reducible apply State.awaitVec_kept | with_reducible apply State.vecStoreOver_kept | split

theorem State.upkeepParts_kept {s0 s : State} (h : s0.Kept s) (a : At) (op : Upkeep) (ps : List ℕ) : (State.upkeepParts s a op ps).Keeps s0 := by
  induction ps generalizing s with
  | nil => exact h
  | cons p ps ih =>
    unfold State.upkeepParts
    split
    · exact State.startWalk_kept h _ _
    · exact State.raise_kept h _ _ _ _ _
    have hu := State.upkeepSector_kept h a op ‹Xlate›
    split <;> rename_i e <;> rw [e] at hu
    · exact h
    · exact State.raise_kept hu _ _ _ _ _
    · exact ih hu

theorem upkeepRange_kept {s0 s : State} (h : s0.Kept s) (op : Upkeep) (a : At) (f : RF) : Out.Keeps s0 (upkeepRange op a f s) := by
  refine sysOp_kept h _ _ _ _ fun s h => ?_
  have hp := fun ps => State.upkeepParts_kept h a op ps
  split
  · exact illegal_kept h _
  dsimp only
  split
  · exact h
  split
  · rename_i e
    have hu := Act.keeps_of_done e (hp _)
    split <;> exact State.updStrand_kept hu _ _
  · exact hp _

theorem upkeepAll_kept {s0 s : State} (h : s0.Kept s) (op : Upkeep) (a : At) (f : RF) : Out.Keeps s0 (upkeepAll op a f s) := by
  unfold upkeepAll
  try dsimp only
  repeat' first
    | with_reducible assumption | with_reducible apply State.sendMerge_kept | with_reducible apply State.raise_kept
    | with_reducible apply sysOp_kept | with_reducible apply State.upkeepLines_kept | with_reducible apply Act.keeps_done
    | with_reducible apply Act.keeps_go | with_reducible apply Act.keeps_later | with_reducible apply Act.keeps_wait
    | with_reducible apply Act.keeps_fault | with_reducible apply Out.keeps_next | with_reducible apply kept_foldl
    | (with_reducible eapply Tended.keeps_of_done; with_reducible assumption)
    | (with_reducible eapply Tended.keeps_of_lost; with_reducible assumption) | intro _ | split

theorem State.tileStore_kept {s0 s : State} (h : s0.Kept s) (t1 : TileId) (o : TOp) (va : Word) (l : Xlate) (n : ℕ) :
    s0.Kept (State.tileStore s t1 o va l n) := by
  unfold State.tileStore
  try dsimp only
  repeat' first
    | with_reducible assumption | with_reducible apply State.setTile_kept | with_reducible apply State.updTile_kept
    | with_reducible apply State.sendStore_kept | with_reducible apply State.putSlice_kept
    | (with_reducible eapply kept_pair; with_reducible assumption) | split

theorem State.vecFault_kept {s0 s : State} (h : s0.Kept s) (t1 : TileId) (o : VOp) (i : ℕ) (code : ℕ) (check : ℕ) (wreg : ℕ) (addr : Word) :
    s0.Kept (State.vecFault s t1 o i code check wreg addr) := by
  unfold State.vecFault
  try dsimp only
  repeat' first
    | with_reducible assumption | with_reducible apply State.raise_kept | with_reducible apply State.backToVec_kept | split

theorem State.rowFault_kept {s0 s : State} (h : s0.Kept s) (t1 : TileId) (o : TOp) (code : ℕ) (check : ℕ) (va : Word) :
    s0.Kept (State.rowFault s t1 o code check va) := by
  unfold State.rowFault
  try dsimp only
  repeat' first
    | with_reducible assumption | with_reducible apply State.updTile_kept

theorem State.tileAccess_kept {s0 s : State} (h : s0.Kept s) (t1 : TileId) (o : TOp) : s0.Kept (State.tileAccess s t1 o) := by
  unfold State.tileAccess
  try dsimp only
  repeat' first
    | with_reducible assumption | with_reducible apply State.startWalk_kept | with_reducible apply State.tileLoad_kept
    | with_reducible apply State.tileStore_kept | with_reducible apply State.rowFault_kept | split

theorem State.vecStore_kept {s0 s : State} (h : s0.Kept s) (t1 : TileId) (o : VOp) (u : ℕ) (va : Word) (l : Xlate) :
    s0.Kept (State.vecStore s t1 o u va l) := by
  unfold State.vecStore
  try dsimp only
  repeat' first
    | with_reducible assumption | with_reducible apply State.ask_kept | with_reducible apply State.askRemote_kept
    | with_reducible apply State.mend_kept | with_reducible apply State.missLine_kept | with_reducible apply State.flushMerge_kept
    | with_reducible apply State.awaitVec_kept | with_reducible apply State.vecStoreOver_kept
    | (with_reducible eapply kept_pair; with_reducible assumption) | split

theorem State.vecAccess_kept {s0 s : State} (h : s0.Kept s) (t1 : TileId) (o : VOp) (u : ℕ) : s0.Kept (State.vecAccess s t1 o u) := by
  unfold State.vecAccess
  try dsimp only
  repeat' first
    | with_reducible assumption | with_reducible apply State.startWalk_kept | with_reducible apply State.vecLoad_kept
    | with_reducible apply State.vecAmo_kept | with_reducible apply State.vecFault_kept | with_reducible apply State.vecStore_kept
    | split

theorem State.vecElement_kept {s0 s : State} (h : s0.Kept s) (t1 : TileId) : s0.Kept (State.vecElement s t1) := by
  unfold State.vecElement
  try dsimp only
  repeat' first
    | with_reducible assumption | with_reducible apply State.setTile_kept | with_reducible apply State.passUnit_kept
    | with_reducible apply State.vecStoreGot_kept | with_reducible apply State.vecFault_kept | with_reducible apply State.vecAccess_kept
    | split

theorem State.arithDone_kept {s0 s : State} (h : s0.Kept s) (t1 : TileId) : s0.Kept (State.arithDone s t1) := by
  unfold State.arithDone
  try dsimp only
  repeat' first
    | with_reducible assumption | with_reducible apply State.setTile_kept | with_reducible apply State.updStrand_kept
    | with_reducible apply State.countTile_kept | with_reducible apply State.preciseTrap_kept | split

theorem State.memDone_kept {s0 s : State} (h : s0.Kept s) (t1 : TileId) : s0.Kept (State.memDone s t1) := by
  unfold State.memDone
  try dsimp only
  repeat' first
    | with_reducible assumption | with_reducible apply State.setTile_kept | with_reducible apply State.updStrand_kept | split

end Sys2Proof.Machine
end

