-- ==== Sys2Proof/Laws/KeptNet.lean ====
section
/-! SUPPORT. What keeps the queue and the canonical form of memory: the memory side, groups, collectives, transfers, the links, the gateway. One lemma for each function that
gives a state. -/

namespace Sys2Proof.Machine

theorem State.recordAnswer_kept {s0 s : State} (h : s0.Kept s) (c : Record) (p : SPacket) : s0.Kept (State.recordAnswer s c p) := by
  unfold State.recordAnswer
  try dsimp only
  repeat' first
    | with_reducible assumption | with_reducible apply State.updTile_kept | fail_if_no_progress with_reducible apply kept_mk | split

theorem State.strike_kept {s0 s : State} (h : s0.Kept s) (u : ℕ) (e : Ecc) : s0.Kept (State.strike s u e) := by
  unfold State.strike
  try dsimp only
  repeat' first
    | with_reducible assumption | fail_if_no_progress with_reducible apply kept_mk | fail_if_no_progress with_reducible apply kept_mem

theorem State.meet_kept {s0 s : State} (h : s0.Kept s) (p : ℕ → Bool) : s0.Kept (State.meet s p).2 := by
  unfold State.meet
  try dsimp only
  repeat' first
    | with_reducible assumption | with_reducible apply State.noteEcc_kept | with_reducible apply State.strike_kept
    | with_reducible apply kept_foldl | intro _ | split

theorem State.chargeSpan_kept {s0 s : State} (h : s0.Kept s) (q : ℕ) (a : ℕ) (n : ℕ) (k : ℕ) : s0.Kept (State.chargeSpan s q a n k) := by
  unfold State.chargeSpan
  try dsimp only
  repeat' first
    | with_reducible assumption | with_reducible apply State.payEnergy_kept | with_reducible apply State.count_kept
    | with_reducible apply State.setStack_kept | with_reducible apply kept_foldl | intro _

theorem State.writeSpan_kept {s0 s : State} (h : s0.Kept s) (q : ℕ) (isSeal : Bool) (copy : Bool) (a : ℕ) (bs : List Byte) :
    s0.Kept (State.writeSpan s q isSeal copy a bs).2 := by
  unfold State.writeSpan
  try dsimp only
  repeat' first
    | with_reducible assumption | with_reducible apply State.meet_kept | with_reducible apply State.chargeSpan_kept
    | with_reducible apply State.writeBytes_kept | (with_reducible eapply kept_pair; with_reducible assumption) | split

theorem State.completion_kept {s0 s : State} (h : s0.Kept s) (t : TileId) (x : StrandId) (au : Auth) (nt : Bool) (caddr status rank tag : ℕ) {u : State} (e : State.completion s t x au nt caddr status rank tag = some u) : s0.Kept u := by
  unfold State.completion at e
  dsimp only at e
  split at e
  · exact Option.some.inj e ▸ h
  split at e
  · split at e
    · exact Option.some.inj e ▸ h
    · exact Option.some.inj e ▸ kept_mk (State.originate_kept (State.takeTag_kept h) _)
  split at e
  · exact nomatch e
  have hr := fun q a bs => State.writeSpan_kept h q false false a bs
  split at e <;> rename_i e' <;> have hu := kept_pair e' (hr _ _ _)
  · exact Option.some.inj e ▸ hu
  · rw [← Option.some.inj e]
    split
    · exact State.updTile_kept hu _ _
    · exact hu

theorem State.recordTransfer_kept {s0 s : State} (h : s0.Kept s) (x : Transfer) (status : ℕ) : s0.Kept (State.recordTransfer s x status) := by
  have hk : ∀ (b : Bool) (u : State), (if b then some s else s.completion x.t x.h x.auth x.nt x.caddr status 0 x.tag) = some u → s0.Kept u := by
    intro b u e
    cases b
    · exact State.completion_kept h _ _ _ _ _ _ _ _ e
    · exact Option.some.inj e ▸ h
  unfold State.recordTransfer
  dsimp only
  split
  · exact h
  · exact kept_mk (State.count_kept (hk _ _ ‹_›) _ _ _)

theorem State.setTransfer_kept {s0 s : State} (h : s0.Kept s) (x : Transfer) (y : Transfer) : s0.Kept (State.setTransfer s x y) := by
  unfold State.setTransfer
  try dsimp only
  repeat' first
    | with_reducible assumption | fail_if_no_progress with_reducible apply kept_mk | split

theorem State.endTransfer_kept {s0 s : State} (h : s0.Kept s) (x : Transfer) (status : ℕ) : s0.Kept (State.endTransfer s x status) := by
  unfold State.endTransfer
  try dsimp only
  repeat' first
    | with_reducible assumption | with_reducible apply State.recordTransfer_kept | with_reducible apply State.setTransfer_kept

theorem State.pieceMoved_kept {s0 s : State} (h : s0.Kept s) (x : Transfer) (n : ℕ) : s0.Kept (State.pieceMoved s x n) := by
  unfold State.pieceMoved
  try dsimp only
  repeat' first
    | with_reducible assumption | with_reducible apply State.setTransfer_kept | with_reducible apply State.endTransfer_kept | split

theorem State.landPiece_kept {s0 s : State} (h : s0.Kept s) (x : Transfer) (m : Xlate) (bs : List Byte) :
    s0.Kept (State.landPiece s x m bs) := by
  unfold State.landPiece
  try dsimp only
  repeat' first
    | with_reducible assumption | with_reducible apply State.writeSpan_kept | with_reducible apply State.endTransfer_kept
    | with_reducible apply State.pieceMoved_kept | (with_reducible eapply kept_pair; with_reducible assumption) | split

theorem State.transferAnswer_kept {s0 s : State} (h : s0.Kept s) (p : SPacket) : s0.Kept (State.transferAnswer s p) := by
  unfold State.transferAnswer
  try dsimp only
  repeat' first
    | with_reducible assumption | with_reducible apply State.recordAnswer_kept | with_reducible apply State.setTransfer_kept
    | with_reducible apply State.endTransfer_kept | with_reducible apply State.pieceMoved_kept
    | with_reducible apply State.landPiece_kept | split

theorem State.dropPacket_kept {s0 s : State} (h : s0.Kept s) (pk : SPacket) : s0.Kept (State.dropPacket s pk) := by
  unfold State.dropPacket
  try dsimp only
  repeat' first
    | with_reducible assumption | with_reducible apply State.answerRemote_kept | with_reducible apply State.originate_kept
    | with_reducible apply State.transferAnswer_kept | split

theorem State.noRoute_kept {s0 s : State} (h : s0.Kept s) (pk : SPacket) : s0.Kept (State.noRoute s pk) := by
  unfold State.noRoute
  try dsimp only
  repeat' first
    | with_reducible assumption | with_reducible apply State.dropPacket_kept | fail_if_no_progress with_reducible apply kept_mk

theorem State.passOn_kept {s0 s : State} (h : s0.Kept s) (p : ℕ) (cls : Bool) (pk : SPacket) : s0.Kept (State.passOn s p cls pk) := by
  unfold State.passOn
  try dsimp only
  repeat' first
    | with_reducible assumption | with_reducible apply State.enqueue_kept | with_reducible apply State.dropPacket_kept
    | with_reducible apply State.noRoute_kept | fail_if_no_progress with_reducible apply kept_mk | split

theorem State.freeBlocks_kept {s0 s : State} (h : s0.Kept s) (p : ℕ) (pool : ℕ) (n : ℕ) : s0.Kept (State.freeBlocks s p pool n) := by
  unfold State.freeBlocks
  try dsimp only
  repeat' first
    | with_reducible assumption | with_reducible apply State.setPort_kept

theorem State.flowOn_kept {s0 s : State} (h : s0.Kept s) (p lane n : ℕ) : s0.Kept (State.flowOn s p lane n) := by
  induction n generalizing s with
  | zero => exact h
  | succ n ih =>
    unfold State.flowOn
    split
    · exact h
    split
    · exact h
    · exact ih (State.passOn_kept (State.freeBlocks_kept (State.setPort_kept h _ _) _ _ _) _ _ _)

theorem State.consume_kept {s0 s : State} (h : s0.Kept s) (p : ℕ) (want : SPacket → Bool) {u : SPacket × State} (e : State.consume s p want = some u) : s0.Kept u.2 := by
  obtain ⟨o, -, rfl⟩ := Option.map_eq_some_iff.mp e
  exact State.flowOn_kept (State.freeBlocks_kept (State.setPort_kept h _ _) _ _ _) _ _ _

theorem State.signal_kept {s0 s : State} (h : s0.Kept s) (tile : ℕ) (strand : ℕ) (line : ℕ) :
    s0.Kept (State.signal s tile strand line) := by
  unfold State.signal
  try dsimp only
  repeat' first
    | with_reducible assumption | with_reducible apply State.updTile_kept | split

theorem State.setSession_kept {s0 s : State} (h : s0.Kept s) (id : ℕ) (x : Option Session) : s0.Kept (State.setSession s id x) := by
  unfold State.setSession
  try dsimp only
  repeat' first
    | with_reducible assumption | fail_if_no_progress with_reducible apply kept_mk

theorem State.reply_kept {s0 s : State} (h : s0.Kept s) (id : ℕ) (seq : ℕ) (op : ℕ) (phase : ℕ) (status : ℕ) (tlvs : List Tlv) (e : ℕ) (src : ℕ) :
    s0.Kept (State.reply s id seq op phase status tlvs e src) := by
  unfold State.reply
  try dsimp only
  repeat' first
    | with_reducible assumption | with_reducible apply State.send_kept | with_reducible apply State.setSession_kept | split

theorem State.finish_kept {s0 s : State} (h : s0.Kept s) (r : Request) (status : ℕ) (tlvs : List Tlv) :
    s0.Kept (State.finish s r status tlvs) := by
  unfold State.finish
  try dsimp only
  repeat' first
    | with_reducible assumption | with_reducible apply State.reply_kept | fail_if_no_progress with_reducible apply kept_mk

theorem State.finishWhere_kept {s0 s : State} (h : s0.Kept s) (p : Wait → Bool) (status : ℕ) (tlvs : List Tlv) :
    s0.Kept (State.finishWhere s p status tlvs) := by
  unfold State.finishWhere
  try dsimp only
  repeat' first
    | with_reducible assumption | with_reducible apply State.finish_kept | with_reducible apply kept_foldl | intro _

theorem State.countBad_kept {s0 s : State} (h : s0.Kept s) : s0.Kept (State.countBad s) := by
  unfold State.countBad
  try dsimp only
  repeat' first
    | with_reducible assumption | fail_if_no_progress with_reducible apply kept_mk

theorem State.openColl_kept {s0 s : State} (h : s0.Kept s) (g : ℕ) (seq : ℕ) (e : Group) : s0.Kept (State.openColl s g seq e) := by
  unfold State.openColl
  try dsimp only
  repeat' first
    | with_reducible assumption | fail_if_no_progress with_reducible apply kept_mk | split

theorem State.updColl_kept {s0 s : State} (h : s0.Kept s) (g : ℕ) (seq : ℕ) (f : Coll → Coll) : s0.Kept (State.updColl s g seq f) := by
  unfold State.updColl
  try dsimp only
  repeat' first
    | with_reducible assumption | intro _ | fail_if_no_progress with_reducible apply kept_mk | split

theorem State.stopColl_kept {s0 s : State} (h : s0.Kept s) (g : ℕ) (seq : ℕ) (status : ℕ) (rank : ℕ) (e : Group) :
    s0.Kept (State.stopColl s g seq status rank e) := by
  unfold State.stopColl
  try dsimp only
  repeat' first
    | with_reducible assumption | with_reducible apply State.openColl_kept | with_reducible apply State.updColl_kept | split

theorem State.sendSpine_kept {s0 s : State} (h : s0.Kept s) (dst : ℕ) (type : ℕ) (payload : List Byte) :
    s0.Kept (State.sendSpine s dst type payload) := by
  unfold State.sendSpine
  try dsimp only
  repeat' first
    | with_reducible assumption | with_reducible apply State.originate_kept

theorem State.raiseColl_kept {s0 s : State} (h : s0.Kept s) (g : ℕ) (seq : ℕ) (status : ℕ) : s0.Kept (State.raiseColl s g seq status) := by
  unfold State.raiseColl
  try dsimp only
  repeat' first
    | with_reducible assumption | with_reducible apply State.alarm_kept | with_reducible apply State.openColl_kept
    | with_reducible apply State.stopColl_kept | with_reducible apply State.sendSpine_kept | with_reducible apply kept_foldl | intro _
    | split

theorem State.onColl_kept {s0 s : State} (h : s0.Kept s) (g : ℕ) (seq : ℕ) (k : Coll → CollOp → State) (h_k : ∀ c d, s0.Kept (k c d)) :
    s0.Kept (State.onColl s g seq k) := by
  unfold State.onColl
  try dsimp only
  repeat' first
    | with_reducible assumption | exact h_k _ _ | intro _ | split

theorem State.sendColl_kept {s0 s : State} (h : s0.Kept s) (g : ℕ) (e : Group) (c : Coll) (rank : ℕ) (type : ℕ) (chunk : ℕ) (bs : List Byte) :
    s0.Kept (State.sendColl s g e c rank type chunk bs) := by
  unfold State.sendColl
  try dsimp only
  repeat' first
    | with_reducible assumption | with_reducible apply State.originate_kept | with_reducible apply State.raiseColl_kept | split

theorem State.withRead_kept {s0 s : State} (h : s0.Kept s) {α : Type} (g : ℕ) (seq : ℕ) (r : Got α) (k : α → State → State) (h_r : s0.Kept r.2) (h_k : ∀ x s, s0.Kept s → s0.Kept (k x s)) :
    s0.Kept (State.withRead s g seq r k) := by
  unfold State.withRead
  try dsimp only
  repeat' first
    | with_reducible assumption | with_reducible apply h_k | with_reducible apply State.raiseColl_kept | intro _ | split

theorem Got.andThen_kept {s0 s : State} (h : s0.Kept s) {α : Type} {β : Type} (r : Got α) (k : α → State → Got β) (h_r : s0.Kept r.2) (h_k : ∀ x s, s0.Kept s → s0.Kept (k x s).2) :
    s0.Kept (Got.andThen s r k).2 := by
  unfold Got.andThen
  try dsimp only
  repeat' first
    | with_reducible assumption | with_reducible apply h_k | intro _ | split

theorem Got.each_kept {s0 s : State} (h : s0.Kept s) {α β : Type} (f : α → State → Got β) (xs : List α) (h_f : ∀ x s, s0.Kept s → s0.Kept (f x s).2) : s0.Kept (Got.each f xs s).2 := by
  induction xs generalizing s with
  | nil => exact h
  | cons x xs ih =>
    exact Got.andThen_kept h _ _ (h_f x s h) fun y u hu => Got.andThen_kept hu _ _ (ih hu) fun _ _ hv => hv

theorem State.readSpan_kept {s0 s : State} (h : s0.Kept s) (q : ℕ) (isSeal : Bool) (copy : Bool) (a : ℕ) (n : ℕ) :
    s0.Kept (State.readSpan s q isSeal copy a n).2 := by
  unfold State.readSpan
  try dsimp only
  repeat' first
    | with_reducible assumption | with_reducible apply State.meet_kept | with_reducible apply State.chargeSpan_kept
    | (with_reducible eapply kept_pair; with_reducible assumption) | split

theorem State.gather_kept {s0 s : State} (h : s0.Kept s) (t : TileId) (au : Auth) (k va n : ℕ) : s0.Kept (State.gather s t au k va n).2 := by
  induction k generalizing s va n with
  | zero => exact h
  | succ k ih =>
    unfold State.gather
    split
    · exact h
    dsimp only
    split
    · exact h
    split
    · exact h
    split
    · exact h
    have hr := fun q a m => State.readSpan_kept h q false false a m
    split <;> rename_i e <;> have hu := kept_pair e (hr _ _ _)
    · exact hu
    · exact Got.andThen_kept h _ _ (ih hu _ _) fun _ _ hv => hv

theorem State.readFor_kept {s0 s : State} (h : s0.Kept s) (i : Issuer) (va : ℕ) (n : ℕ) : s0.Kept (State.readFor s i va n).2 := by
  unfold State.readFor
  try dsimp only
  repeat' first
    | with_reducible assumption | with_reducible apply State.gather_kept

theorem State.sendChunks_kept {s0 s : State} (h : s0.Kept s) (g : ℕ) (e : Group) (c : Coll) (rank : ℕ) (type : ℕ) (bs : List Byte) :
    s0.Kept (State.sendChunks s g e c rank type bs) := by
  unfold State.sendChunks
  try dsimp only
  repeat' first
    | with_reducible assumption | with_reducible apply State.sendColl_kept | with_reducible apply kept_foldl | intro _

theorem State.arrived_kept {s0 s : State} (h : s0.Kept s) (g : ℕ) (seq : ℕ) (as : List Arrival) : s0.Kept (State.arrived s g seq as) := by
  unfold State.arrived
  try dsimp only
  repeat' first
    | with_reducible assumption | with_reducible apply State.updColl_kept | split

theorem State.contribute_kept {s0 s : State} (h : s0.Kept s) (g : ℕ) (e : Group) (c : Coll) (d : CollOp) :
    s0.Kept (State.contribute s g e c d) := by
  unfold State.contribute
  try dsimp only
  repeat' first
    | with_reducible assumption | with_reducible apply State.updColl_kept | with_reducible apply State.sendColl_kept
    | with_reducible apply State.withRead_kept | with_reducible apply Got.each_kept | with_reducible apply State.readFor_kept
    | with_reducible apply State.sendChunks_kept | with_reducible apply State.arrived_kept | with_reducible apply kept_foldl
    | (with_reducible eapply kept_pair; with_reducible assumption) | intro _ | split

theorem State.distribute_kept {s0 s : State} (h : s0.Kept s) (g : ℕ) (e : Group) (c : Coll) (d : CollOp) (k : ℕ) (vals : List ℕ) :
    s0.Kept (State.distribute s g e c d k vals) := by
  unfold State.distribute
  try dsimp only
  repeat' first
    | with_reducible assumption | with_reducible apply State.sendColl_kept | with_reducible apply State.arrived_kept
    | with_reducible apply kept_foldl | intro _ | split

theorem State.advanceChunk_kept {s0 s : State} (h : s0.Kept s) (g : ℕ) (e : Group) (c : Coll) (d : CollOp) (p : Partial) :
    s0.Kept (State.advanceChunk s g e c d p) := by
  unfold State.advanceChunk
  try dsimp only
  repeat' first
    | with_reducible assumption | with_reducible apply State.updColl_kept | with_reducible apply State.sendColl_kept
    | with_reducible apply State.distribute_kept | split

theorem State.sendBlocks_kept {s0 s : State} (h : s0.Kept s) (g : ℕ) (e : Group) (c : Coll) : s0.Kept (State.sendBlocks s g e c) := by
  unfold State.sendBlocks
  try dsimp only
  repeat' first
    | with_reducible assumption | with_reducible apply State.updColl_kept | with_reducible apply State.raiseColl_kept
    | with_reducible apply State.withRead_kept | with_reducible apply Got.andThen_kept | with_reducible apply Got.each_kept
    | with_reducible apply State.readFor_kept | with_reducible apply State.sendChunks_kept | with_reducible apply State.arrived_kept
    | with_reducible apply kept_foldl | (with_reducible eapply kept_pair; with_reducible assumption) | intro _ | split

theorem State.scatter_kept {s0 s : State} (h : s0.Kept s) (t : TileId) (au : Auth) (k va : ℕ) (bs : List Byte) : s0.Kept (State.scatter s t au k va bs).2 := by
  induction k generalizing s va bs with
  | zero => exact h
  | succ k ih =>
    unfold State.scatter
    split
    · exact h
    dsimp only
    split
    · exact h
    split
    · exact h
    split
    · exact h
    have hr := fun q a bs => State.writeSpan_kept h q false false a bs
    split <;> rename_i e <;> have hu := kept_pair e (hr _ _ _)
    · exact hu
    · exact Got.andThen_kept h _ _ (ih hu _ _) fun _ _ hv => hv

theorem State.writeFor_kept {s0 s : State} (h : s0.Kept s) (i : Issuer) (va : ℕ) (bs : List Byte) :
    s0.Kept (State.writeFor s i va bs).2 := by
  unfold State.writeFor
  try dsimp only
  repeat' first
    | with_reducible assumption | with_reducible apply State.scatter_kept

theorem State.place_kept {s0 s : State} (h : s0.Kept s) (g : ℕ) (e : Group) (c : Coll) (d : CollOp) (key : ℕ × ℕ) (off : ℕ) (bs : List Byte) :
    s0.Kept (State.place s g e c d key off bs) := by
  unfold State.place
  try dsimp only
  repeat' first
    | with_reducible assumption | with_reducible apply State.updColl_kept | with_reducible apply State.raiseColl_kept
    | with_reducible apply Got.each_kept | with_reducible apply State.writeFor_kept
    | (with_reducible eapply kept_pair; with_reducible assumption) | intro _ | split

theorem State.placeResult_kept {s0 s : State} (h : s0.Kept s) (g : ℕ) (e : Group) (c : Coll) (d : CollOp) (k : ℕ) (vals : List ℕ) :
    s0.Kept (State.placeResult s g e c d k vals) := by
  unfold State.placeResult
  try dsimp only
  repeat' first
    | with_reducible assumption | with_reducible apply State.place_kept | split

theorem State.placeArrivals_kept {s0 s : State} (h : s0.Kept s) (g : ℕ) (e : Group) (c : Coll) (d : CollOp) :
    s0.Kept (State.placeArrivals s g e c d) := by
  unfold State.placeArrivals
  try dsimp only
  repeat' first
    | with_reducible assumption | with_reducible apply State.place_kept | with_reducible apply State.placeResult_kept
    | with_reducible apply kept_foldl | intro _ | split

theorem State.advanceColl_kept {s0 s : State} (h : s0.Kept s) (g : ℕ) : s0.Kept (State.advanceColl s g) := by
  unfold State.advanceColl
  try dsimp only
  repeat' first
    | with_reducible assumption | with_reducible apply State.onColl_kept | with_reducible apply State.contribute_kept
    | with_reducible apply State.advanceChunk_kept | with_reducible apply State.sendBlocks_kept
    | with_reducible apply State.placeArrivals_kept | with_reducible apply kept_foldl | intro _ | split

theorem State.dropPkt_kept {s0 s : State} (h : s0.Kept s) (e : ℕ) : s0.Kept (State.dropPkt s e) := by
  unfold State.dropPkt
  try dsimp only
  repeat' first
    | with_reducible assumption | with_reducible apply State.setEth_kept

theorem State.replyClear_kept {s0 s : State} (h : s0.Kept s) (c : Hdr) (op : ℕ) (status : ℕ) (tlvs : List Tlv) :
    s0.Kept (State.replyClear s c op status tlvs) := by
  unfold State.replyClear
  try dsimp only
  repeat' first
    | with_reducible assumption | with_reducible apply State.send_kept

theorem State.badTag_kept {s0 s : State} (h : s0.Kept s) (e : ℕ) : s0.Kept (State.badTag s e) := by
  unfold State.badTag
  try dsimp only
  repeat' first
    | with_reducible assumption | with_reducible apply State.setEth_kept

theorem State.joinPart_kept {s0 s : State} (h : s0.Kept s) (c : Hdr) (op : ℕ) : s0.Kept (State.joinPart s c op).2 := by
  unfold State.joinPart
  try dsimp only
  repeat' first
    | with_reducible assumption | with_reducible apply State.dropPkt_kept | fail_if_no_progress with_reducible apply kept_mk | split

theorem State.endBulk_kept {s0 s : State} (h : s0.Kept s) (b : Bulk) (status : ℕ) (det : ℕ) (tlvs : List Tlv) :
    s0.Kept (State.endBulk s b status det tlvs) := by
  unfold State.endBulk
  try dsimp only
  repeat' first
    | with_reducible assumption | with_reducible apply State.send_kept | with_reducible apply State.finishWhere_kept
    | fail_if_no_progress with_reducible apply kept_mk | split

theorem State.closeSession_kept {s0 s : State} (h : s0.Kept s) (id : ℕ) : s0.Kept (State.closeSession s id) := by
  unfold State.closeSession
  try dsimp only
  repeat' first
    | with_reducible assumption | with_reducible apply State.setSession_kept | with_reducible apply State.endBulk_kept
    | with_reducible apply kept_foldl | intro _ | fail_if_no_progress with_reducible apply kept_mk

theorem State.repeated_kept {s0 s : State} (h : s0.Kept s) (x : Session) (c : Hdr) (op : ℕ) : s0.Kept (State.repeated s x c op) := by
  unfold State.repeated
  try dsimp only
  repeat' first
    | with_reducible assumption | with_reducible apply State.send_kept | with_reducible apply State.dropPkt_kept | split

theorem State.runCommand_kept {s0 s : State} (c : Hdr) (op : ℕ) (r : Res) (h_r : r.Keeps s0) : s0.Kept (State.runCommand s c op r) := by
  cases r with
  | done st tlvs s => exact State.reply_kept h_r _ _ _ _ _ _ _ _
  | pend st tlvs w s => exact State.reply_kept (kept_mk h_r) _ _ _ _ _ _ _ _
  | both a ft b tlvs s => exact State.finish_kept (State.reply_kept (kept_mk h_r) _ _ _ _ _ _ _ _) _ _ _

theorem State.accepted_kept {s0 s : State} (h : s0.Kept s) (c : Hdr) (op : ℕ) (run : State → Session → Res) (h_run : ∀ s x, s0.Kept s → (run s x).Keeps s0) : s0.Kept (State.accepted s c op run) := by
  unfold State.accepted
  repeat' first
    | with_reducible assumption
    | with_reducible apply State.reply_kept
    | exact State.runCommand_kept _ _ _ (h_run _ _ h)
    | split

theorem State.command_kept {s0 s : State} (h : s0.Kept s) (c : Hdr) (op : ℕ) (run : State → Session → Res) (h_run : ∀ s x, s0.Kept s → (run s x).Keeps s0) :
    s0.Kept (State.command s c op run) := by
  unfold State.command
  try dsimp only
  repeat' first
    | with_reducible assumption | with_reducible apply h_run | with_reducible apply State.setSession_kept
    | with_reducible apply State.reply_kept | with_reducible apply State.dropPkt_kept | with_reducible apply State.replyClear_kept
    | with_reducible apply State.badTag_kept | with_reducible apply State.joinPart_kept | with_reducible apply State.closeSession_kept
    | with_reducible apply State.repeated_kept | with_reducible apply State.accepted_kept
    | (with_reducible eapply kept_pair; with_reducible assumption) | intro _ | split

theorem State.zeroBytes_kept {s0 s : State} (h : s0.Kept s) (a n : ℕ) : s0.Kept (s.zeroBytes a n) :=
  ⟨h.1, fun w => Sparse.wf_clear _ _ (h.2 w)⟩

theorem State.chargeOwn_kept {s0 s : State} (h : s0.Kept s) (g : ℕ) (n : ℕ) (k : ℕ) : s0.Kept (State.chargeOwn s g n k) := by
  unfold State.chargeOwn
  try dsimp only
  repeat' first
    | with_reducible assumption | with_reducible apply State.setStack_kept | with_reducible apply kept_foldl | intro _

theorem State.operandFault_kept {s0 s : State} (h : s0.Kept s) (a : At) (code : ℕ) (check : ℕ) (wreg : ℕ) (addr : Word) :
    s0.Kept (State.operandFault s a code check wreg addr) := by
  unfold State.operandFault
  try dsimp only
  repeat' first
    | with_reducible assumption | with_reducible apply State.updStrand_kept | with_reducible apply State.raiseAt_kept

theorem State.operandIllegal_kept {s0 s : State} (h : s0.Kept s) (a : At) : s0.Kept (State.operandIllegal s a) := by
  unfold State.operandIllegal
  try dsimp only
  repeat' first
    | with_reducible assumption | with_reducible apply State.operandFault_kept

theorem State.operandDone_kept {s0 s : State} (h : s0.Kept s) (a : At) : s0.Kept (State.operandDone s a) := by
  unfold State.operandDone
  try dsimp only
  repeat' first
    | with_reducible assumption | with_reducible apply State.updStrand_kept

theorem State.setGroup_kept {s0 s : State} (h : s0.Kept s) (g : ℕ) (x : Option Group) : s0.Kept (State.setGroup s g x) := by
  unfold State.setGroup
  try dsimp only
  repeat' first
    | with_reducible assumption | fail_if_no_progress with_reducible apply kept_mk

theorem State.finishGroup_kept {s0 s : State} (h : s0.Kept s) (a : At) (wreg : ℕ) (w : Warrant) (bs : List Byte) :
    s0.Kept (State.finishGroup s a wreg w bs) := by
  unfold State.finishGroup
  try dsimp only
  repeat' first
    | with_reducible assumption | with_reducible apply State.operandFault_kept | with_reducible apply State.operandIllegal_kept
    | with_reducible apply State.operandDone_kept | with_reducible apply State.setGroup_kept | split

theorem State.installGroups_kept {s0 s : State} (h : s0.Kept s) (q : ℕ) (es : List (ℕ × Group)) : s0.Kept (State.installGroups s q es) := by
  unfold State.installGroups
  try dsimp only
  repeat' first
    | with_reducible assumption | with_reducible apply State.setGroup_kept | with_reducible apply kept_foldl | intro _ | split

theorem State.performRemote_kept {s0 s : State} (h : s0.Kept s) (p : SPacket) : s0.Kept (State.performRemote s p).2.2 := by
  unfold State.performRemote
  try dsimp only
  repeat' first
    | with_reducible assumption | with_reducible apply State.chargeSpan_kept | with_reducible apply State.writeBytes_kept
    | with_reducible apply State.writeSpan_kept | with_reducible apply State.readSpan_kept
    | (with_reducible eapply kept_pair; with_reducible assumption) | split

theorem State.lostRank_kept {s0 s : State} (h : s0.Kept s) (e : Group) (h2 : GroupHold) : s0.Kept (State.lostRank s e h2).2 := by
  unfold State.lostRank
  try dsimp only
  repeat' first
    | with_reducible assumption | with_reducible apply State.takeFree_kept | (with_reducible eapply kept_pair; with_reducible assumption)
    | split

theorem State.join_kept {s0 s : State} (h : s0.Kept s) (g : ℕ) (seq : ℕ) (d : CollOp) (i : Issuer) : s0.Kept (State.join s g seq d i) := by
  unfold State.join
  try dsimp only
  repeat' first
    | with_reducible assumption | with_reducible apply State.openColl_kept | with_reducible apply State.updColl_kept
    | with_reducible apply State.raiseColl_kept | with_reducible apply State.advanceColl_kept | split

theorem State.finishColl_kept {s0 s : State} (h : s0.Kept s) (a : At) (wreg : ℕ) (w : Warrant) (bs : List Byte) :
    s0.Kept (State.finishColl s a wreg w bs) := by
  unfold State.finishColl
  try dsimp only
  repeat' first
    | with_reducible assumption | with_reducible apply State.operandFault_kept | with_reducible apply State.operandIllegal_kept
    | with_reducible apply State.operandDone_kept | with_reducible apply State.lostRank_kept | with_reducible apply State.join_kept
    | (with_reducible eapply State.completion_kept; rotate_left; with_reducible assumption)
    | (with_reducible eapply kept_pair; with_reducible assumption) | split

theorem State.settleEth_kept {s0 s : State} (h : s0.Kept s) : s0.Kept (State.settleEth s) := by
  unfold State.settleEth
  try dsimp only
  repeat' first
    | with_reducible assumption | with_reducible apply State.finish_kept | with_reducible apply kept_foldl | intro _ | split

theorem State.arrive_kept {s0 s : State} (h : s0.Kept s) (p : ℕ) (lane : ℕ) (cls : Bool) (pk : SPacket) :
    s0.Kept (State.arrive s p lane cls pk) := by
  unfold State.arrive
  try dsimp only
  repeat' first
    | with_reducible assumption | with_reducible apply State.payEnergy_kept | with_reducible apply State.count_kept
    | with_reducible apply State.setPort_kept | with_reducible apply State.originate_kept | with_reducible apply State.passOn_kept
    | with_reducible apply State.freeBlocks_kept | with_reducible apply State.countBad_kept
    | fail_if_no_progress with_reducible apply kept_mk | split

theorem State.sectorFault_kept {s0 s : State} (h : s0.Kept s) (a : At) (need : Need) (code : ℕ) (check : ℕ) (wreg : ℕ) (v : Word) :
    s0.Kept (State.sectorFault s a need code check wreg v) := by
  unfold State.sectorFault
  try dsimp only
  repeat' first
    | with_reducible assumption | with_reducible apply State.raiseAt_kept

theorem State.startOperand_kept {s0 s : State} (h : s0.Kept s) (a : At) (kind : LoadKind) (n : ℕ) (ps : List (Word × ℕ × Xlate)) :
    s0.Kept (State.startOperand s a kind n ps) := by
  unfold State.startOperand
  try dsimp only
  repeat' first
    | with_reducible assumption | with_reducible apply State.updStrand_kept

theorem State.finishTransfer_kept {s0 s : State} (h : s0.Kept s) (a : At) (w : Warrant) (bs : List Byte) :
    s0.Kept (State.finishTransfer s a w bs) := by
  unfold State.finishTransfer
  try dsimp only
  repeat' first
    | with_reducible assumption | with_reducible apply State.takeTag_kept | with_reducible apply State.endTransfer_kept
    | with_reducible apply State.operandFault_kept | with_reducible apply State.operandIllegal_kept
    | with_reducible apply State.operandDone_kept | (with_reducible eapply kept_pair; with_reducible assumption)
    | fail_if_no_progress with_reducible apply kept_mk | split

theorem State.driftDue_kept {s0 s : State} (h : s0.Kept s) (m : ℕ) : s0.Kept (State.driftDue s m) := by
  unfold State.driftDue
  try dsimp only
  repeat' first
    | with_reducible assumption | with_reducible apply State.setChan_kept | with_reducible apply kept_foldl | intro _ | split

theorem State.pauseRestripe_kept {s0 s : State} (h : s0.Kept s) : s0.Kept (State.pauseRestripe s) := by
  unfold State.pauseRestripe
  try dsimp only
  repeat' first
    | with_reducible assumption | fail_if_no_progress with_reducible apply kept_mk | fail_if_no_progress with_reducible apply kept_mem
    | split

theorem State.setRole_kept {s0 s : State} (h : s0.Kept s) (id : ℕ) (r : Role) : s0.Kept (State.setRole s id r) := by
  unfold State.setRole
  try dsimp only
  repeat' first
    | with_reducible assumption | with_reducible apply State.setSession_kept | split

theorem State.abortColl_kept {s0 s : State} (h : s0.Kept s) (g : ℕ) (seq : ℕ) (status : ℕ) (rank : ℕ) :
    s0.Kept (State.abortColl s g seq status rank) := by
  unfold State.abortColl
  try dsimp only
  repeat' first
    | with_reducible assumption | with_reducible apply State.stopColl_kept | split

theorem State.timeFor_kept {s0 s : State} (h : s0.Kept s) (a : ℕ) : s0.Kept (State.timeFor s a) := by
  unfold State.timeFor
  try dsimp only
  repeat' first
    | with_reducible assumption | with_reducible apply State.readBeats_kept | with_reducible apply State.readTicks_kept
    | (with_reducible eapply kept_pair; with_reducible assumption) | split

theorem State.zeroRegion_kept {s0 s : State} (h : s0.Kept s) (i : ℕ) : s0.Kept (State.zeroRegion s i) := by
  unfold State.zeroRegion
  try dsimp only
  repeat' first
    | with_reducible assumption | with_reducible apply State.zeroBytes_kept

theorem State.failPort_kept {s0 s : State} (h : s0.Kept s) (p : ℕ) (why : ℕ) : s0.Kept (State.failPort s p why) := by
  unfold State.failPort
  try dsimp only
  repeat' first
    | with_reducible assumption | with_reducible apply State.setPort_kept | with_reducible apply State.enqueue_kept
    | with_reducible apply State.alarm_kept | with_reducible apply State.watchRisk_kept | with_reducible apply State.noRoute_kept
    | with_reducible apply State.raiseColl_kept | with_reducible apply kept_foldl | intro _ | split

theorem State.chargeMove_kept {s0 s : State} (h : s0.Kept s) (w : ℕ) (n : ℕ) : s0.Kept (State.chargeMove s w n) := by
  unfold State.chargeMove
  try dsimp only
  repeat' first
    | with_reducible assumption | with_reducible apply State.setStack_kept | with_reducible apply kept_foldl | intro _
    | fail_if_no_progress with_reducible apply kept_mk | fail_if_no_progress with_reducible apply kept_mem

theorem State.endRestripe_kept {s0 s : State} (h : s0.Kept s) : s0.Kept (State.endRestripe s) := by
  unfold State.endRestripe
  try dsimp only
  repeat' first
    | with_reducible assumption | with_reducible apply State.setChan_kept | with_reducible apply State.watchRisk_kept
    | with_reducible apply State.nextRestripe_kept | fail_if_no_progress with_reducible apply kept_mk
    | fail_if_no_progress with_reducible apply kept_mem | split

theorem State.helloOn_kept {s0 s : State} (h : s0.Kept s) (c : Hdr) (p : HelloReq) : s0.Kept (State.helloOn s c p) := by
  unfold State.helloOn
  try dsimp only
  repeat' first
    | with_reducible assumption | with_reducible apply State.takeFree_kept | with_reducible apply State.setSession_kept
    | with_reducible apply State.dropPkt_kept | with_reducible apply State.replyClear_kept | with_reducible apply State.joinPart_kept
    | (with_reducible eapply kept_pair; with_reducible assumption) | fail_if_no_progress with_reducible apply kept_mk | split

theorem State.scribble_kept {s0 s : State} (h : s0.Kept s) (i : Issuer) (n : ℕ) : s0.Kept (State.scribble s i n) := by
  unfold State.scribble
  try dsimp only
  repeat' first
    | with_reducible assumption | with_reducible apply State.writeFor_kept | (with_reducible eapply kept_pair; with_reducible assumption)
    | fail_if_no_progress with_reducible apply kept_mk | split

theorem State.completions_kept {s0 s : State} (h : s0.Kept s) (status rank seq : ℕ) (is : List Issuer) {u : State} (e : State.completions s status rank seq is = some u) : s0.Kept u := by
  induction is generalizing s with
  | nil => cases e; exact h
  | cons i is ih =>
    obtain ⟨v, hv, e⟩ := Option.bind_eq_some_iff.mp e
    exact ih (State.completion_kept h _ _ _ _ _ _ _ _ hv) e

theorem State.leaveColl_kept {s0 s : State} (h : s0.Kept s) (g : ℕ) (e : Group) (c : Coll) (status : ℕ) (rank : ℕ) :
    s0.Kept (State.leaveColl s g e c status rank) := by
  unfold State.leaveColl
  try dsimp only
  repeat' first
    | with_reducible assumption | with_reducible apply State.count_kept | with_reducible apply State.advanceColl_kept
    | with_reducible apply State.setGroup_kept | (with_reducible eapply State.completions_kept; rotate_left; with_reducible assumption)
    | fail_if_no_progress with_reducible apply kept_mk | split

theorem State.writeLengths_kept {s0 s : State} (h : s0.Kept s) (e : Group) (c : Coll) : s0.Kept (State.writeLengths s e c).2 := by
  unfold State.writeLengths
  try dsimp only
  repeat' first
    | with_reducible assumption | with_reducible apply Got.andThen_kept | with_reducible apply Got.each_kept
    | with_reducible apply State.writeFor_kept | (with_reducible eapply kept_pair; with_reducible assumption) | intro _ | split

theorem State.endColl_kept {s0 s : State} (h : s0.Kept s) (g : ℕ) : s0.Kept (State.endColl s g) := by
  unfold State.endColl
  try dsimp only
  repeat' first
    | with_reducible assumption | with_reducible apply State.withRead_kept | with_reducible apply State.scribble_kept
    | with_reducible apply State.leaveColl_kept | with_reducible apply State.writeLengths_kept | with_reducible apply kept_foldl
    | (with_reducible eapply kept_pair; with_reducible assumption) | intro _ | split

theorem State.enterTailband_kept {s0 s : State} (h : s0.Kept s) (p : MPacket) : s0.Kept (State.enterTailband s p) := by
  unfold State.enterTailband
  try dsimp only
  repeat' first
    | with_reducible assumption | with_reducible apply State.setChan_kept | with_reducible apply State.setStack_kept | split

theorem State.chargeBody_kept {s0 s : State} (h : s0.Kept s) (m : ℕ) (q : ℕ) (b : Body) : s0.Kept (State.chargeBody s m q b) := by
  unfold State.chargeBody
  try dsimp only
  repeat' first
    | with_reducible assumption | with_reducible apply State.payEnergy_kept | with_reducible apply State.count_kept
    | with_reducible apply State.setStack_kept

theorem State.writeMasked_kept {s0 s : State} (h : s0.Kept s) (a : ℕ) (m : BitVec 64) (bs : List Byte) :
    s0.Kept (State.writeMasked s a m bs) := by
  unfold State.writeMasked
  try dsimp only
  repeat' first
    | with_reducible assumption | with_reducible apply State.writeBytes_kept | with_reducible apply kept_foldl | intro _ | split

theorem State.performBody_kept {s0 s : State} (h : s0.Kept s) (b : Body) : s0.Kept (State.performBody s b).2 := by
  unfold State.performBody
  try dsimp only
  repeat' first
    | with_reducible assumption | with_reducible apply State.writeBytes_kept | with_reducible apply State.writeMasked_kept | split

theorem State.perform_kept {s0 s : State} (h : s0.Kept s) (q : ℕ) (isSeal : Bool) (copy : Bool) (b : Body) :
    s0.Kept (State.perform s q isSeal copy b).2 := by
  unfold State.perform
  try dsimp only
  repeat' first
    | with_reducible assumption | with_reducible apply State.meet_kept | with_reducible apply State.performBody_kept
    | (with_reducible eapply kept_pair; with_reducible assumption) | split

theorem State.serve_kept {s0 s : State} (h : s0.Kept s) (c : ℕ) (i : ℕ) (p : MPacket) : s0.Kept (State.serve s c i p) := by
  unfold State.serve
  try dsimp only
  repeat' first
    | with_reducible assumption | with_reducible apply State.setChan_kept | with_reducible apply State.enterTailband_kept
    | with_reducible apply State.chargeBody_kept | with_reducible apply State.perform_kept
    | (with_reducible eapply kept_pair; with_reducible assumption) | fail_if_no_progress with_reducible apply kept_mk | split

theorem State.endWalk_kept {s0 s : State} (h : s0.Kept s) (t1 : TileId) (w : Walk) (e : TlbEntry) : s0.Kept (State.endWalk s t1 w e) := by
  unfold State.endWalk
  try dsimp only
  repeat' first
    | with_reducible assumption | with_reducible apply State.updTile_kept | with_reducible apply State.takeFree_kept
    | with_reducible apply State.prefetchLine_kept | with_reducible apply kept_foldl
    | (with_reducible eapply kept_pair; with_reducible assumption) | intro _ | split

theorem State.enableEth_kept {s0 s : State} (h : s0.Kept s) (e : ℕ) : s0.Kept (State.enableEth s e) := by
  unfold State.enableEth
  try dsimp only
  repeat' first
    | with_reducible assumption | with_reducible apply State.setEth_kept | split

theorem State.disablePort_kept {s0 s : State} (h : s0.Kept s) (p : ℕ) : s0.Kept (State.disablePort s p) := by
  unfold State.disablePort
  try dsimp only
  repeat' first
    | with_reducible assumption | with_reducible apply State.setPort_kept | split

theorem State.failWalk_kept {s0 s : State} (h : s0.Kept s) (t1 : TileId) (w : Walk) (code : ℕ) (check : ℕ) (leaf : Option TlbEntry) :
    s0.Kept (State.failWalk s t1 w code check leaf) := by
  unfold State.failWalk
  try dsimp only
  repeat' first
    | with_reducible assumption | with_reducible apply State.updTile_kept | split

theorem State.enablePort_kept {s0 s : State} (h : s0.Kept s) (p : ℕ) : s0.Kept (State.enablePort s p) := by
  unfold State.enablePort
  try dsimp only
  repeat' first
    | with_reducible assumption | with_reducible apply State.setPort_kept | split

theorem State.disableEth_kept {s0 s : State} (h : s0.Kept s) (e : ℕ) : s0.Kept (State.disableEth s e) := by
  unfold State.disableEth
  try dsimp only
  repeat' first
    | with_reducible assumption | with_reducible apply State.setEth_kept | split

theorem State.startLive_kept {s0 s : State} (h : s0.Kept s) (p : ℕ) : s0.Kept (State.startLive s p) := by
  unfold State.startLive
  try dsimp only
  repeat' first
    | with_reducible assumption | with_reducible apply State.setPort_kept | with_reducible apply State.risk_kept | split

theorem State.trace_kept {s0 s : State} (h : s0.Kept s) (n : ℕ) : s0.Kept (State.trace s n) := by
  unfold State.trace
  try dsimp only
  repeat' first
    | with_reducible assumption | with_reducible apply State.notify_kept | fail_if_no_progress with_reducible apply kept_mk | split

theorem State.acceptBlocks_kept {s0 s : State} (h : s0.Kept s) (p : ℕ) (bs : List Block) : s0.Kept (State.acceptBlocks s p bs) := by
  unfold State.acceptBlocks
  try dsimp only
  repeat' first
    | with_reducible assumption | with_reducible apply State.arrive_kept | with_reducible apply kept_foldl | intro _ | split

theorem State.askPiece_kept {s0 s : State} (h : s0.Kept s) (x : Transfer) (type : ℕ) (addr : ℕ) (n : ℕ) (bs : List Byte) :
    s0.Kept (State.askPiece s x type addr n bs) := by
  unfold State.askPiece
  try dsimp only
  repeat' first
    | with_reducible assumption | with_reducible apply State.originate_kept | with_reducible apply State.takeTag_kept
    | with_reducible apply State.setTransfer_kept | with_reducible apply State.endTransfer_kept
    | (with_reducible eapply kept_pair; with_reducible assumption) | split

theorem State.remoteAnswer_kept {s0 s : State} (h : s0.Kept s) (p : SPacket) : s0.Kept (State.remoteAnswer s p).2.2 := by
  unfold State.remoteAnswer
  try dsimp only
  repeat' first
    | with_reducible assumption | with_reducible apply State.performRemote_kept
    | (with_reducible eapply kept_pair; with_reducible assumption) | split

theorem State.copyArrived_kept {s0 s : State} (h : s0.Kept s) (q : ℕ) (n : ℕ) : s0.Kept (State.copyArrived s q n) := by
  unfold State.copyArrived
  try dsimp only
  repeat' first
    | with_reducible assumption | with_reducible apply State.setQuire_kept | with_reducible apply State.takeFree_kept
    | with_reducible apply State.setRegion_kept | with_reducible apply State.sendSpine_kept | with_reducible apply kept_foldl
    | (with_reducible eapply kept_pair; with_reducible assumption) | intro _ | split

end Sys2Proof.Machine
end

