-- ==== Sys2Proof/Laws/KeptSpine.lean ====
section
/-! SUPPORT. What keeps the queue and the canonical form of memory: bulk transfers, energy, quires, the Spine, survival, boot. One lemma for each function that
gives a state. -/

namespace Sys2Proof.Machine

theorem State.tileWrite_kept {s0 s : State} (h : s0.Kept s) (t1 : TileId) (off : ℕ) (v : Word) : s0.Kept (State.tileWrite s t1 off v) := by
  unfold State.tileWrite
  try dsimp only
  repeat' first
    | with_reducible assumption | with_reducible apply State.updTile_kept | split

theorem State.closeBulk_kept {s0 s : State} (h : s0.Kept s) (b : Bulk) (status : ℕ) (det : ℕ) :
    s0.Kept (State.closeBulk s b status det) := by
  unfold State.closeBulk
  try dsimp only
  repeat' first
    | with_reducible assumption | with_reducible apply State.finishWhere_kept | fail_if_no_progress with_reducible apply kept_mk

theorem State.sendAll_kept {s0 s : State} (h : s0.Kept s) (t1 : TileId) : s0.Kept (State.sendAll s t1) := by
  unfold State.sendAll
  try dsimp only
  repeat' first
    | with_reducible assumption | with_reducible apply State.sendMerge_kept | with_reducible apply kept_foldl | intro _ | split

theorem State.drainWork_kept {s0 s : State} (h : s0.Kept s) (t1 : TileId) : s0.Kept (State.drainWork s t1) := by
  unfold State.drainWork
  try dsimp only
  repeat' first
    | with_reducible assumption | with_reducible apply State.updTile_kept | with_reducible apply State.sendAll_kept | split

theorem State.cleanTile_kept {s0 s : State} (h : s0.Kept s) (t1 : TileId) : s0.Kept (State.cleanTile s t1) := by
  unfold State.cleanTile
  try dsimp only
  repeat' first
    | with_reducible assumption | with_reducible apply State.cleanLine_kept | with_reducible apply kept_foldl | intro _

theorem State.setUpTile_kept {s0 s : State} (h : s0.Kept s) (t1 : TileId) (q : ℕ) (header : ℕ) (k : ℕ) (floor : BitVec 16) :
    s0.Kept (State.setUpTile s t1 q header k floor) := by
  unfold State.setUpTile
  try dsimp only
  repeat' first
    | with_reducible assumption | with_reducible apply State.updTile_kept | with_reducible apply State.writeBytes_kept
    | with_reducible apply State.zeroBytes_kept | with_reducible apply kept_foldl | intro _

theorem State.readRecord_kept {s0 s : State} (h : s0.Kept s) (a : At) (va : ℕ) : s0.Kept (State.readRecord s a va).2 := by
  unfold State.readRecord
  try dsimp only
  repeat' first
    | with_reducible assumption | with_reducible apply State.readSpan_kept | (with_reducible eapply kept_pair; with_reducible assumption)
    | split

theorem State.startStrand_kept {s0 s : State} (h : s0.Kept s) (a : At) (rec : List Byte) (g4 : Option Word) :
    s0.Kept (State.startStrand s a rec g4) := by
  unfold State.startStrand
  try dsimp only
  repeat' first
    | with_reducible assumption | with_reducible apply State.updTile_kept | with_reducible apply State.updStrand_kept | split

theorem State.rerun_kept {s0 s : State} (h : s0.Kept s) (a : At) : s0.Kept (State.rerun s a) := by
  unfold State.rerun
  try dsimp only
  repeat' first
    | with_reducible assumption | with_reducible apply State.readRecord_kept | with_reducible apply State.startStrand_kept
    | (with_reducible eapply kept_pair; with_reducible assumption) | split

theorem State.finishReset_kept {s0 s : State} (h : s0.Kept s) (t1 : TileId) (q : ℕ) : s0.Kept (State.finishReset s t1 q) := by
  unfold State.finishReset
  try dsimp only
  repeat' first
    | with_reducible assumption | with_reducible apply State.updTile_kept | with_reducible apply State.takeFree_kept
    | with_reducible apply State.post_kept | with_reducible apply State.alarm_kept | with_reducible apply State.risk_kept
    | with_reducible apply State.raiseColl_kept | with_reducible apply State.setUpTile_kept | with_reducible apply State.rerun_kept
    | with_reducible apply kept_foldl | (with_reducible eapply kept_pair; with_reducible assumption) | intro _
    | fail_if_no_progress with_reducible apply kept_mk | split

theorem State.resetWork_kept {s0 s : State} (h : s0.Kept s) (late : Bool) (j : TileJob) : s0.Kept (State.resetWork late s j) := by
  unfold State.resetWork
  try dsimp only
  repeat' first
    | with_reducible assumption | with_reducible apply State.sendAll_kept | with_reducible apply State.cleanTile_kept
    | with_reducible apply State.finishReset_kept | fail_if_no_progress with_reducible apply kept_mk | split

theorem State.loseRegions_kept {s0 s : State} (h : s0.Kept s) (q : ℕ) (rs : List ℕ) : s0.Kept (State.loseRegions s q rs) := by
  unfold State.loseRegions
  try dsimp only
  repeat' first
    | with_reducible assumption | with_reducible apply State.loseRegion_kept | with_reducible apply kept_foldl | intro _ | split

theorem State.plan_kept {s0 s : State} (h : s0.Kept s) (starved : List ℕ) : s0.Kept (State.plan s starved) := by
  unfold State.plan
  try dsimp only
  repeat' first
    | with_reducible assumption | with_reducible apply State.updTile_kept | with_reducible apply State.takeFree_kept
    | with_reducible apply State.post_kept | with_reducible apply State.setIsland_kept | with_reducible apply kept_foldl
    | (with_reducible eapply kept_pair; with_reducible assumption) | intro _ | fail_if_no_progress with_reducible apply kept_mk | split

theorem State.replan_kept {s0 s : State} (h : s0.Kept s) : s0.Kept (State.replan s) := by
  unfold State.replan
  try dsimp only
  repeat' first
    | with_reducible assumption | with_reducible apply State.plan_kept | split

theorem State.endScrub_kept {s0 s : State} (h : s0.Kept s) (q : ℕ) : s0.Kept (State.endScrub s q) := by
  unfold State.endScrub
  try dsimp only
  repeat' first
    | with_reducible assumption | with_reducible apply State.setQuire_kept | with_reducible apply State.finishWhere_kept
    | with_reducible apply State.closeSession_kept | with_reducible apply State.replan_kept | with_reducible apply kept_foldl | intro _
    | fail_if_no_progress with_reducible apply kept_mk | split

theorem State.setRegulators_kept {s0 s : State} (h : s0.Kept s) (q : ℕ) (rate : ℕ) (cap : Bool) :
    s0.Kept (State.setRegulators s q rate cap) := by
  unfold State.setRegulators
  try dsimp only
  repeat' first
    | with_reducible assumption | with_reducible apply State.setStack_kept | with_reducible apply kept_foldl | intro _

theorem State.setRights_kept {s0 s : State} (h : s0.Kept s) (q : ℕ) (rs : List RightReq) : s0.Kept (State.setRights s q rs) := by
  unfold State.setRights
  try dsimp only
  repeat' first
    | with_reducible assumption | with_reducible apply kept_foldl | intro _ | fail_if_no_progress with_reducible apply kept_mk | split

theorem State.beginScrub_kept {s0 s : State} (h : s0.Kept s) (q : ℕ) : s0.Kept (State.beginScrub s q) := by
  unfold State.beginScrub
  try dsimp only
  repeat' first
    | with_reducible assumption | with_reducible apply State.setQuire_kept | with_reducible apply State.updTile_kept
    | with_reducible apply State.takeFree_kept | with_reducible apply State.setRegion_kept | with_reducible apply State.sendSpine_kept
    | with_reducible apply State.setRegulators_kept | with_reducible apply State.setRights_kept | with_reducible apply kept_foldl
    | (with_reducible eapply kept_pair; with_reducible assumption) | intro _ | fail_if_no_progress with_reducible apply kept_mk | split

theorem State.finishDrain_kept {s0 s : State} (h : s0.Kept s) (q : ℕ) (det : ℕ) : s0.Kept (State.finishDrain s q det) := by
  unfold State.finishDrain
  try dsimp only
  repeat' first
    | with_reducible assumption | with_reducible apply State.updQuire_kept | with_reducible apply State.finishWhere_kept
    | with_reducible apply State.loseRegions_kept | with_reducible apply State.endScrub_kept | with_reducible apply State.beginScrub_kept
    | split

theorem State.quireWork_kept {s0 s : State} (h : s0.Kept s) (q : ℕ) : s0.Kept (State.quireWork s q) := by
  unfold State.quireWork
  try dsimp only
  repeat' first
    | with_reducible assumption | with_reducible apply State.updTile_kept | with_reducible apply State.drainWork_kept
    | with_reducible apply State.cleanTile_kept | with_reducible apply State.finishDrain_kept | with_reducible apply kept_foldl | intro _
    | split

theorem State.settleHalts_kept {s0 s : State} (h : s0.Kept s) : s0.Kept (State.settleHalts s) := by
  unfold State.settleHalts
  try dsimp only
  repeat' first
    | with_reducible assumption | with_reducible apply State.finishWhere_kept | split

theorem State.settle_kept {s0 s : State} (h : s0.Kept s) : s0.Kept (State.settle s) := by
  unfold State.settle
  try dsimp only
  repeat' first
    | with_reducible assumption | with_reducible apply State.finish_kept | with_reducible apply State.settleHalts_kept
    | with_reducible apply kept_foldl | intro _ | split

theorem State.beginFreeze_kept {s0 s : State} (h : s0.Kept s) (q : ℕ) (bound : ℕ) (restore : Bool) :
    s0.Kept (State.beginFreeze s q bound restore) := by
  unfold State.beginFreeze
  try dsimp only
  repeat' first
    | with_reducible assumption | with_reducible apply State.updTile_kept | with_reducible apply kept_foldl | intro _
    | fail_if_no_progress with_reducible apply kept_mk

theorem State.copyRegion_kept {s0 s : State} (h : s0.Kept s) (dev : ℕ) (dq : ℕ) (sq : ℕ) (content : Option (ℕ → List Byte)) :
    s0.Kept (State.copyRegion s dev dq sq content) := by
  unfold State.copyRegion
  try dsimp only
  repeat' first
    | with_reducible assumption | with_reducible apply State.originate_kept | with_reducible apply State.takeFree_kept
    | with_reducible apply kept_foldl | (with_reducible eapply kept_pair; with_reducible assumption) | intro _ | split

theorem State.askCopy_kept {s0 s : State} (h : s0.Kept s) (dev : ℕ) (q : ℕ) : s0.Kept (State.askCopy s dev q) := by
  unfold State.askCopy
  try dsimp only
  repeat' first
    | with_reducible assumption | with_reducible apply State.takeFree_kept | with_reducible apply State.sendSpine_kept
    | with_reducible apply State.copyRegion_kept | (with_reducible eapply kept_pair; with_reducible assumption)
    | fail_if_no_progress with_reducible apply kept_mk | split

theorem State.restoreWork_kept {s0 s : State} (h : s0.Kept s) : s0.Kept (State.restoreWork s) := by
  unfold State.restoreWork
  try dsimp only
  repeat' first
    | with_reducible assumption | with_reducible apply State.finishWhere_kept | with_reducible apply State.beginFreeze_kept
    | with_reducible apply State.askCopy_kept | fail_if_no_progress with_reducible apply kept_mk | split

theorem State.runArrays_kept {s0 s : State} (h : s0.Kept s) (t1 : TileId) : s0.Kept (State.runArrays s t1) := by
  unfold State.runArrays
  try dsimp only
  repeat' first
    | with_reducible assumption | with_reducible apply State.updTile_kept | split

theorem State.thaw_kept {s0 s : State} (h : s0.Kept s) (f : Freeze) : s0.Kept (State.thaw s f) := by
  unfold State.thaw
  try dsimp only
  repeat' first
    | with_reducible assumption | with_reducible apply State.updTile_kept | with_reducible apply State.runArrays_kept
    | with_reducible apply kept_foldl | intro _ | fail_if_no_progress with_reducible apply kept_mk | split

theorem State.markDirty_kept {s0 s : State} (h : s0.Kept s) (rs : List ℕ) : s0.Kept (State.markDirty s rs) := by
  unfold State.markDirty
  try dsimp only
  repeat' first
    | with_reducible assumption | with_reducible apply kept_foldl | intro _ | fail_if_no_progress with_reducible apply kept_mk
    | fail_if_no_progress with_reducible apply kept_mem

theorem State.abandonFreeze_kept {s0 s : State} (h : s0.Kept s) : s0.Kept (State.abandonFreeze s) := by
  unfold State.abandonFreeze
  try dsimp only
  repeat' first
    | with_reducible assumption | with_reducible apply State.post_kept | with_reducible apply State.alarm_kept
    | with_reducible apply State.finishWhere_kept | with_reducible apply State.sendSpine_kept | with_reducible apply State.thaw_kept
    | with_reducible apply State.markDirty_kept | fail_if_no_progress with_reducible apply kept_mk | split

theorem State.setStep_kept {s0 s : State} (h : s0.Kept s) (f : Freeze) (step : FreezeStep) : s0.Kept (State.setStep s f step) := by
  unfold State.setStep
  try dsimp only
  repeat' first
    | with_reducible assumption | fail_if_no_progress with_reducible apply kept_mk

theorem State.nameCopy_kept {s0 s : State} (h : s0.Kept s) (q : ℕ) : s0.Kept (State.nameCopy s q).2 := by
  unfold State.nameCopy
  try dsimp only
  repeat' first
    | with_reducible assumption | with_reducible apply State.updQuire_kept | with_reducible apply State.takeFree_kept
    | (with_reducible eapply kept_pair; with_reducible assumption) | split

theorem State.streamMetadata_kept {s0 s : State} (h : s0.Kept s) (dev : ℕ) (dq : ℕ) (q : ℕ) :
    s0.Kept (State.streamMetadata s dev dq q) := by
  unfold State.streamMetadata
  try dsimp only
  repeat' first
    | with_reducible assumption | with_reducible apply State.copyRegion_kept

theorem State.streamMemory_kept {s0 s : State} (h : s0.Kept s) (dev : ℕ) (dq : ℕ) (sq : ℕ) (i : ℕ) :
    s0.Kept (State.streamMemory s dev dq sq i) := by
  unfold State.streamMemory
  try dsimp only
  repeat' first
    | with_reducible assumption | with_reducible apply State.copyRegion_kept | with_reducible apply State.chargeOwn_kept

theorem State.stream_kept {s0 s : State} (h : s0.Kept s) (f : Freeze) : s0.Kept (State.stream s f) := by
  unfold State.stream
  try dsimp only
  repeat' first
    | with_reducible assumption | with_reducible apply State.meet_kept | with_reducible apply State.sendSpine_kept
    | with_reducible apply State.abandonFreeze_kept | with_reducible apply State.nameCopy_kept
    | with_reducible apply State.streamMetadata_kept | with_reducible apply State.streamMemory_kept | with_reducible apply kept_foldl
    | (with_reducible eapply kept_pair; with_reducible assumption) | intro _ | fail_if_no_progress with_reducible apply kept_mk
    | fail_if_no_progress with_reducible apply kept_mem | split

theorem State.freezeWork_kept {s0 s : State} (h : s0.Kept s) : s0.Kept (State.freezeWork s) := by
  unfold State.freezeWork
  try dsimp only
  repeat' first
    | with_reducible assumption | with_reducible apply State.sendAll_kept | with_reducible apply State.cleanTile_kept
    | with_reducible apply State.askCopy_kept | with_reducible apply State.abandonFreeze_kept | with_reducible apply State.setStep_kept
    | with_reducible apply State.stream_kept | with_reducible apply kept_foldl | intro _ | split

theorem State.spineWork_kept {s0 s : State} (h : s0.Kept s) (late : Bool) : s0.Kept (State.spineWork s late) := by
  unfold State.spineWork
  try dsimp only
  repeat' first
    | with_reducible assumption | with_reducible apply State.drainWork_kept | with_reducible apply State.resetWork_kept
    | with_reducible apply State.quireWork_kept | with_reducible apply State.settle_kept | with_reducible apply State.restoreWork_kept
    | with_reducible apply State.freezeWork_kept | with_reducible apply kept_foldl | intro _ | split

theorem State.hostWork_kept {s0 s : State} (h : s0.Kept s) (c : Hdr) (op : ℕ) (run : State → Session → Res) (h_run : ∀ s x, s0.Kept s → (run s x).Keeps s0) :
    s0.Kept (State.hostWork s c op run) := by
  unfold State.hostWork
  try dsimp only
  repeat' first
    | with_reducible assumption | with_reducible apply h_run | with_reducible apply State.command_kept
    | with_reducible apply State.spineWork_kept | intro _

theorem State.checkpointCode_kept {s0 s : State} (h : s0.Kept s) (q : ℕ) (bound : ℕ) : s0.Kept (State.checkpointCode s q bound).2 := by
  unfold State.checkpointCode
  try dsimp only
  repeat' first
    | with_reducible assumption | with_reducible apply State.takeFree_kept | (with_reducible eapply kept_pair; with_reducible assumption)
    | split

theorem State.dropHeldLoad_kept {s0 s : State} (h : s0.Kept s) (a : At) : s0.Kept (State.dropHeldLoad s a) := by
  unfold State.dropHeldLoad
  try dsimp only
  repeat' first
    | with_reducible assumption | with_reducible apply State.updTile_kept | with_reducible apply State.updStrand_kept | split

theorem State.takeHalt_kept {s0 s : State} (h : s0.Kept s) (a : At) : s0.Kept (State.takeHalt s a) := by
  unfold State.takeHalt
  try dsimp only
  repeat' first
    | with_reducible assumption | with_reducible apply State.updStrand_kept | with_reducible apply State.backToVec_kept
    | with_reducible apply State.dropHeldLoad_kept | split

theorem State.assignRegions_kept {s0 s : State} (h : s0.Kept s) (q : ℕ) (rs : List ℕ) (isSeal : Bool) (gen : Bool) :
    s0.Kept (State.assignRegions s q rs isSeal gen) := by
  unfold State.assignRegions
  try dsimp only
  repeat' first
    | with_reducible assumption | with_reducible apply State.setRegion_kept | with_reducible apply kept_foldl | intro _

theorem State.appendLog_kept {s0 s : State} (h : s0.Kept s) (q : ℕ) (e : MeasEntry) : s0.Kept (State.appendLog s q e) := by
  unfold State.appendLog
  try dsimp only
  repeat' first
    | with_reducible assumption | with_reducible apply State.updQuire_kept

theorem State.setFeed_kept {s0 s : State} (h : s0.Kept s) (f : Feed) (x : FeedInfo) : s0.Kept (State.setFeed s f x) := by
  unfold State.setFeed
  try dsimp only
  repeat' first
    | with_reducible assumption | fail_if_no_progress with_reducible apply kept_mk

theorem State.setGood_kept {s0 s : State} (h : s0.Kept s) (f : Feed) (b : Bool) : s0.Kept (State.setGood s f b) := by
  unfold State.setGood
  try dsimp only
  repeat' first
    | with_reducible assumption | with_reducible apply State.setFeed_kept

theorem State.makeKeys_kept {s0 s : State} (h : s0.Kept s) : s0.Kept (State.makeKeys s) := by
  unfold State.makeKeys
  try dsimp only
  repeat' first
    | with_reducible assumption | with_reducible apply State.takeFree_kept | (with_reducible eapply kept_pair; with_reducible assumption)
    | fail_if_no_progress with_reducible apply kept_mk | split

theorem State.flood_kept {s0 s : State} (h : s0.Kept s) (kind : ℕ) (dev : ℕ) (inc : ℕ) : s0.Kept (State.flood s kind dev inc) := by
  unfold State.flood
  try dsimp only
  repeat' first
    | with_reducible assumption | with_reducible apply State.enqueue_kept | with_reducible apply kept_foldl | intro _ | split

theorem State.setFeedState_kept {s0 s : State} (h : s0.Kept s) (st : FeedState) : s0.Kept (State.setFeedState s st) := by
  unfold State.setFeedState
  try dsimp only
  repeat' first
    | with_reducible assumption | fail_if_no_progress with_reducible apply kept_mk

theorem State.switchTo_kept {s0 s : State} (h : s0.Kept s) (f : Feed) : s0.Kept (State.switchTo s f) := by
  unfold State.switchTo
  try dsimp only
  repeat' first
    | with_reducible assumption | with_reducible apply State.alarm_kept | with_reducible apply State.risk_kept
    | with_reducible apply State.replan_kept | fail_if_no_progress with_reducible apply kept_mk

theorem State.setInactive_kept {s0 s : State} (h : s0.Kept s) (f : FwSlot) : s0.Kept (State.setInactive s f) := by
  unfold State.setInactive
  try dsimp only
  repeat' first
    | with_reducible assumption | fail_if_no_progress with_reducible apply kept_mk | split

theorem State.stackWrite_kept {s0 s : State} (h : s0.Kept s) (m : StackId) (off : ℕ) (v : Word) : s0.Kept (State.stackWrite s m off v) := by
  unfold State.stackWrite
  try dsimp only
  repeat' first
    | with_reducible assumption | with_reducible apply State.setRegion_kept | with_reducible apply State.setStack_kept
    | fail_if_no_progress with_reducible apply kept_mk | fail_if_no_progress with_reducible apply kept_mem | split

theorem State.hostWrite_kept {s0 s : State} (h : s0.Kept s) (q n a : ℕ) (bs : List Byte) : s0.Kept (State.hostWrite s q n a bs).2 := by
  induction n generalizing s a bs with
  | zero => exact h
  | succ n ih =>
    unfold State.hostWrite
    split
    · exact h
    have hr := fun b => State.writeSpan_kept h q false false a b
    dsimp only
    split <;> rename_i e <;> have hu := kept_pair e (hr _)
    · exact hu
    · exact ih hu _ _

theorem State.startDrain_kept {s0 s : State} (h : s0.Kept s) (q : ℕ) (releasing : Bool) : s0.Kept (State.startDrain s q releasing) := by
  unfold State.startDrain
  try dsimp only
  repeat' first
    | with_reducible assumption | with_reducible apply State.updQuire_kept | with_reducible apply State.post_kept
    | with_reducible apply State.endTransfer_kept | with_reducible apply State.finishWhere_kept
    | with_reducible apply State.raiseColl_kept | with_reducible apply State.endBulk_kept | with_reducible apply State.abandonFreeze_kept
    | with_reducible apply kept_foldl | intro _ | fail_if_no_progress with_reducible apply kept_mk | split

theorem State.namedLost_kept {s0 s : State} (h : s0.Kept s) : s0.Kept (State.namedLost s) := by
  unfold State.namedLost
  try dsimp only
  repeat' first
    | with_reducible assumption | with_reducible apply State.alarm_kept | with_reducible apply State.startDrain_kept
    | with_reducible apply kept_foldl | intro _

theorem State.setHold_kept {s0 s : State} (h : s0.Kept s) (g : ℕ) (h2 : Option GroupHold) : s0.Kept (State.setHold s g h2) := by
  unfold State.setHold
  try dsimp only
  repeat' first
    | with_reducible assumption | fail_if_no_progress with_reducible apply kept_mk

theorem State.takeHeld_kept {s0 s : State} (h : s0.Kept s) (g : ℕ) (e : Group) (h3 : GroupHold) (dev : ℕ) :
    s0.Kept (State.takeHeld s g e h3 dev) := by
  unfold State.takeHeld
  try dsimp only
  repeat' first
    | with_reducible assumption | with_reducible apply State.alarm_kept | with_reducible apply State.setHold_kept | split

theorem State.sendGroup_kept {s0 s : State} (h : s0.Kept s) (dev : ℕ) (kind : ℕ) (g : ℕ) (e : Group) :
    s0.Kept (State.sendGroup s dev kind g e) := by
  unfold State.sendGroup
  try dsimp only
  repeat' first
    | with_reducible assumption | with_reducible apply State.sendSpine_kept

theorem State.answerHeld_kept {s0 s : State} (h : s0.Kept s) (g : ℕ) : s0.Kept (State.answerHeld s g) := by
  unfold State.answerHeld
  try dsimp only
  repeat' first
    | with_reducible assumption | with_reducible apply State.takeHeld_kept | with_reducible apply State.sendGroup_kept | split

theorem State.restartQuire_kept {s0 s : State} (h : s0.Kept s) (q : ℕ) : s0.Kept (State.restartQuire s q) := by
  unfold State.restartQuire
  try dsimp only
  repeat' first
    | with_reducible assumption | with_reducible apply State.updQuire_kept | with_reducible apply State.rerun_kept
    | with_reducible apply kept_foldl | intro _ | split

theorem State.releaseGroup_kept {s0 s : State} (h : s0.Kept s) (g : ℕ) : s0.Kept (State.releaseGroup s g) := by
  unfold State.releaseGroup
  try dsimp only
  repeat' first
    | with_reducible assumption | with_reducible apply State.post_kept | with_reducible apply State.setHold_kept
    | with_reducible apply State.restartQuire_kept | fail_if_no_progress with_reducible apply kept_mk | split

theorem State.takeRejoin_kept {s0 s : State} (h : s0.Kept s) (g : ℕ) (e : Group) (h3 : GroupHold) (dev : ℕ) (nextseq : ℕ) (gsig : ℕ) :
    s0.Kept (State.takeRejoin s g e h3 dev nextseq gsig) := by
  unfold State.takeRejoin
  try dsimp only
  repeat' first
    | with_reducible assumption | with_reducible apply State.alarm_kept | with_reducible apply State.setHold_kept
    | with_reducible apply State.sendGroup_kept | with_reducible apply State.releaseGroup_kept | with_reducible apply kept_foldl
    | intro _ | split

theorem State.sendRejoin_kept {s0 s : State} (h : s0.Kept s) (g : ℕ) : s0.Kept (State.sendRejoin s g) := by
  unfold State.sendRejoin
  try dsimp only
  repeat' first
    | with_reducible assumption | with_reducible apply State.sendGroup_kept | with_reducible apply State.takeRejoin_kept | split

theorem State.holdGroup_kept {s0 s : State} (h : s0.Kept s) (g : ℕ) (e : Group) (dev : ℕ) : s0.Kept (State.holdGroup s g e dev) := by
  unfold State.holdGroup
  try dsimp only
  repeat' first
    | with_reducible assumption | with_reducible apply State.post_kept | with_reducible apply State.setHold_kept
    | with_reducible apply State.answerHeld_kept | with_reducible apply State.sendRejoin_kept | with_reducible apply State.abortColl_kept
    | with_reducible apply kept_foldl | intro _ | split

theorem State.learnLoss_kept {s0 s : State} (h : s0.Kept s) (dev : ℕ) (inc : ℕ) : s0.Kept (State.learnLoss s dev inc) := by
  unfold State.learnLoss
  try dsimp only
  repeat' first
    | with_reducible assumption | with_reducible apply State.alarm_kept | with_reducible apply State.holdGroup_kept
    | with_reducible apply kept_foldl | intro _ | fail_if_no_progress with_reducible apply kept_mk | split

theorem State.lossMessage_kept {s0 s : State} (h : s0.Kept s) (kind : ℕ) (dev : ℕ) (inc : ℕ) :
    s0.Kept (State.lossMessage s kind dev inc) := by
  unfold State.lossMessage
  try dsimp only
  repeat' first
    | with_reducible assumption | with_reducible apply State.spineWork_kept | with_reducible apply State.flood_kept
    | with_reducible apply State.namedLost_kept | with_reducible apply State.learnLoss_kept
    | fail_if_no_progress with_reducible apply kept_mk | split

theorem State.chunkBytes_kept {s0 s : State} (h : s0.Kept s) (b : Bulk) (k : ℕ) : s0.Kept (State.chunkBytes s b k).2 := by
  unfold State.chunkBytes
  try dsimp only
  repeat' first
    | with_reducible assumption | with_reducible apply State.readSpan_kept | (with_reducible eapply kept_pair; with_reducible assumption)
    | split

theorem State.setBulk_kept {s0 s : State} (h : s0.Kept s) (b : Bulk) : s0.Kept (State.setBulk s b) := by
  unfold State.setBulk
  try dsimp only
  repeat' first
    | with_reducible assumption | fail_if_no_progress with_reducible apply kept_mk | split

theorem State.sendChunk_kept {s0 s : State} (h : s0.Kept s) (xid : ℕ) (k : ℕ) (attempt : ℕ) :
    s0.Kept (State.sendChunk s xid k attempt) := by
  unfold State.sendChunk
  try dsimp only
  repeat' first
    | with_reducible assumption | with_reducible apply State.send_kept | with_reducible apply State.endBulk_kept
    | with_reducible apply State.chunkBytes_kept | with_reducible apply State.setBulk_kept
    | (with_reducible eapply kept_pair; with_reducible assumption) | split

theorem State.pump_kept {s0 s : State} (h : s0.Kept s) (xid : ℕ) : s0.Kept (State.pump s xid) := by
  unfold State.pump
  try dsimp only
  repeat' first
    | with_reducible assumption | with_reducible apply State.sendChunk_kept | with_reducible apply kept_foldl | intro _ | split

theorem State.resendChunk_kept {s0 s : State} (h : s0.Kept s) (xid : ℕ) (k : ℕ) : s0.Kept (State.resendChunk s xid k) := by
  unfold State.resendChunk
  try dsimp only
  repeat' first
    | with_reducible assumption | with_reducible apply State.sendChunk_kept | split

theorem State.resendAll_kept {s0 s : State} (h : s0.Kept s) (xid : ℕ) : s0.Kept (State.resendAll s xid) := by
  unfold State.resendAll
  try dsimp only
  repeat' first
    | with_reducible assumption | with_reducible apply State.pump_kept | with_reducible apply State.resendChunk_kept
    | with_reducible apply kept_foldl | intro _ | split

theorem State.handOver_kept {s0 s : State} (h : s0.Kept s) : s0.Kept (State.handOver s) := by
  unfold State.handOver
  try dsimp only
  repeat' first
    | with_reducible assumption | with_reducible apply State.finish_kept | with_reducible apply State.abandonFreeze_kept
    | with_reducible apply State.resendAll_kept | with_reducible apply kept_foldl | intro _ | split

theorem State.takeover_kept {s0 s : State} (h : s0.Kept s) : s0.Kept (State.takeover s) := by
  unfold State.takeover
  try dsimp only
  repeat' first
    | with_reducible assumption | with_reducible apply State.alarm_kept | with_reducible apply State.watchRisk_kept
    | with_reducible apply State.handOver_kept | fail_if_no_progress with_reducible apply kept_mk | split

theorem State.firstIsland_kept {s0 s : State} (h : s0.Kept s) (i : ℕ) : s0.Kept (State.firstIsland s i) := by
  unfold State.firstIsland
  try dsimp only
  repeat' first
    | with_reducible assumption | with_reducible apply State.takeFree_kept | with_reducible apply State.setIsland_kept
    | (with_reducible eapply kept_pair; with_reducible assumption) | split

theorem State.overwrite_kept {s0 s : State} (h : s0.Kept s) (c : CopyImage) : s0.Kept (State.overwrite s c) := by
  unfold State.overwrite
  try dsimp only
  repeat' first
    | with_reducible assumption | with_reducible apply State.writeBytes_kept | with_reducible apply State.updStrand_kept
    | with_reducible apply State.markDirty_kept | with_reducible apply State.installGroups_kept
    | with_reducible apply State.zeroRegion_kept | with_reducible apply kept_foldl | intro _ | split

theorem State.rejoinAll_kept {s0 s : State} (h : s0.Kept s) (q : ℕ) (lost : List ℕ) : s0.Kept (State.rejoinAll s q lost) := by
  unfold State.rejoinAll
  try dsimp only
  repeat' first
    | with_reducible assumption | with_reducible apply State.updQuire_kept | with_reducible apply State.setHold_kept
    | with_reducible apply State.restartQuire_kept | with_reducible apply State.sendRejoin_kept | with_reducible apply kept_foldl
    | intro _ | split

theorem State.setRestoring_kept {s0 s : State} (h : s0.Kept s) (r : Option Restoring) : s0.Kept (State.setRestoring s r) := by
  unfold State.setRestoring
  try dsimp only
  repeat' first
    | with_reducible assumption | fail_if_no_progress with_reducible apply kept_mk

theorem State.restoreRunning_kept {s0 s : State} (h : s0.Kept s) (c : CopyImage) (r : Restoring) (rest : List CopyImage) :
    s0.Kept (State.restoreRunning s c r rest) := by
  unfold State.restoreRunning
  try dsimp only
  repeat' first
    | with_reducible assumption | with_reducible apply State.updTile_kept | with_reducible apply State.runArrays_kept
    | with_reducible apply State.overwrite_kept | with_reducible apply State.rejoinAll_kept
    | with_reducible apply State.setRestoring_kept | with_reducible apply kept_foldl | intro _
    | fail_if_no_progress with_reducible apply kept_mk

theorem State.failRestore_kept {s0 s : State} (h : s0.Kept s) : s0.Kept (State.failRestore s) := by
  unfold State.failRestore
  try dsimp only
  repeat' first
    | with_reducible assumption | with_reducible apply State.finishWhere_kept | with_reducible apply State.setRestoring_kept

theorem State.setUpTiles_kept {s0 s : State} (h : s0.Kept s) (q : ℕ) (tiles : BitVec 192) (bad : List ℕ) (floor : BitVec 16) :
    s0.Kept (State.setUpTiles s q tiles bad floor) := by
  unfold State.setUpTiles
  try dsimp only
  repeat' first
    | with_reducible assumption | with_reducible apply State.updTile_kept | with_reducible apply State.alarm_kept
    | with_reducible apply State.risk_kept | with_reducible apply State.setUpTile_kept | with_reducible apply kept_foldl | intro _
    | split

theorem State.compose_kept {s0 s : State} (h : s0.Kept s) (q : ℕ) (p : QCreateReq) (copy : Option (ℕ × ℕ)) :
    s0.Kept (State.compose s q p copy) := by
  unfold State.compose
  try dsimp only
  repeat' first
    | with_reducible assumption | with_reducible apply State.setQuire_kept | with_reducible apply State.takeFree_kept
    | with_reducible apply State.zeroBytes_kept | with_reducible apply State.setRegulators_kept
    | with_reducible apply State.setRights_kept | with_reducible apply State.assignRegions_kept
    | with_reducible apply State.zeroRegion_kept | with_reducible apply kept_foldl
    | (with_reducible eapply kept_pair; with_reducible assumption) | intro _ | fail_if_no_progress with_reducible apply kept_mk | split

theorem State.takeOver_kept {s0 s : State} (h : s0.Kept s) (c : CopyImage) (dev : ℕ) : s0.Kept (State.takeOver s c dev) := by
  unfold State.takeOver
  try dsimp only
  repeat' first
    | with_reducible assumption | with_reducible apply State.updQuire_kept | with_reducible apply State.setRegion_kept
    | with_reducible apply kept_foldl | intro _ | fail_if_no_progress with_reducible apply kept_mk

theorem State.restoreFresh_kept {s0 s : State} (h : s0.Kept s) (c : CopyImage) (r : Restoring) (rest : List CopyImage) :
    s0.Kept (State.restoreFresh s c r rest) := by
  unfold State.restoreFresh
  try dsimp only
  repeat' first
    | with_reducible assumption | with_reducible apply State.updQuire_kept | with_reducible apply State.replan_kept
    | with_reducible apply State.beginScrub_kept | with_reducible apply State.overwrite_kept | with_reducible apply State.rejoinAll_kept
    | with_reducible apply State.setRestoring_kept | with_reducible apply State.failRestore_kept
    | with_reducible apply State.setUpTiles_kept | with_reducible apply State.compose_kept | with_reducible apply State.takeOver_kept
    | split

theorem State.bulkCommand_kept {s0 s : State} (h : s0.Kept s) (c : Hdr) (op : ℕ) (run : State → Session → Res) (h_run : ∀ s x, s0.Kept s → (run s x).Keeps s0) :
    s0.Kept (State.bulkCommand s c op run) := by
  unfold State.bulkCommand
  try dsimp only
  repeat' first
    | with_reducible assumption | with_reducible apply h_run | with_reducible apply State.command_kept
    | with_reducible apply State.pump_kept | intro _

theorem State.openBulk_kept {s0 s : State} (h : s0.Kept s) (c : Hdr) (x : Session) (quire : ℕ) (use : BulkUse) (fromDevice : Bool) (addr : ℕ) (len : ℕ) (p : BulkParams) :
    (State.openBulk s c x quire use fromDevice addr len p).Keeps s0 := by
  unfold State.openBulk
  try dsimp only
  repeat' first
    | with_reducible assumption | with_reducible apply Res.keeps_done | with_reducible apply Res.keeps_pend
    | with_reducible apply Res.keeps_both | fail_if_no_progress with_reducible apply kept_mk | split

theorem State.stopBoot_kept {s0 s : State} (h : s0.Kept s) (reason : ℕ) : s0.Kept (State.stopBoot s reason) := by
  unfold State.stopBoot
  try dsimp only
  repeat' first
    | with_reducible assumption | fail_if_no_progress with_reducible apply kept_mk

theorem State.setStage_kept {s0 s : State} (h : s0.Kept s) (k : ℕ) : s0.Kept (State.setStage s k) := by
  unfold State.setStage
  try dsimp only
  repeat' first
    | with_reducible assumption | fail_if_no_progress with_reducible apply kept_mk

theorem State.asCoordinator_kept {s0 s : State} (h : s0.Kept s) (m : GroupMsg) (f : Group → GroupHold → State) (h_f : ∀ g x, s0.Kept (f g x)) :
    s0.Kept (State.asCoordinator s m f) := by
  unfold State.asCoordinator
  try dsimp only
  repeat' first
    | with_reducible assumption | exact h_f _ _ | intro _ | split

theorem State.spinesPass_kept {s0 s : State} (h : s0.Kept s) (ok0 : Bool) (ok1 : Bool) (reason : ℕ) (next : ℕ) :
    s0.Kept (State.spinesPass s ok0 ok1 reason next) := by
  unfold State.spinesPass
  try dsimp only
  repeat' first
    | with_reducible assumption | with_reducible apply State.stopBoot_kept | fail_if_no_progress with_reducible apply kept_mk | split

theorem State.endLinks_kept {s0 s : State} (h : s0.Kept s) : s0.Kept (State.endLinks s) := by
  unfold State.endLinks
  try dsimp only
  repeat' first
    | with_reducible assumption | with_reducible apply State.setGroup_kept | with_reducible apply State.setStage_kept
    | with_reducible apply kept_foldl | intro _ | fail_if_no_progress with_reducible apply kept_mk | split

theorem State.acknowledge_kept {s0 s : State} (h : s0.Kept s) (xid : ℕ) (e : ℕ) : s0.Kept (State.acknowledge s xid e) := by
  unfold State.acknowledge
  try dsimp only
  repeat' first
    | with_reducible assumption | with_reducible apply State.send_kept | with_reducible apply State.setBulk_kept | split

theorem State.sendTags_kept {s0 s : State} (h : s0.Kept s) (dev : ℕ) : s0.Kept (State.sendTags s dev) := by
  unfold State.sendTags
  try dsimp only
  repeat' first
    | with_reducible assumption | with_reducible apply State.sendSpine_kept

theorem State.setSmbus_kept {s0 s : State} (h : s0.Kept s) (x : Option (List Byte)) : s0.Kept (State.setSmbus s x) := by
  unfold State.setSmbus
  try dsimp only
  repeat' first
    | with_reducible assumption | fail_if_no_progress with_reducible apply kept_mk

theorem State.beginReset_kept {s0 s : State} (h : s0.Kept s) (t1 : TileId) (q : ℕ) : s0.Kept (State.beginReset s t1 q) := by
  unfold State.beginReset
  try dsimp only
  repeat' first
    | with_reducible assumption | with_reducible apply State.updTile_kept | fail_if_no_progress with_reducible apply kept_mk

theorem State.startSweep_kept {s0 s : State} (h : s0.Kept s) (q : ℕ) : s0.Kept (State.startSweep s q) := by
  unfold State.startSweep
  try dsimp only
  repeat' first
    | with_reducible assumption | with_reducible apply State.setQuire_kept | with_reducible apply State.takeFree_kept
    | (with_reducible eapply kept_pair; with_reducible assumption) | split

theorem State.cold_kept {s0 s : State} (h : s0.Kept s) (feed : FeedState) (inUse : Feed) : s0.Kept (s.cold feed inUse) :=
  ⟨h.1, fun _ => rfl⟩

theorem State.hungTile_kept {s0 s : State} (h : s0.Kept s) (t1 : TileId) : s0.Kept (State.hungTile s t1) := by
  unfold State.hungTile
  try dsimp only
  repeat' first
    | with_reducible assumption | with_reducible apply State.updTile_kept | with_reducible apply State.post_kept
    | with_reducible apply State.alarm_kept | with_reducible apply State.spineWork_kept | with_reducible apply State.beginReset_kept
    | split

theorem State.loseFeeds_kept {s0 s : State} (h : s0.Kept s) : s0.Kept (State.loseFeeds s) := by
  unfold State.loseFeeds
  try dsimp only
  repeat' first
    | with_reducible assumption | with_reducible apply State.alarm_kept | with_reducible apply State.flood_kept
    | with_reducible apply State.setFeedState_kept

theorem State.feedFails_kept {s0 s : State} (h : s0.Kept s) (f : Feed) : s0.Kept (State.feedFails s f) := by
  unfold State.feedFails
  try dsimp only
  repeat' first
    | with_reducible assumption | with_reducible apply State.watchRisk_kept | with_reducible apply State.replan_kept
    | with_reducible apply State.setGood_kept | with_reducible apply State.setFeedState_kept | with_reducible apply State.switchTo_kept
    | with_reducible apply State.loseFeeds_kept | split

theorem State.copyQuire_kept {s0 s : State} (h : s0.Kept s) (dev q : ℕ) {u : ℕ × State} (e : State.copyQuire s dev q = some u) : s0.Kept u.2 := by
  unfold State.copyQuire at e
  split at e
  · cases e; exact h
  · obtain ⟨k, -, hu⟩ := Option.map_eq_some_iff.mp e
    rw [← hu]
    dsimp only
    repeat' first
      | with_reducible assumption
      | with_reducible apply State.setRights_kept
      | with_reducible apply State.setRegulators_kept
      | with_reducible apply State.setQuire_kept
      | with_reducible apply State.takeFree_kept

theorem State.writePortCtl_kept {s0 s : State} (h : s0.Kept s) (p : ℕ) (n : ℕ) : s0.Kept (State.writePortCtl s p n) := by
  unfold State.writePortCtl
  try dsimp only
  repeat' first
    | with_reducible assumption | with_reducible apply State.setPort_kept | with_reducible apply State.disablePort_kept
    | with_reducible apply State.enablePort_kept | with_reducible apply State.startLive_kept | split

theorem State.spliceWrite_kept {s0 s : State} (h : s0.Kept s) (off : ℕ) (v : Word) : s0.Kept (State.spliceWrite s off v) := by
  unfold State.spliceWrite
  try dsimp only
  repeat' first
    | with_reducible assumption | with_reducible apply State.setPort_kept | with_reducible apply State.writePortCtl_kept
    | fail_if_no_progress with_reducible apply kept_mk | split

theorem State.readStraps_kept {s0 s : State} (h : s0.Kept s) (tags : FeedTags) : s0.Kept (State.readStraps s tags) := by
  unfold State.readStraps
  try dsimp only
  repeat' first
    | with_reducible assumption | with_reducible apply State.setGood_kept | fail_if_no_progress with_reducible apply kept_mk | split

theorem State.dropIncoming_kept {s0 s : State} (h : s0.Kept s) (k : ℕ) : s0.Kept (State.dropIncoming s k) := by
  unfold State.dropIncoming
  try dsimp only
  repeat' first
    | with_reducible assumption | with_reducible apply State.updQuire_kept | with_reducible apply State.setRegion_kept
    | with_reducible apply kept_foldl | intro _ | split

theorem State.wholeBulk_kept {s0 s : State} (h : s0.Kept s) (b : Bulk) : s0.Kept (State.wholeBulk s b) := by
  unfold State.wholeBulk
  try dsimp only
  repeat' first
    | with_reducible assumption | with_reducible apply State.updQuire_kept | with_reducible apply State.endBulk_kept
    | with_reducible apply State.installGroups_kept | with_reducible apply State.setInactive_kept
    | fail_if_no_progress with_reducible apply kept_mk | split

theorem State.leavePartner_kept {s0 s : State} (h : s0.Kept s) : s0.Kept (State.leavePartner s) := by
  unfold State.leavePartner
  try dsimp only
  repeat' first
    | with_reducible assumption | with_reducible apply State.updQuire_kept | with_reducible apply State.sendSpine_kept
    | with_reducible apply kept_foldl | intro _ | split

theorem State.ethWrite_kept {s0 s : State} (h : s0.Kept s) (off : ℕ) (v : Word) : s0.Kept (State.ethWrite s off v) := by
  unfold State.ethWrite
  try dsimp only
  repeat' first
    | with_reducible assumption | with_reducible apply State.setEth_kept | with_reducible apply State.enableEth_kept
    | with_reducible apply State.disableEth_kept | split

theorem State.completeLoad_kept {s0 s : State} (h : s0.Kept s) (a : At) (k : ℕ) (l : PendingLoad) (bs : List Byte) :
    s0.Kept (State.completeLoad s a k l bs) := by
  unfold State.completeLoad
  try dsimp only
  repeat' first
    | with_reducible assumption | with_reducible apply State.updStrand_kept | with_reducible apply State.finishGroup_kept
    | with_reducible apply State.finishLoad_kept | with_reducible apply State.finishColl_kept
    | with_reducible apply State.finishReplay_kept | with_reducible apply State.finishTransfer_kept | split

theorem State.failLoad_kept {s0 s : State} (h : s0.Kept s) (a : At) (k : ℕ) (l : PendingLoad) (code : ℕ) (check : ℕ) (va : Word) :
    s0.Kept (State.failLoad s a k l code check va) := by
  unfold State.failLoad
  try dsimp only
  repeat' first
    | with_reducible assumption | with_reducible apply State.updStrand_kept | with_reducible apply State.raise_kept
    | with_reducible apply State.operandFault_kept | with_reducible apply State.replayFault_kept | split

theorem State.loadStep_kept {s0 s : State} (h : s0.Kept s) (a : At) (k : ℕ) : s0.Kept (State.loadStep s a k) := by
  unfold State.loadStep
  try dsimp only
  repeat' first
    | with_reducible assumption | with_reducible apply State.updStrand_kept | with_reducible apply State.tryParts_kept
    | with_reducible apply State.timeFor_kept | with_reducible apply State.completeLoad_kept | with_reducible apply State.failLoad_kept
    | with_reducible apply kept_foldl | (with_reducible eapply kept_pair; with_reducible assumption) | intro _ | split

theorem State.ctlWrite_kept {s0 s : State} (h : s0.Kept s) (a : ℕ) (v : Word) : s0.Kept (State.ctlWrite s a v) := by
  unfold State.ctlWrite
  try dsimp only
  repeat' first
    | with_reducible assumption | with_reducible apply State.tileWrite_kept | with_reducible apply State.stackWrite_kept
    | with_reducible apply State.spliceWrite_kept | with_reducible apply State.ethWrite_kept | split

theorem State.drainEntry_kept {s0 s : State} (h : s0.Kept s) (a : At) (e : SbEntry) : s0.Kept (State.drainEntry s a e).2 := by
  unfold State.drainEntry
  try dsimp only
  repeat' first
    | with_reducible assumption | with_reducible apply State.updTile_kept | with_reducible apply State.sendStore_kept
    | with_reducible apply State.putSlice_kept | with_reducible apply State.ctlWrite_kept
    | (with_reducible eapply kept_pair; with_reducible assumption) | split

theorem State.drainSb_kept {s0 s : State} (h : s0.Kept s) (a : At) : s0.Kept (State.drainSb s a) := by
  unfold State.drainSb
  try dsimp only
  repeat' first
    | with_reducible assumption | with_reducible apply State.updStrand_kept | with_reducible apply State.drainEntry_kept
    | (with_reducible eapply kept_pair; with_reducible assumption) | split

theorem State.beginLinks_kept {s0 s : State} (h : s0.Kept s) : s0.Kept (State.beginLinks s) := by
  unfold State.beginLinks
  try dsimp only
  repeat' first
    | with_reducible assumption | with_reducible apply State.setPort_kept | with_reducible apply State.enablePort_kept
    | with_reducible apply kept_foldl | intro _ | fail_if_no_progress with_reducible apply kept_mk | split

theorem State.landChunk_kept {s0 s : State} (h : s0.Kept s) (b : Bulk) (k : ℕ) (bs : List Byte) : s0.Kept (State.landChunk s b k bs).2 := by
  unfold State.landChunk
  try dsimp only
  repeat' first
    | with_reducible assumption | with_reducible apply State.hostWrite_kept | with_reducible apply State.setBulk_kept
    | (with_reducible eapply kept_pair; with_reducible assumption) | split

theorem State.performChunk_kept {s0 s : State} (h : s0.Kept s) (b : Bulk) (p : BulkData) : s0.Kept (State.performChunk s b p) := by
  unfold State.performChunk
  try dsimp only
  repeat' first
    | with_reducible assumption | with_reducible apply State.endBulk_kept | with_reducible apply State.setBulk_kept
    | with_reducible apply State.acknowledge_kept | with_reducible apply State.wholeBulk_kept | with_reducible apply State.landChunk_kept
    | (with_reducible eapply kept_pair; with_reducible assumption) | split

theorem State.takeChunk_kept {s0 s : State} (h : s0.Kept s) (p : BulkData) : s0.Kept (State.takeChunk s p) := by
  unfold State.takeChunk
  try dsimp only
  repeat' first
    | with_reducible assumption | with_reducible apply State.send_kept | with_reducible apply State.performChunk_kept
    | fail_if_no_progress with_reducible apply kept_mk | split

theorem State.endSweep_kept {s0 s : State} (h : s0.Kept s) (q : ℕ) : s0.Kept (State.endSweep s q) := by
  unfold State.endSweep
  try dsimp only
  repeat' first
    | with_reducible assumption | with_reducible apply State.setQuire_kept | with_reducible apply State.finishWhere_kept
    | with_reducible apply State.appendLog_kept | split

theorem State.rewriteRegion_kept {s0 s : State} (h : s0.Kept s) (i : ℕ) (slot : Bool) : s0.Kept (State.rewriteRegion s i slot) := by
  unfold State.rewriteRegion
  try dsimp only
  repeat' first
    | with_reducible assumption | with_reducible apply State.setRegion_kept | with_reducible apply State.meet_kept
    | with_reducible apply State.zeroBytes_kept | with_reducible apply State.chargeOwn_kept | with_reducible apply kept_foldl
    | (with_reducible eapply kept_pair; with_reducible assumption) | intro _ | split

theorem State.retryChunks_kept {s0 s : State} (h : s0.Kept s) : s0.Kept (State.retryChunks s) := by
  unfold State.retryChunks
  try dsimp only
  repeat' first
    | with_reducible assumption | with_reducible apply State.send_kept | with_reducible apply State.takeChunk_kept
    | with_reducible apply kept_foldl | intro _ | fail_if_no_progress with_reducible apply kept_mk

theorem State.heatIsland_kept {s0 s : State} (h : s0.Kept s) (i : ℕ) (tj : ℕ) : s0.Kept (State.heatIsland s i tj) := by
  unfold State.heatIsland
  try dsimp only
  repeat' first
    | with_reducible assumption | with_reducible apply State.updTile_kept | with_reducible apply State.alarm_kept
    | with_reducible apply State.setIsland_kept | with_reducible apply kept_foldl | intro _ | split

theorem State.closeWindow_kept {s0 s : State} (h : s0.Kept s) : s0.Kept (State.closeWindow s) := by
  unfold State.closeWindow
  try dsimp only
  repeat' first
    | with_reducible assumption | with_reducible apply State.updQuire_kept | with_reducible apply kept_foldl | intro _
    | fail_if_no_progress with_reducible apply kept_mk

theorem State.boundExpires_kept {s0 s : State} (h : s0.Kept s) (q : ℕ) : s0.Kept (State.boundExpires s q) := by
  unfold State.boundExpires
  try dsimp only
  repeat' first
    | with_reducible assumption | with_reducible apply State.updTile_kept | with_reducible apply State.loseRegions_kept
    | with_reducible apply State.finishDrain_kept | with_reducible apply kept_foldl | intro _ | split

end Sys2Proof.Machine
end

