-- ==== Sys2Proof/Laws/Opened.lean ====
section
/-! SUPPORT. A state in which the gateway has accepted a request: what it leaves alone; and what the loss of the replayable flag leaves alone. -/

namespace Sys2Proof.Machine

variable (s : State) (c : Hdr) (x : Session)

@[simp] theorem State.tile_opened (t : TileId) : (s.opened c x).tile t = s.tile t := rfl
@[simp] theorem State.strand_opened (a : At) : (s.opened c x).strand a = s.strand a := rfl
@[simp] theorem State.quire_opened (q : Nat) : (s.opened c x).quire q = s.quire q := rfl
@[simp] theorem State.region_opened (q : Nat) : (s.opened c x).region q = s.region q := rfl
@[simp] theorem State.chan_opened (q : Nat) : (s.opened c x).chan q = s.chan q := rfl
@[simp] theorem State.stackOf_opened (q : Nat) : (s.opened c x).stackOf q = s.stackOf q := rfl
@[simp] theorem State.island_opened (q : Nat) : (s.opened c x).island q = s.island q := rfl
@[simp] theorem State.port_opened (q : Nat) : (s.opened c x).port q = s.port q := rfl
@[simp] theorem State.group_opened (q : Nat) : (s.opened c x).group q = s.group q := rfl
@[simp] theorem State.eth_opened (q : Nat) : (s.opened c x).eth q = s.eth q := rfl
@[simp] theorem State.bulk_opened (q : Nat) : (s.opened c x).bulk q = s.bulk q := rfl
@[simp] theorem State.bytes_opened (a n : Nat) : (s.opened c x).bytes a n = s.bytes a n := rfl
@[simp] theorem State.mem_opened : (s.opened c x).mem = s.mem := rfl
@[simp] theorem State.survive_opened : (s.opened c x).survive = s.survive := rfl
@[simp] theorem State.flash_opened : (s.opened c x).flash = s.flash := rfl
@[simp] theorem State.boot_opened : (s.opened c x).boot = s.boot := rfl
@[simp] theorem State.spine_opened : (s.opened c x).spine = s.spine := rfl
@[simp] theorem State.power_opened : (s.opened c x).power = s.power := rfl
@[simp] theorem State.splice_opened : (s.opened c x).splice = s.splice := rfl
@[simp] theorem State.lost_opened : (s.opened c x).lost = s.lost := rfl
@[simp] theorem State.alarms_opened : (s.opened c x).alarms = s.alarms := rfl
@[simp] theorem State.logQ_opened : (s.opened c x).logQ = s.logQ := rfl
@[simp] theorem State.logRing_opened : (s.opened c x).logRing = s.logRing := rfl
@[simp] theorem State.logLost_opened : (s.opened c x).logLost = s.logLost := rfl
@[simp] theorem State.logRead_opened : (s.opened c x).logRead = s.logRead := rfl
@[simp] theorem State.noReplay_opened : (s.opened c x).noReplay = s.noReplay := rfl
@[simp] theorem State.counts_opened : (s.opened c x).counts = s.counts := rfl
@[simp] theorem State.free_opened : (s.opened c x).free = s.free := rfl
@[simp] theorem State.device_opened : (s.opened c x).device = s.device := rfl
@[simp] theorem State.quires_opened : (s.opened c x).quires = s.quires := rfl
@[simp] theorem State.tiles_opened : (s.opened c x).tiles = s.tiles := rfl
@[simp] theorem State.islands_opened : (s.opened c x).islands = s.islands := rfl
@[simp] theorem State.pending_opened : (s.opened c x).pending = s.pending := rfl
@[simp] theorem State.isReady_opened : (s.opened c x).isReady = s.isReady := rfl
@[simp] theorem State.net_subs_opened : (s.opened c x).net.subs = s.net.subs := rfl
@[simp] theorem State.net_nextSub_opened : (s.opened c x).net.nextSub = s.net.nextSub := rfl
@[simp] theorem State.net_bulks_opened : (s.opened c x).net.bulks = s.net.bulks := rfl
@[simp] theorem State.net_nextXid_opened : (s.opened c x).net.nextXid = s.net.nextXid := rfl
@[simp] theorem State.net_requests_opened : (s.opened c x).net.requests = s.net.requests := rfl

@[simp] theorem State.tile_spoilReplay (a : At) (k : Nat) (t : TileId) : (s.spoilReplay a k).tile t = s.tile t := by
  unfold State.spoilReplay
  dsimp only
  split <;> rfl
@[simp] theorem State.strand_spoilReplay (a b : At) (k : Nat) : (s.spoilReplay a k).strand b = s.strand b :=
  congrArg (fun y => y.strand b.h) (s.tile_spoilReplay a k b.t)
@[simp] theorem State.mem_spoilReplay (a : At) (k : Nat) : (s.spoilReplay a k).mem = s.mem := by
  unfold State.spoilReplay
  dsimp only
  split <;> rfl

end Sys2Proof.Machine
end

