-- ==== Sys2Proof/WellFormed.lean ====
section
/-! DEFINITION. What the outside can present: the widths and lengths that the operand types leave free. `exec` is total on every
command; these checks say which commands a sender can make. -/

namespace Sys2Proof

/-- 12 Table 12-2. -/
def Hdr.fits (c : Hdr) : Bool :=
  decide (c.session < 2 ^ 32) && decide (c.seq < 2 ^ 32) && (decide (c.quire < 16) || c.quire == 0xFF) && decide (c.epoch < 2 ^ 16) &&
    decide (c.version < 2 ^ 8) && decide (c.magic < 2 ^ 16) && decide (c.part < 2 ^ 8) && decide (c.plen < 2 ^ 32) &&
    c.tlvs.all fun t => decide (t.type < 2 ^ 16) && decide (t.len < 2 ^ 16)

/-- 10 R267, Table 10-5. -/
def SPacket.fits (p : SPacket) : Bool := decide (p.payload.length ≤ 4096) && decide (p.len ≤ 4096) && decide (p.hops ≤ 1023)

/-- 10 Table 10-2, R265: at most 25 blocks, eight credit counts, and none in an idle frame. -/
def Frame.fits (f : Frame) : Bool :=
  decide (f.blocks.length ≤ 25) && f.credit.length == 8 && (!f.idle || f.blocks.isEmpty) &&
    f.blocks.all (fun b => (match b.packet with | some p => b.stop && p.fits | none => !b.stop))

/-- 15 Table 15-3. -/
def ManufRecord.fits (r : ManufRecord) : Bool :=
  r.arrays.length == 192 && r.arrays.all (fun b => decide (b < 256)) && r.macs.length == 8 && r.macs.all (fun m => decide (m < 2 ^ 48)) &&
    r.serial.length == 32 && r.chx.all (fun c => decide (c < 640)) && decide (r.serialIndex < 2 ^ 20)

/-- 13 Table 13-8. -/
def FwImage.fits (i : FwImage) : Bool := i.digests.length == 4 && i.digests.all (fun d => decide (d < 2 ^ 384)) && decide (i.svn < 2 ^ 16)

/-- 14 R358: one junction for each island. -/
def PlanMeasure.fits (m : PlanMeasure) : Bool := m.tj.length == 16

/-- 12 Table 12-16. -/
def BulkData.fits (p : BulkData) : Bool := decide (p.xid < 2 ^ 32) && decide (p.bytes.length ≤ 8192) && decide (p.attempt < 2 ^ 16)

/-- Numbers below a bound, none twice. -/
def namesFit (n : Nat) (xs : List Nat) : Bool := xs.all (fun x => decide (x < n)) && decide xs.Nodup

/-- 15 R376: one delay setting for each tile. -/
def stepsFit (xs : List Nat) : Bool := xs.length == 192 && xs.all (fun x => decide (x < 256))

/-- 12 Table 12-8: a READ or WRITE moves at most 65,536 bytes. -/
def bytesFit (bs : List Byte) : Bool := decide (bs.length ≤ 65536)

/-- The command can be presented. -/
def Instr.wellFormed : Instr → Bool
  | .frameReceive _ f => f.fits
  | .stageRecord r => r.fits
  | .stageMemory _ failed => namesFit 640 failed
  | .stageTiles _ failed steps => namesFit 192 failed && stepsFit steps
  | .energyPlan m => m.fits
  | .bulkData p => p.fits
  | .begin _ seals => decide seals.Nodup
  | .fwstage c _ i _ => c.fits && i.fits
  | .write c _ bs => c.fits && bytesFit bs
  | .qcreate c p => c.fits && namesFit 192 p.badTiles
  | .restore c p => c.fits && decide (p.copies.map (·.quire)).Nodup
  | .hello c _ => c.fits && c.session == 0
  | .auth c _ => c.fits
  | .close c => c.fits
  | .rekey c _ => c.fits
  | .ping c _ => c.fits
  | .sessions c => c.fits
  | .evict c _ => c.fits
  | .netcfg c _ => c.fits
  | .netport c _ _ => c.fits
  | .status c => c.fits
  | .health c => c.fits
  | .inventory c => c.fits
  | .lostlist c _ => c.fits
  | .alarms c _ => c.fits
  | .alarmack c _ => c.fits
  | .qquery c => c.fits
  | .qmodify c _ => c.fits
  | .qdrain c _ => c.fits
  | .qrelease c => c.fits
  | .keyrotate c => c.fits
  | .load c _ => c.fits
  | .read c _ _ => c.fits
  | .bulkopen c _ => c.fits
  | .bulkstatus c _ => c.fits
  | .bulkcancel c _ => c.fits
  | .start c _ _ _ => c.fits
  | .halt c _ _ => c.fits
  | .tilereset c _ => c.fits
  | .strands c _ => c.fits
  | .signal c _ _ _ => c.fits
  | .attest c _ => c.fits
  | .certs c => c.fits
  | .measlog c _ => c.fits
  | .partner c _ => c.fits
  | .ckestimate c => c.fits
  | .checkpoint c _ => c.fits
  | .replayrec c => c.fits
  | .recoverregion c _ => c.fits
  | .mapout c _ => c.fits
  | .failover c => c.fits
  | .geometry c _ => c.fits
  | .portcfg c _ => c.fits
  | .porten c _ _ => c.fits
  | .portstat c _ => c.fits
  | .override c _ => c.fits
  | .groupsave c _ => c.fits
  | .grouprestore c _ _ => c.fits
  | .planset c _ => c.fits
  | .planget c => c.fits
  | .reading c _ => c.fits
  | .feeds c => c.fits
  | .subscribe c _ _ => c.fits
  | .unsubscribe c _ => c.fits
  | .logread c _ _ => c.fits
  | .exportcfg c _ => c.fits
  | .counters c _ => c.fits
  | .fwverify c => c.fits
  | .fwactivate c _ => c.fits
  | .fwinfo c => c.fits
  | .unknownOpcode c _ => c.fits
  | _ => true

end Sys2Proof
end

