-- ==== Sys2Proof/Tests/Slice0.lean ====
section
/-! SUPPORT. The author's tests: a term that each check of WellFormed refuses; worked examples of the spec; single steps; and, for each
statement that has hypotheses, a state and operands that meet those of each of its clauses together. -/

namespace Sys2Proof.Tests

open Sys2Proof.Machine

set_option Elab.async false

/-! ### Small states -/

def t0 : TileId := 0
def a0 : At := ⟨t0, 0⟩
def a1 : At := ⟨t0, 1⟩
def after (o : Out) : State := match o with | .next s => s | _ => State.reset
/-- Strand 0 of tile 0 runs, with the line of its pc in the line buffer. -/
def running : State := State.reset.updStrand a0 fun r => { r with run := .running, lineBuf := some 0 }
def withTile (f : Tile → Tile) (s : State) : State := s.updTile t0 f
def withStrand (f : Strand → Strand) (s : State) : State := s.updStrand a0 f
def rf (rd rs1 rs2 : BitVec 5) : RF := { rd := rd, rs1 := rs1, rs2 := rs2 }
/-- A MEM warrant of quire 1 over the first 64 MiB, with the rights of bits 24 to 29 and derive. -/
def memW : Warrant := BitVec.ofNat 128 (1 + 1 * 2 ^ 4 + 0x3F * 2 ^ 24 + 2 ^ 31 + 16 * 2 ^ 32 + 1024 * 2 ^ 38)
def entry0 : TlbEntry := { page := 0, pages := 32, phys := 0, policy := .writeBack, isSeal := false, ro := false, nx := false }
def line0 : Line :=
  { tag := 0, valid := 15, dirty := 0, untouched := false, isSeal := false, data := 0x8877665544332211, weak := 0, torn := 0 }
/-- Tile 0 belongs to quire 1, sees `memW` in w0, translates the first 2 MiB and holds line 0. -/
def mapped : State :=
  withStrand (fun r => { r with wregs := Sparse.set 0 r.wregs 0 memW })
    (withTile (fun x => { x.setLine 0 0 (some line0) with assigned := true, quire := 1, tlb := [entry0] }) running)
def isOk : Paths → Bool
  | .ok _ => true | _ => false
def isFail : Paths → Bool
  | .fail .. => true | _ => false

/-! ### Witnesses: the queue, reset and the scalar instructions -/

theorem witness_StepRunsTheFrontCommand : State.reset.pending = [] := by decide
theorem witness_StepKeepsMemoryCanonical : Memory.wf State.reset.mem.bytes = true ∧ Memory.wf [(5, 1), (7, 2)] = true := by decide
theorem witness_IntegerRegisterResult : running.ready a0 4 true [3, 1, 2] = true ∧ running.ready a0 4 true [31, 0] = true := by decide
theorem witness_IntegerImmediateResult : running.ready a0 4 true [0, 31] = true ∧ running.ready a0 4 true [7] = true := by decide
theorem witness_IntegerArithmeticMeaning : (3 : Word) ≠ 0 ∧ (0 : Int) ≤ (7 : Word).toInt ∧ (-7 : Word).toInt ≤ 0 := by decide
theorem witness_ScalarFrame : running.ready a0 4 true [3, 1, 2] = true ∧ running.ready a0 4 false [1, 2] = true ∧
    running.ready a0 4 false [] = true := by decide
theorem witness_CompletionMovesControl :
    ({ Strand.reset with slot := some { branch := 0, next := 64, link := some (1, 8) } } : Strand).slot.isSome = true ∧
    Strand.reset.atLend = false ∧
    ({ Strand.reset with status := { Strand.reset.status with loop := 1 }, pc := 8, lend := 8, lcount := 2 } : Strand).atLend = true ∧
    ({ Strand.reset with status := { Strand.reset.status with loop := 1 }, pc := 8, lend := 8, lcount := 1 } : Strand).atLend = true := by decide
theorem witness_BranchAndJumpResult : running.ready a0 4 false [1, 2] = true ∧ running.ready a0 4 false [] = true ∧
    running.ready a0 4 false [1] = true ∧ running.ready a0 4 false [31, 1] = true := by decide
theorem witness_LoopResult : running.ready a0 4 false [2] = true ∧ (running.getG a0 2).setWidth 32 = (0 : BitVec 32) ∧
    ((running.putG a0 2 1).getG a0 2).setWidth 32 ≠ (0 : BitVec 32) ∧ ((running.putG a0 2 1).strand a0).status.loop = 0 ∧
    (running.putG a0 2 1).ready a0 4 false [2] = true := by decide
def unfetched (b : List Nat) : State := withTile (fun x => { x with icache := b }) (withStrand (fun r => { r with lineBuf := none }) mapped)
def fetches (s : State) : Bool := match s.check t0 (s.auth a0) .fetch (s.strand a0).pc.toNat (lenHere (s.strand a0).pc 4) false with
  | .ok l => !l.backstop && l.addr == 0
  | _ => false
theorem witness_FetchBeforeIssue : (State.reset.strand a0).mayIssue = false ∧ ((unfetched [0]).strand a0).mayIssue = true ∧
    fetches (unfetched [0]) = true ∧ ((unfetched [0]).tile t0).icache.contains 0 = true ∧
    fetches (unfetched []) = true ∧ ((unfetched []).tile t0).icache.contains 0 = false ∧
    ((unfetched []).strand a0).lineBuf ≠ some 0 ∧ ((unfetched []).strand a0).fetchWait = none ∧
    ((unfetched []).strand a0).lineNext ≠ some 0 ∧ ((unfetched []).strand a0).fetchFail = none := by decide
theorem witness_ScalarAccessIssues : mapped.ready a0 4 true [3, 1] = true ∧ isOk (mapped.checkHalves a0 .load 60 8) = true ∧
    isOk (mapped.checkHalves a0 .store 0x3FFFFF8 8) = false ∧ isOk (mapped.checkHalves a0 .store 0x1FFFF8 8) = true ∧
    mapped.sbRoom a0 2 = true ∧ isFail (running.checkHalves a0 .load 0 8) = true := by decide
theorem witness_LoadFromTileStore : mapped.ready a0 4 true [3, 1] = true ∧
    (match mapped.checkHalves a0 .load 248 8 with
     | .ok [(v, n, l)] => decide (v = 248 ∧ n = 8 ∧ l.target = .memory ∧ l.policy = .writeBack ∧ l.backstop = false ∧ l.addr = 248)
     | _ => false) = true ∧
    (mapped.tile t0).present 248 8 = true ∧ (mapped.tile t0).hurt 248 (wordsMet 248 8) = false ∧
    (∀ (t : TileId) (h : StrandId), (mapped.strand ⟨t, h⟩).sb = [] ∧ (mapped.strand ⟨t, h⟩).loads = []) := by decide +kernel
theorem test_ld_reads_the_line :
    (after (exec (.ld a0 { rd := 3, rs1 := 0, imm := 0 }) mapped)).getG a0 3 = 0x8877665544332211 := by decide +kernel
theorem test_lb_extends_the_sign :
    (after (exec (.lb a0 { rd := 3, rs1 := 0, imm := 7 }) mapped)).getG a0 3 = 0xFFFFFFFFFFFFFF88 := by decide +kernel
theorem test_lhu_zero_extends :
    (after (exec (.lhu a0 { rd := 3, rs1 := 0, imm := 6 }) mapped)).getG a0 3 = 0x8877 := by decide +kernel
/-- 08 R197: a word with an error that the code corrects is counted, and the load goes on with it. -/
theorem test_weak_word_is_counted :
    ((after (exec (.ld a0 { rd := 3, rs1 := 0, imm := 0 })
      (withTile (fun x => x.setLine 0 0 (some { line0 with weak := 1 })) mapped))).tile t0).tsCorr = 1 := by decide
/-- 08 R197: a dirty sector with an error that the code cannot correct is invalidated and recorded, and its region is lost. -/
theorem test_torn_dirty_word_loses_its_region :
    (after (exec (.ld a0 { rd := 3, rs1 := 0, imm := 0 })
      (withTile (fun x => x.setLine 0 0 (some { line0 with torn := 1, dirty := 1 })) mapped))).lost = [0] := by decide
theorem test_add_wraps : (after (exec (.add a0 (rf 3 1 2)) ((running.putG a0 1 (BitVec.allOnes 64)).putG a0 2 2))).getG a0 3 = 1 := by decide
theorem test_add_discards_g0 : (after (exec (.add a0 (rf 0 1 1)) (running.putG a0 1 9))).getG a0 0 = 0 := by decide
theorem test_sub_source_is_destination : (after (exec (.sub a0 (rf 1 1 2)) ((running.putG a0 1 5).putG a0 2 7))).getG a0 1 = -2 := by decide
theorem test_sra_uses_six_bits : (after (exec (.sra a0 (rf 3 1 2)) ((running.putG a0 1 (-8)).putG a0 2 65))).getG a0 3 = -4 := by decide
theorem test_div_by_zero : (after (exec (.div a0 (rf 3 1 2)) (running.putG a0 1 5))).getG a0 3 = BitVec.allOnes 64 := by decide
theorem test_beq_goes_to_its_slot : ((after (exec (.beq a0 { rs1 := 0, rs2 := 0, off := 16 }) running)).strand a0).pc = 4 ∧
    (((after (exec (.beq a0 { rs1 := 0, rs2 := 0, off := 16 }) running)).strand a0).slot.map (·.next)) = some 64 := by decide
theorem test_sd_enters_the_store_buffer :
    (((after (exec (.sd a0 { rs1 := 0, rs2 := 1, imm := 60 }) (mapped.putG a0 1 0x0807060504030201))).strand a0).sb.map fun e => (e.addr, e.bytes)) =
      [(60, [1, 2, 3, 4]), (64, [5, 6, 7, 8])] := by decide


/-- The worked example after 01 Table 01-10: from T37 to T150. -/
theorem test_mesh_transit : Machine.transitBeats (Machine.routerOf 37) (Machine.routerOf 150) = 17 := by decide
/-! ### Witnesses: special registers, exceptions, warrants and gates -/

/-- The strand can take an exception: WX, XSP and XVEC name memory of the quire. -/
def armed : State := withStrand (fun r => { r with wx := memW, xsp := 0x1000, xvec := 0x2000 }) mapped
def isChecked : Checked → Bool
  | .ok _ => true | _ => false
theorem witness_SpecialRegisterReads : running.ready a0 4 true [3] = true ∧ (rf 3 0 0).rs1 = 0 ∧ (rf 3 1 0).rs1 ≠ 0 := by decide
def vopOf (k : VKind) : VOp := running.captureVec a0 k { src := 0, masked := false, mreg := 0, gs := 1, vs2 := 3, vs1 := 2, vd := 1, imm := 0, fmtx := 0 }
theorem witness_SpecialRegisterWrites : running.ready a0 4 true [1] = true ∧ running.ready a0 4 true [3] = true ∧
    ((running.putG a0 1 2).getG a0 1).getLsbD 1 = true ∧ ((running.tile t0).aq ++ (running.tile t0).mq) = [] ∧
    (((withTile (fun x => { x with aq := [vopOf .add] }) (running.putG a0 1 2)).tile t0).aq.any (·.h == a0.h)) = true ∧
    running.ready a0 4 true [] = true := by decide
def looked : Look → Nat
  | .hit e => if bitsOf e.phys 44 20 = State.reset.device.toNat then 0 else 1
  | .fail _ _ none => 2
  | .fail _ _ (some e) => if bitsOf e.phys 44 20 = State.reset.device.toNat then 3 else 4
  | .miss => 5
/-- `mapped` with w's walk of page 32 ended without a translation that its access may use. -/
def walked (leaf : Option TlbEntry) : State := withTile (fun x => { x with
  walks := [{ page := 32, level := 1, table := 0, who := [.strand 0], wait := none, failed := some (6, 6), leaf := leaf }] }) mapped
def entry32 (phys : Nat) : TlbEntry := { entry0 with page := 32, pages := 1, phys := phys }
theorem witness_FetchControlAndPark : running.ready a0 4 false [] = true ∧ (running.strand a0).event = 0 ∧
    ((withStrand (fun r => { r with evtPend := 1, evtEn := 1 }) running).strand a0).event ≠ 0 ∧
    running.ready a0 4 true [1] = true ∧ inControl ((running.putG a0 1 0xF0000000000).getG a0 1).toNat = true ∧
    2 ^ 56 ≤ ((running.putG a0 1 0x100000000000000).getG a0 1).toNat ∧ inControl 0x1FFFFF = false ∧
    inBackstop (mapped.tile t0) 0x1FFFFF 1 = false ∧ inControl 0x200000 = false ∧ inBackstop (mapped.tile t0) 0x200000 1 = false ∧
    looked (lookTlb (mapped.tile t0) (.strand 0) 31) = 0 ∧ looked (lookTlb (mapped.tile t0) (.strand 0) 32) = 5 ∧
    looked (lookTlb ((withTile (fun x => { x with tlb := [{ entry0 with phys := 3 * 2 ^ 44 }] }) mapped).tile t0) (.strand 0) 31) = 1 ∧
    looked (lookTlb ((walked none).tile t0) (.strand 0) 32) = 2 ∧ looked (lookTlb ((walked (entry32 0)).tile t0) (.strand 0) 32) = 3 := by decide
theorem witness_StrandControlCommands : (running.strand a0).run = .running ∧
    ((withStrand (fun r => { r with haltReq := true }) running).strand a0).haltReq = true ∧ (running.strand a0).hold = none ∧
    (running.strand a0).atBoundary = true ∧ (running.tile t0).use = .normal ∧ (State.reset.strand a0).run = .halted ∧
    (State.reset.tile t0).use = .normal := by decide
/-- Strand 0 has enabled lines 4 and 31 pending, and hush clear. -/
def eventful (lines : BitVec 32) : State :=
  withStrand (fun r => { r with evtPend := lines, evtEn := lines, status := { r.status with hush := false } }) running
theorem witness_EventEntryTaken : ∀ i ∈ [0, 31], (let r := (eventful (1#32 <<< i)).strand a0
    r.run = .running ∧ r.hold = none ∧ r.atBoundary = true ∧ r.haltReq = false ∧ r.recur = none ∧ r.late = [] ∧ r.status.hush = false ∧ r.status.bs = false ∧
    r.readback = false ∧ (∀ g ∈ frameRegs, r.busy g = false) ∧ r.event.getLsbD i = true ∧ (∀ j < i, r.event.getLsbD j = false)) := by decide
def framed (s : State) : Bool := let w := s.walkEntry a0 1; let r := s.strand a0
  ((w.countTile t0 7 1).enterTile a0).putFrame a0 (w.entryAuth a0) r.frameAt (frameBytes r r.pc 1 0) [0, 64] |>.isSome
/-- A line that a fill is bringing: a frame that goes there has to wait. -/
def coming : State := withTile (fun x => { x with
  asks := [{ tag := 0, kind := .fill none true, h := 0, va := 0xF80, addr := 0xF80, remote := false }] }) armed
theorem witness_ExceptionEntrySaves : (armed.strand a0).status.bs = false ∧ (armed.strand a0).entryClear = true ∧
    (armed.walkEntry a0 1).entryFailure a0 1 = none ∧ (armed.walkEntry a0 0x3F).entryFailure a0 0x3F = none ∧ framed armed = true ∧
    (coming.strand a0).entryClear = true ∧ (coming.walkEntry a0 1).entryFailure a0 1 = none ∧ framed coming = false ∧
    ((withStrand (fun r => { r with readback := true }) armed).strand a0).entryClear = false := by decide +kernel
theorem witness_EscalationAndStop : (running.strand a0).entryClear = true ∧ (running.strand a0).status.bs = false ∧
    (running.walkEntry a0 1).entryFailure a0 1 = some (cWarrant, 0, 0) ∧
    ((withStrand (fun r => { r with status := { r.status with bs := true } }) running).strand a0).status.bs = true ∧
    (let r := (withStrand (fun r => { r with recur := some (Cause.sync 0x0D 0 0, 0) }) running).strand a0
     r.recur.isSome = true ∧ r.run = .running ∧ r.hold = none ∧ r.atBoundary = true ∧ r.haltReq = false ∧ r.status.bs = false ∧
     r.entryClear = true) := by decide
def inHandler : State := withStrand (fun r => { r with
  frames := [{ savedw15 := 0, retpc := 0, savedvis := 0, exc := true }], status := { r.status with gdepth := 1 } }) armed
theorem witness_ExceptionReturnIssues : running.ready a0 4 false frameRegs = true ∧
    ((withStrand (fun r => { r with status := { r.status with bs := true } }) running).strand a0).sb = [] ∧
    (withStrand (fun r => { r with status := { r.status with bs := true } }) running).ready a0 4 false frameRegs = true ∧
    inHandler.ready a0 4 false frameRegs = true ∧ ((inHandler.strand a0).frames.head?.map (·.exc)) = some true ∧
    (inHandler.strand a0).status.gdepth ≠ 0 ∧ isOk (inHandler.checkFrame a0 (framePieces (inHandler.strand a0).xsp) []) = true ∧
    ({ savedw15 := 0, retpc := 0, savedvis := 0, exc := false } : EntryFrame).exc = false := by decide +kernel
theorem witness_FrameRoundTrip : ((withStrand (fun r => { r with readback := true }) running).strand a0).readback = true ∧
    (1 : BitVec 5) ∈ frameRegs ∧ (2 : BitVec 5) ∉ frameRegs := by decide
def gateW : Warrant := BitVec.ofNat 128 (2 + 1 * 2 ^ 4 + 0x3F * 2 ^ 24 + 2 ^ 31 + 16 * 2 ^ 32 + 2 ^ 38)
def groupW : Warrant := BitVec.ofNat 128 (4 + 1 * 2 ^ 4 + 7 * 2 ^ 24 + 2 ^ 31 + 4096 * 2 ^ 44 + 0x100000 * 2 ^ 84)
def signalW : Warrant := BitVec.ofNat 128 (5 + 1 * 2 ^ 4 + 2 ^ 24 + 2 ^ 31 + 191 * 2 ^ 32 + 7 * 2 ^ 40 + 31 * 2 ^ 43)
def quireW : Warrant := BitVec.ofNat 128 (6 + 1 * 2 ^ 4 + 0xFFFF * 2 ^ 8 + 0xF * 2 ^ 24 + 2 ^ 31)
/-- `mapped` with a warrant in w1. -/
def holds (w : Warrant) : State := withStrand (fun r => { r with wregs := Sparse.set 0 r.wregs 1 w }) mapped
theorem witness_WarrantMovesAndNarrowings : mapped.ready a0 4 true [1, 2] = true ∧ mapped.holdsWarrant a0 0 memW = true ∧
    memW.derive = true ∧ mapped.mayWriteW a0 5 = true ∧ mapped.mayWriteW a0 0 = true ∧
    (holds (memW &&& ~~~ (0x80000000 : BitVec 128))).holdsWarrant a0 1 (memW &&& ~~~ (0x80000000 : BitVec 128)) = true ∧
    (memW &&& ~~~ (0x80000000 : BitVec 128)).derive = false ∧
    (mapped.tile t0).seen (mapped.strand a0) 14 = some 0 ∧ wregOk 14 = true ∧
    (∃ v, memW.bound 0 0x10000 = .ok v) ∧ memW.kind = 1 ∧ memW.top < 0x4000001 ∧
    (holds groupW).holdsWarrant a0 1 groupW = true ∧ groupW.kind = 4 ∧ groupW.firstGroup ≤ 4095 ∧ 4095 + 1 ≤ groupW.firstGroup + groupW.groupCount ∧
    groupW.firstDevice ≤ 0xFFFFF ∧ 0xFFFFF + 1 ≤ groupW.firstDevice + groupW.deviceCount ∧
    (mapped.tile t0).floor.toNat ≤ 0 ∧ memW.epoch < 1 := by
  and_intros <;> first | exact ⟨_, rfl⟩ | decide
theorem witness_NarrowingNeverWidens : memW.kind = 1 ∧ ∃ v, memW.bound 0x3FF0000 0x10000 = .ok v := ⟨by decide, _, rfl⟩
def memAt (p : Policy) : Xlate := { target := .memory, addr := 0x1FFFF0, policy := p, isSeal := true, backstop := false }
/-- No credit of any stack port is left to tile 0. -/
def uncredited : State := withTile (fun x => { x with credits := (List.range 12).map fun m => (m, 0) }) mapped
def sealed : State := withTile (fun x => { x with tlb := [{ entry0 with isSeal := true }] }) mapped
theorem witness_WarrantLoadsAndStores : mapped.ready a0 4 true [1] = true ∧ ((mapped.putG a0 1 8).getG a0 1).toNat % 16 ≠ 0 ∧
    sealed.holdsWarrant a0 0 memW = true ∧ sealed.mayWriteW a0 0 = true ∧ sealed.sbRoom a0 2 = true ∧
    isChecked (sealed.check t0 (sealed.auth a0) .sealStore 16 16 true) = true ∧
    isChecked (sealed.check t0 (sealed.auth a0) .sealLoad 0x1FFFF0 16 true) = true ∧
    sealed.hasCredit a0.t false (bigParts [(0x1FFFF0, 16, memAt .writeBack)]) = true ∧
    uncredited.hasCredit a0.t false (bigParts [(0x1FFFF0, 16, memAt .uncached)]) = false := by decide +kernel
theorem witness_GateCallAndReturn : ((holds gateW).strand a0).readback = false ∧ (holds gateW).ready a0 4 false [2] = true ∧
    (holds gateW).holdsWarrant a0 1 gateW = true ∧ gateW.kind = 2 ∧ gateW.bit 24 = true ∧ gateW.bit 27 = true ∧
    ((holds gateW).strand a0).status.gdepth ≠ 31 ∧ (holds gateW).pushOk a0 = true ∧ ((holds gateW).strand a0).status.bs = false ∧
    ((withStrand (fun r => { r with status := { r.status with gdepth := 31 } }) (holds gateW)).strand a0).status.gdepth = 31 ∧ ((holds gateW).strand a0).status.gdepth = 0 ∧
    (let s := withStrand (fun r => { r with frames := [{ savedw15 := 0, retpc := 8, savedvis := 0, exc := false }],
                                            status := { r.status with gdepth := 1 } }) mapped
     s.ready a0 4 false [] = true ∧ (s.strand a0).frames.head?.isSome = true ∧ (s.strand a0).status.gdepth ≠ 0) := by decide +kernel
theorem witness_FloorAndTranslation : (holds quireW).ready a0 4 true [1] = true ∧ (holds quireW).holdsWarrant a0 1 quireW = true ∧
    quireW.kind = 6 ∧ quireW.bit 24 = true ∧ ((holds quireW).tile t0).floor.toNat < 0xFFFF ∧ 0xFFFF ≤ quireW.epoch ∧
    ((withStrand (fun r => { r with hold := some (.quireFloor 3) }) mapped).strand a0).hold = some (.quireFloor 3) ∧
    running.ready a0 4 true [] = true := by decide +kernel
theorem witness_AtomicIssues : mapped.ready a0 4 true [3, 1, 2] = true ∧ amoOk 0x14 = true ∧ amoOk 0xB4 = false ∧
    (3 : Nat) % amoSize 0x14 ≠ 0 ∧ isChecked (mapped.check t0 (mapped.auth a0) .atomic 0x1FFFF8 (amoSize 0x14) true) = true ∧
    mapped.hasCredit t0 true [⟨0x1FFFF8, 0x1FFFF8, 8, .memory, .writeBack, false, .waiting⟩] = true ∧
    uncredited.hasCredit t0 true [⟨0x1FFFF8, 0x1FFFF8, 8, .memory, .writeBack, false, .waiting⟩] = false := by
  decide +kernel
/-- 03 R83: an illegal instruction enters at XVEC + 16 × 0x01, a frame of 128 bytes below the old XSP. -/
theorem test_illegal_instruction_enters : (let r := (after (exec (.clz a0 (rf 3 1 2)) armed)).strand a0
    (r.pc, r.xsp, r.cause.toNat % 256, r.status.gdepth)) = (0x2010, 0xF80, 1, 1) := by decide +kernel
theorem test_illegal_instruction_escalates : (let r := (after (exec (.clz a0 (rf 3 1 2)) running)).strand a0
    (r.bsCause.toNat % 256, r.bsCount, r.status.bs)) = (cWarrant, 1, true) := by decide +kernel

/-! ### Witnesses: vector and tile instructions -/

def vf (vd vs1 vs2 : BitVec 5) (imm : BitVec 16) : VF :=
  { src := 0, masked := false, mreg := 0, gs := 1, vs2 := vs2, vs1 := vs1, vd := vd, imm := imm, fmtx := 0 }
/-- Four elements of INT32, and charge to spend. -/
def vec : State := withTile (fun x => { x with egBal := 100000, hold := false, cfg := 0 })
  (withStrand (fun r => { r with vfmt := 3, vlen := 4 }) mapped)
def addOp : VOp := vec.captureVec a0 .add (vf 4 8 12 0)
def ldOp : VOp := { vec.captureVec a0 .ld (vf 4 0 0 0) with stride := 0 }
def vecAt (o : VOp) (mem : Bool) : State := withTile (fun x => if mem then { x with mq := [o] } else { x with aq := [o] }) vec
theorem witness_VectorInstructionIssue : vec.ready a0 8 false (vecRegs .add (vf 4 8 12 0)) = true ∧ addOp.legal = true ∧
    (vec.captureVec a0 .cmpeq (vf 9 8 12 0)).legal = false ∧ (vec.tile t0).aq.length < 8 ∧ addOp.unmarked (vec.tile t0) = true ∧
    (vec.tile t0).grants 0 addOp.charge = true ∧ (List.replicate 8 addOp).length = 8 ∧ ldOp.legal = true ∧
    (vec.strand a0).trap = none ∧ addOp.unmarked ((vecAt (vec.captureVec a0 .ld (vf 8 0 0 0)) true).tile t0) = false ∧
    ((withTile (fun x => { x with egBal := 0 }) vec).tile t0).grants 0 addOp.charge = false ∧
    ((withStrand (fun r => { r with trap := some ⟨1, 0, false⟩ }) vec).strand a0).trap.isSome = true := by decide +kernel
theorem witness_VectorStateInstructions : (vf 1 2 0 12).src = 0 ∧ (vf 1 2 0 12).fmtx = 0 ∧ (vec.strand a0).trap = none ∧ vec.ready a0 8 false [2, 1] = true ∧ vec.ready a0 8 false [1] = true ∧
    bitsOf (12 : BitVec 16).toNat 2 4 = 3 ∧ bitsOf (0 : BitVec 16).toNat 2 4 = 0 ∧ bitsOf (60 : BitVec 16).toNat 2 4 = 15 ∧
    roundingOk 0 = true ∧ roundingOk 7 = false ∧ (vec.getG a0 1).toNat ≤ vlmax (bitsOf (vec.strand a0).vfmt.toNat 0 4) (vec.strand a0).vgrp.toNat ∧
    vlmax 3 0 < ((vec.putG a0 1 0x10000).getG a0 1).toNat ∧ bitsOf (15 : Nat) 0 4 = 15 := by decide
theorem witness_VectorPipesComplete :
    (let s := vecAt ldOp true; let x := s.tile t0
     x.mq = [ldOp] ∧ (x.strand 0).sb = [] ∧ ldOp.nextUnit x = some 0 ∧ ldOp.bad = none ∧ ldOp.wait = none ∧ ldOp.kind.isLoad = true ∧
     (ldOp.addrOf x 0).toNat % ldOp.size = 0 ∧
     s.check t0 ldOp.auth .load (ldOp.addrOf x 0).toNat ldOp.size false =
       .ok { target := .memory, addr := 0, policy := .writeBack, isSeal := false, backstop := false } ∧
     x.amoWaiting none 0 ldOp.size = false ∧ x.hurt 0 (wordsMet 0 ldOp.size) = false ∧ x.present 0 ldOp.size = true) ∧
    ((vecAt addOp false).tile t0).aq = [addOp] ∧ addOp.kind.isWhole = false ∧
    (addOp.run ((vecAt addOp false).tile t0) ((List.range (addOp.vlen / addOp.kind.unitSize)).drop 0) ((vecAt addOp false).tile t0) 0).2.2 = none ∧
    ({ ldOp with next := 4 } : VOp).nextUnit (vec.tile t0) = none := by decide +kernel
def mf (fmt : BitVec 4) : MF :=
  { ta := 0, tb := 0, row := 0, arr := 0, acc := 0, nt := false, ch := false, fmt := fmt, uns := false, mx := false, boff := 0, z47 := false, mask := 0 }
def zero0 : TInstr := .mem .taczero
  { ta := 0, gt := 0, gs := 0, arr := 0, acc := 0, tosl := false, nt := false, z0 := false, nrow := 0, drow := 0, rl := 0, mode := 0, fm := 0,
    fo := 0, pk := false, raw := false, z60 := 0 }
theorem witness_TileInstructionIssue : vec.ready a0 8 false zero0.regs = true ∧ (vec.strand a0).tfault.getLsbD 24 = false ∧
    (vec.strand a0).status.bs = false ∧ zero0.legal vec.grade768 = true ∧ zero0.reason (vec.tile t0).cfg (vec.tile t0).wlast = none ∧
    (vec.tile t0).queued < 8 ∧ (vec.tile t0).grants 0 (zero0.charge 0 (vec.tile t0).cfg) = true ∧ (vec.strand a0).entryClear = true ∧
    ((withStrand (fun r => { r with readback := true }) vec).strand a0).entryClear = false ∧
    ((withTile (fun x => { x with egBal := 0 }) vec).tile t0).grants 0 (zero0.charge 0 0) = false ∧
    (TInstr.mat .tham (mf 7)).legal vec.grade768 = true ∧
    (TInstr.mat .tham (mf 7)).reason (vec.tile t0).cfg (vec.tile t0).wlast ≠ none ∧
    (TInstr.mat .tmma { mf 7 with z47 := true }).legal vec.grade768 = false := by decide +kernel
def cf : CF := { sel := 0, z12 := 0, gs := 1, rd := 0, z0 := 0, hi := 0 }
theorem witness_TileControlInstructions : vec.tileFree a0 = true ∧ CF.ok cf 0 = true ∧ vec.ready a0 8 false [1] = true ∧
    badRounding (vec.getG a0 1) = false ∧ (vec.tile t0).cfgFree (vec.cfgValue (vec.getG a0 1)) = true ∧
    isOk (vec.checkSectors a0 .load 1 0x1FFFC0 []) = true ∧ (vec.strand a0).sb = [] ∧
    isOk (vec.checkSectors a0 .store 1 0x1FFFC0 []) = true ∧ vec.ready a0 8 false [0] = true ∧ vec.ready a0 8 false [] = true ∧
    (vec.tile t0).tq = [] ∧
    (vec.tile t0).sectorRoom (memAt .writeBack) = true ∧ CF.ok { cf with sel := 1 } 1 = true := by decide +kernel
/-- The tile queue with a clearing of slot A0.0, granted. -/
def queued : State := withTile (fun x => { x with tq := x.tq.map fun o => { o with granted := true } }) (vec.enqueueTile a0 zero0 60)
def loadQ : TInstr := .mem .tld
  { ta := 0, gt := 0, gs := 0, arr := 0, acc := 0, tosl := false, nt := false, z0 := false, nrow := 1, drow := 0, rl := 0, mode := 0, fm := 0,
    fo := 0, pk := false, raw := false, z60 := 0 }
def loading : State := withTile (fun x => { x with tq := x.tq.map fun o => { o with begun := true } }) (vec.enqueueTile a0 loadQ 200)
theorem witness_TileInstructionRoundTrip : ∃ o, (queued.tile t0).tq[0]? = some o ∧ ({ o with held := true } : TOp).h = a0.h ∧
    o.instr.isLoad = false ∧ o.instr.legal queued.grade768 = true ∧ o.ia.toNat < 2 ^ 48 ∧ o.gen < 2 ^ 64 := ⟨_, rfl, by decide +kernel⟩
theorem witness_TileQueueAtWork :
    (∃ o, (queued.tile t0).tq[0]? = some o ∧ o.held = false ∧ o.begun = false ∧ o.granted = true ∧ (queued.tile t0).mayBegin 0 o = true) ∧
    (∃ o, (loading.tile t0).tq[0]? = some o ∧ o.begun = true ∧ o.row < o.memRows ∧ o.bad = none ∧ o.wait = none ∧ o.instr.stores = false ∧ o.held = false ∧ o.misaligned = false ∧
      loading.check t0 o.access .load o.addr.toNat 1 false = .ok { target := .memory, addr := 0, policy := .writeBack, isSeal := false, backstop := false } ∧
      (let n := loading.pieceLen t0 o .load { target := .memory, addr := 0, policy := .writeBack, isSeal := false, backstop := false }
       (loading.tile t0).amoWaiting none 0 n = false ∧ (loading.tile t0).hurt 0 (wordsMet 0 n) = false ∧ (loading.tile t0).present 0 n = true)) ∧
    (∃ o, ((after (exec (.tileOpBegin t0 0) queued)).tile t0).tq[0]? = some o ∧ ((after (exec (.tileOpBegin t0 0) queued)).tile t0).mayCommit 0 o = true) ∧
    (let x := ((withTile (fun x => { x with smooth := true, arrOff := 0 }) vec).tile t0)
     x.smooth = true ∧ x.arrOff.getLsbD 2 = false ∧ 2 < vec.arrays ∧ x.arrayIdle 2 = true ∧ x.noWave = true) ∧
    (State.reset.tile t0).hold = true ∧ badRounding 0 = false ∧ (vec.tile t0).cfgFree (vec.cfgValue 0) = true :=
  ⟨⟨_, rfl, by decide +kernel⟩, ⟨_, rfl, by decide +kernel⟩, ⟨_, rfl, by decide +kernel⟩, by decide +kernel⟩
theorem test_taczero_commits_and_leaves : ((after (exec (.tileOpCommit t0 0) (after (exec (.tileOpBegin t0 0) queued)))).tile t0).tq = [] := by
  decide +kernel
theorem test_vadd_adds_four_elements :
    (let s := after (exec (.vectorOpComplete t0 .arith) (withTile (fun x => ((({ x with aq := [addOp] } : Tile).setElem 8 32 3 5).setElem 12 32 3 7)) vec))
     ((s.tile t0).elem 4 32 3, (s.tile t0).aq.length)) = (12, 0) := by decide +kernel

/-! ### Witnesses: tile store, mesh and memory -/

def load7 : PendingLoad := { kind := .reg true, rd := 3, len := 8, seq := 0, isSeal := false, parts := [
  { va := 0, addr := 0, len := 8, target := .memory, policy := .writeBack, backstop := false, state := .asked 7 }] }
def ask0 (k : AskKind) : Ask := { tag := 7, kind := k, h := 0, va := 0, addr := 0, remote := false }
def pkt (c : MeshClass) (src dst : MeshPort) (b : Body) : MPacket :=
  { cls := c, src := src, dst := dst, tag := 7, quire := 1, isSeal := false, copy := false, body := b }
def ctrlW : Warrant := BitVec.ofNat 128 (3 + 1 * 2 ^ 4 + 3 * 2 ^ 24 + 24 * 2 ^ 32 + 2 ^ 38 + 0xF0000000000 * 2 ^ 64)
/-- Tile 0 waits for a request whose answer stands in its inbox. -/
def answeredBy (k : AskKind) (b : Body) : State :=
  withTile (fun x => { x with asks := [ask0 k], inbox := [pkt .response (.stack 0) (.tile t0) b] }) mapped
def tended : Tended → Bool
  | .done _ => true | _ => false
theorem witness_FencesAndMaintenance : mapped.ready a0 4 true [] = true ∧ (mapped.strand a0).loads = [] ∧
    ((withStrand (fun r => { r with loads := [load7] }) mapped).strand a0).loads ≠ [] ∧
    (((mapped.sendMerges a0).strand a0).loads = [] ∧ ((mapped.sendMerges a0).tile t0).storesDone 0 = true) ∧
    (let s := withTile (fun x => { x with asks := [ask0 .store] }) mapped
     s.ready a0 4 true [] = true ∧ ((s.sendMerges a0).tile t0).storesDone 0 = false) ∧
    mapped.ready a0 4 true [1] = true ∧ isChecked (mapped.check t0 (mapped.auth a0) Upkeep.cleanInv.need 192 64 false) = true ∧
    tended (mapped.upkeepSector a0 .cleanInv { target := .memory, addr := 192, policy := .writeBack, isSeal := false, backstop := false }) = true ∧
    mapped.ready a0 4 true [1, 2] = true ∧ (mapped.getG a0 2).toNat = 0 ∧
    (match mapped.upkeepParts a0 .clean (sectorsOf 192 64) with | .done _ => true | _ => false) = true ∧
    tended (mapped.upkeepLine a0 .inv 1535 15) = true ∧ (holds ctrlW).ownsTile a0 = true ∧ (holds ctrlW).ready a0 4 true [1] = true ∧
    (∀ k ∈ (mapped.tile t0).asks, k.kind.isFill = false) ∧
    tended (((mapped.tile t0).mbuf.foldl (fun s l => s.sendMerge t0 l) mapped).upkeepLines a0 .inv ((mapped.tile t0).lines.map (·.1))) = true := by
  decide +kernel
def stream0 (base : Word) : Stream :=
  { base := base, stride := 64, count := 2, dist := 1, done := 0, strand := 0, depth := 0, state := .running, ahead := [] }
def streams (base : Word) : State := withTile (fun x => x.setStream 15 (some (stream0 base))) mapped
theorem witness_PrefetchInstructions : mapped.ready a0 4 true [1] = true ∧
    (match mapped.probe a0 (.line 0 0x1FFFFF) 0x1FFFFF with | .line _ => true | _ => false) = true ∧
    (match mapped.probe a0 (.line 0 0xF0000000000) 0xF0000000000 with | .dropped => true | _ => false) = true ∧
    (match mapped.probe a0 (.line 0 0x4000000) 0x4000000 with | .failed => true | _ => false) = true ∧
    (match mapped.probe a0 (.line 0 0x200000) 0x200000 with | .walk _ => true | _ => false) = true ∧
    (let s := (mapped.putG a0 1 0).putG a0 2 0x0001000100000040
     let v := (s.getG a0 2).toNat
     s.ready a0 4 true [1, 2] = true ∧ v % 2 ^ 32 ≠ 0 ∧ v % 64 = 0 ∧ bitsOf v 48 8 ≠ 0 ∧ v < 2 ^ 56) ∧
    mapped.ready a0 4 true [3, 1] = true ∧
    (let s := streams 0xF0000000000
     (s.tile t0).stream 15 = some (stream0 0xF0000000000) ∧ (s.tile t0).tsCtl.getLsbD 1 = true ∧ (s.strand a0).status.gdepth = 0 ∧
     (s.strand a0).status.bs = false ∧ ((s.tile t0).streamAhead (stream0 0xF0000000000)).length < 1 ∧
     (match s.probe a0 (.stream 15) 0xF0000000000 with | .dropped => true | _ => false) = true) ∧
    (match (streams 0x4000000).probe a0 (.stream 15) 0x4000000 with | .failed => true | _ => false) = true ∧
    (match (streams 0x100).probe a0 (.stream 15) 0x100 with | .line l => decide (l.addr = 0x100) | _ => false) = true ∧
    ((streams 0x100).tile t0).present 0x100 256 = false ∧ (mapped.tile t0).present 0 256 = true := by decide +kernel
def entry7 : SbEntry :=
  { seq := 0, va := 0, addr := 248, bytes := [1, 2, 3, 4, 5, 6, 7, 8], target := .memory, policy := .writeBack, isSeal := false, backstop := false }
def merge7 : MergeEntry := { addr := 64, mask := 1, data := 5, isSeal := false, owners := [.strand 0] }
theorem witness_TileTraffic :
    (let s := withStrand (fun r => { r with fetchWait := some 7 }) (answeredBy .fetch (.data [(0, [])]))
     (s.strand a0).fetchWait = some 7 ∧ ((s.tile t0).asks.find? (·.tag == 7)).isSome = true ∧ ((s.tile t0).takeAnswer 7).isSome = true) ∧
    (let s := withStrand (fun r => { r with loads := [load7] }) (answeredBy .read (.data [(0, [1, 2, 3, 4, 5, 6, 7, 8])]))
     (s.strand a0).loads[0]? = some load7 ∧ (s.tile t0).asks.find? (·.tag == 7) = some (ask0 .read) ∧
     ((s.tile t0).takeAnswer 7).map (·.1.body) = some (.data [(0, [1, 2, 3, 4, 5, 6, 7, 8])])) ∧
    (let s := withStrand (fun r => { r with sb := [entry7] }) mapped
     (s.strand a0).sb = [entry7] ∧ (s.strand a0).blocked entry7 = false ∧ (s.drainEntry a0 entry7).1 = true) ∧
    ((answeredBy (.fill none true) (.data [(0, List.replicate 64 1)])).tile t0).firstAnswer AskKind.isFill =
      some (ask0 (.fill none true), pkt .response (.stack 0) (.tile t0) (.data [(0, List.replicate 64 1)])) ∧
    ((answeredBy (.fill none true) (.fail { code := cMemory, check := 0 })).tile t0).firstAnswer AskKind.isFill =
      some (ask0 (.fill none true), pkt .response (.stack 0) (.tile t0) (.fail { code := cMemory, check := 0 })) ∧
    ((withTile (fun x => { x with mbuf := [merge7] }) mapped).tile t0).mbuf[0]? = some merge7 ∧
    ((answeredBy (.merged [.strand 0]) (.fail { code := cRegion, check := 6 })).tile t0).firstAnswer AskKind.isWriteback =
      some (ask0 (.merged [.strand 0]), pkt .response (.stack 0) (.tile t0) (.fail { code := cRegion, check := 6 })) := by decide +kernel
/-- Memory is open, channel 0 is live with one queued read, and region 0 belongs to quire 1. -/
def memory : State :=
  let s := mapped.setChan 0 { Chan.reset with state := .live, queue := [pkt .request (.tile t0) (.stack 0) (.read 0 8)] }
  ({ s with mem := { s.mem with isOpen := true } } : State).setRegion 0 { state := .assigned, quire := 1, isSeal := false, gen := false }
def walk0 (tag : Option Nat) : Walk := { page := 1, level := 1, table := 0, who := [.strand 0], wait := tag, failed := none, leaf := none }
/-- Tile 0's walk has asked for its first entry, and the answer stands in its inbox. -/
def walking (b : Body) : State :=
  withTile (fun x => { x with walks := [walk0 (some 7)], asks := [ask0 .walk], inbox := [pkt .response (.stack 0) (.tile t0) b] }) memory
def walkedOn (v : Nat) : Nat := match walkOn ((walking .done).setTile t0 ((walking .done).tile t0)) 1 1 1 v with
  | .next b => b | .done _ => 1 | .fail .. => 2
theorem witness_MemoryRequestPath :
    (let p := pkt .response (.stack 0) (.tile t0) (.credit 0)
     firstPacket [p] .response (.stack 0) (.tile t0) = some p) ∧
    (let p := pkt .response (.stack 0) (.tile t0) .done
     firstPacket [p] .response (.stack 0) (.tile t0) = some p ∧ (match p.body with | .credit _ => false | _ => true) = true ∧
     ([].filter fun q : MPacket => q.cls == p.cls).length < 4 ∧ 4 ≤ ([p, p, p, p].filter fun q => q.cls == p.cls).length) ∧
    (let p := pkt .request (.tile t0) (.stack 0) (.read 0 8)
     firstPacket [p] .request (.tile t0) (.stack 0) = some p ∧ ((mapped.setStack 0 { Stack.reset with ingress := [p] }).stackOf 0).ingress = [p] ∧
     (mapped.chan (mapped.channelOf p.body.addr)).quiet = false ∧
     (mapped.setStack 0 { Stack.reset with held := List.replicate 256 (0, p) }).portFull 0 0 = true) ∧
    (let s := mapped.setChan 0 { Chan.reset with retrain := .training }
     s.portFull 0 0 = false ∧ (s.chan 0).quiet = true) ∧
    mapped.mem.isOpen = false ∧ (mapped.chan 0).quiet = false ∧ memory.mem.isOpen = true ∧ (memory.chan 0).slot % 8 < (memory.stackOf 0).level ∧
    (memory.choose 0).isSome = true ∧ ((memory.setStack 0 { Stack.reset with level := 0 }).stackOf 0).level ≤ (memory.chan 0).slot % 8 ∧
    (Ecc.bad ≠ .ok) ∧ memory.channelOf 0 = 0 ∧
    ((memory.setChan 0 ((memory.chan 0).take 0)).refuses 1 false false 0).isNone = true ∧
    ((walking .done).tile t0).walks[0]? = some (walk0 (some 7)) ∧ (((walking .done).tile t0).takeAnswer 7).isSome = true ∧
    ((withTile (fun x => { x with walks := [walk0 none] }) memory).tile t0).walks[0]? = some (walk0 none) ∧
    walkedOn (3 + 0x10000) = 0x10000 ∧ walkedOn 0 = 2 ∧
    (match walkOn memory 1 1 4 1 with | .done _ => true | _ => false) = true := by decide +kernel
theorem witness_MemoryRequestPath_portFree : mapped.portFull 0 0 = false := by
  have h : (mapped.chan 0).queue.length = 0 := by decide
  simp [State.portFull, h]; decide
theorem witness_MemoryPerforms : (List.replicate 64 (1 : Byte)).length ≤ 64 ∧ (5 : Nat) ≤ 5 ∧ 5 < 5 + 64 ∧ (1#64).getLsbD (5 - 5) = true := by
  decide
def chanIn (c : Chan) : State := memory.setChan 0 c
theorem witness_ChannelAndRegionEvents :
    ((memory.setStack 0 { Stack.reset with stopped := true }).stackOf 0).stopped = true ∧ (memory.stackOf 0).patrolEn = true ∧
    (memory.stackOf 0).stopped = false ∧ 32 * 0 < memory.memTop ∧ memory.channelOf 0 / 32 = 0 ∧ (memory.chan 0).state = .live ∧
    (memory.chan 0).quiet = false ∧ (memory.stackOf 0).level ≠ 0 ∧ memory.retraining ((List.range 32).map (0 + ·)) = 0 ∧
    memory.retraining (List.range 640) < 8 ∧ (memory.stackOf 0).period ≤ (memory.stackOf 0).period ∧
    ((chanIn { Chan.reset with state := .live, due := true }).chan 0).due = true ∧ ((chanIn { Chan.reset with retrain := .quiescing }).chan 0).retrain = .quiescing ∧
    ((chanIn { Chan.reset with retrain := .training }).chan 0).retrain = .training ∧
    ((chanIn { Chan.reset with retrain := .resuming, fails := 1 }).chan 0).retrain = .resuming ∧
    ((chanIn { Chan.reset with retrain := .resuming, fails := 1 }).chan 0).fails < 2 ∧
    (memory.chan 0).state ≠ .dead ∧ (memory.chan 0).state ≠ .mappedOut ∧ (memory.chan 0).state ≠ .untrained ∧
    ({ memory.mem with restripe := .waiting } : Mem).restripe = .waiting ∧ memory.mem.restripe ≠ .waiting ∧
    ({ memory.mem with restripe := .running } : Mem).restripe = .running ∧ (memory.chan memory.mem.target).state ≠ .dead ∧ memory.mem.errs = [] ∧
    (memory.region 0).state = .assigned ∧ ((memory.setRegion 0 { Region.reset with state := .rotating }).region 0).state = .rotating ∧
    0 + 4096 < capacity (640 - 1) * 2 ^ 22 ∧ capacity (640 - 1) * 2 ^ 22 ≤ (capacity (640 - 1) * 2 ^ 22 - 1) + 4096 ∧
    ((memory.setQuire 1 { Quire.reset with sweep := some { slot := true, todo := [0] } }).quire 1).sweep = some { slot := true, todo := [0] } ∧
    memory.anyStopped = false ∧
    (((memory.setRegion 5 { Region.reset with state := .scrubbing, quire := 1 }).mem.regions.find? fun e => e.2.quire == 1 && e.2.state == .scrubbing).isSome
      = true) := by decide +kernel

/-! ### Worked examples of the spec: memory -/

/-- 09, the worked example after Table 09-2: local address 0x12_3456_7880 lies on channel 530 of a new module, in region 37,282. -/
theorem test_address_function : State.reset.channelOf 0x1234567880 = 530 ∧ 0x1234567880 / 2 ^ 21 = 37282 := by decide +kernel
/-- 09, the worked example of the restripe: once the watermark has passed it, the address lies on channel 45; before that on 530. -/
theorem test_restripe_example :
    (let s : State := { State.reset with mem := { State.reset.mem with restripe := .running, removed := [530], target := 530, oldidx := 376 } }
     (({ s with mem := { s.mem with wm := 305419897 } } : State).channelOf 0x1234567880,
      ({ s with mem := { s.mem with wm := 305419896 } } : State).channelOf 0x1234567880)) = (45, 530) := by decide +kernel
/-- 09 R219, Table 09-2. -/
theorem test_capacity : capacity 640 = 1248 ∧ capacity 624 = 1248 ∧ capacity 623 = 1246 := by decide
/-- 09 R233: a level entered at T + 3 °C is left at T + 1 °C. -/
theorem test_throttle_levels : nextLevel 95 (4 * 98) 8 = 4 ∧ nextLevel 95 (4 * 96 + 1) 4 = 4 ∧ nextLevel 95 (4 * 96) 4 = 5 ∧ nextLevel 95 (4 * 105) 1 = 0 := by
  decide
/-- 09 R252, Table 09-7: integer add wraps, cas takes the new value where the old is the one compared with. -/
theorem test_amo_elements : amoElement 1 3 0xFFFFFFFF 2 0 = 1 ∧ amoElement 8 3 5 9 5 = 9 ∧ amoElement 8 3 5 9 6 = 5 := by decide +kernel

/-! ### Witnesses: the Splice and groups -/

def withPort (f : Port → Port) : State := mapped.setPort 0 (f (mapped.port 0))
def training (st : TrainStep) : State := withPort fun x => { x with state := .training, step := st }
def offer : PeerOffer := { chainOk := true, svn := 0, device := 3, port := 1, dim := 0, minus := true, slot := 0, incarnation := 1 }
/-- Port 0 is a member in dimension 0, a ring in which device 3 is next to this device. -/
def cabled : State :=
  let s := (training .keys).setPort 0 { (training .keys).port 0 with member := true }
  { s with device := 2, splice := { s.splice with dims := [(0, { size := 8, ring := true })] } }
theorem witness_SplicePortStates : (mapped.port 0).state = .off ∧ ((withPort fun x => { x with state := .failed, en := true }).port 0).state = .failed ∧
    ((withPort fun x => { x with state := .failed, en := true }).port 0).en = true ∧ ((training .adaptation).port 0).state = .training ∧
    ((training .adaptation).port 0).step = .adaptation ∧ ((training .alignment).port 0).step = .alignment ∧ ((training .keys).port 0).step = .keys ∧
    offer.chainOk = true ∧ (training .keys).peerSvn ≤ offer.svn ∧ ((training .keys).port 0).member = false ∧ (cabled.port 0).member = true ∧ cabled.cabledRight 0 offer = true ∧
    cabled.cabledRight 0 { offer with slot := 1 } = false ∧ (cabled.port 0).step = .keys ∧ cabled.peerSvn ≤ offer.svn ∧
    ((training .adaptation).port 0).halfok = true ∧ ((withPort fun x => { x with state := .half }).port 0).closeSent = false ∧
    ({ offer with chainOk := false } : PeerOffer).chainOk = false ∧ ((withPort fun x => { x with state := .half }).port 0).isUp = true ∧
    ((withPort fun x => { x with state := .half }).port 0).live = false ∧ ((withPort fun x => { x with live := true }).port 0).live = true ∧
    ((withPort fun x => { x with state := .draining }).port 0).state = .draining := by decide +kernel
def spkt (type : BitVec 6) (tile : BitVec 8) : SPacket :=
  { dst := 0, src := 3, type := type, dquire := 1, squire := 2, hops := 0, addr := 64, len := 64, status := 0, txn := 7, tile := tile, strand := 0
    op := 0, word3 := 0, ecrcOk := true, payload := [] }
def arrived (k : SPacket) : State := withPort fun x => { x with state := .up, inq := [{ pkt := k, cls := false, inp := none }] }
def consumes (s : State) (p : SPacket → Bool) (k : SPacket) : Bool := ((s.consume 0 p).map (·.1)) == some k
def frame0 : Frame :=
  { fecOk := true, crcOk := false, tagOk := false, fixed := 0, fseq := 0, aseq := 0, nak := false, idle := true, close := false, keyid := false
    credit := List.replicate 8 0, blocks := [] }
def sent0 : Sent := { fseq := 0, blocks := [], resent := 0 }
/-- Sources 3 of quire 2 speak for quire 1, and Tailbands 0 are in service. -/
def peered : State := mapped.setRights 1 [{ first := 3, count := 1, peer := 2 }]
def isRead : Except Fail (List Byte) × State → Bool
  | (.ok _, _) => true | _ => false
theorem witness_SpliceFramesAndPackets :
    (let x := (withPort fun x => { x with state := .up, counter := 2 ^ 32 - 2, replay := List.replicate 512 sent0 }).port 0
     x.carries = true ∧ x.counter < 2 ^ 32 - 1 ∧ x.resend = none ∧ 512 ≤ x.replay.length) ∧
    (let x := (withPort fun x => { x with state := .up, granted := true, outq := [{ pkt := spkt 0x21 0, cls := false, inp := none }] }).port 0
     x.carries = true ∧ x.resend = none ∧ x.replay.length < 512 ∧ (Port.fill 25 x).1 ≠ []) ∧
    (let x := (withPort fun x => { x with state := .up, replay := [sent0], resend := some 0 }).port 0
     x.carries = true ∧ x.resend = some 0 ∧ x.replay.find? (·.fseq == 0) = some sent0 ∧ sent0.resent < 7) ∧
    (let f : Frame := { frame0 with crcOk := true, tagOk := true }
     f.fecOk = true ∧ f.crcOk = true ∧ f.tagOk = true ∧ f.idle = true) ∧
    (let f : Frame := { frame0 with crcOk := true, tagOk := true, idle := false, fseq := 1 }
     f.idle = false ∧ f.fseq = ((withPort fun x => { x with state := .up }).port 0).rxSeq + 1) ∧
    (arrived (spkt 0x01 0)).remoteHeld 0 = true ∧ ({ arrived (spkt 0x01 0) with mem := memory.mem } : State).remoteHeld 0 = false ∧
    ({ frame0 with fecOk := false } : Frame).fecOk = false ∧ frame0.fecOk = true ∧ frame0.crcOk = false ∧
    consumes (arrived (spkt 0x01 0)) isRequest (spkt 0x01 0) = true ∧ copyFlag (spkt 0x01 0) = false ∧
    consumes (arrived (spkt 0x21 0xFF)) isResponse (spkt 0x21 0xFF) = true ∧ consumes (arrived (spkt 0x21 0)) isResponse (spkt 0x21 0) = true ∧
    consumes (arrived (spkt 0x38 0)) (·.type == 0x38) (spkt 0x38 0) = true ∧
    consumes (arrived (spkt 0x30 0)) (fun k => laneOf k.type.toNat == 2) (spkt 0x30 0) = true ∧
    (arrived (spkt 0x30 0)).group (bitsOf (spkt 0x30 0).addr.toNat 0 12) = none ∧
    formOk mapped.device { spkt 0x01 0 with len := 0 } = false ∧ formOk mapped.device (spkt 0x01 0) = true ∧
    mapped.hasRight 1 3 2 = false ∧ peered.hasRight 1 3 2 = true ∧
    (let k := { spkt 0x05 0xFF with word3 := 1 }
     formOk mapped.device k = true ∧ copyFlag k = true ∧ mapped.copyPair k = false) ∧
    (let s : State := { peered with mem := memory.mem }; let k := spkt 0x01 0
     formOk s.device k = true ∧ (remoteSpan k).1 + (remoteSpan k).2 ≤ s.memTop ∧ (s.region ((remoteSpan k).1 / 2 ^ 21)).state ≠ .scrubbing ∧
     (s.quire 1).use ≠ .drained ∧ isRead (s.readSpan 1 false false 64 64) = true ∧ isRead (peered.readSpan 1 false false 64 64) = false) ∧
    (let k := { spkt 0x01 0 with addr := BitVec.ofNat 64 (2 ^ 44 - 64) }
     formOk peered.device k = true ∧ peered.memTop < bitsOf k.addr.toNat 0 44 + k.len) := by decide +kernel
def group0 : Group := { quire := 1, bound := 5, nextseq := 0, tiles := 1, lo := [0, 0, 0, 0, 0, 0], n := [1, 1, 1, 1, 1, 1] }
def issuer0 : Issuer := { t := t0, h := 0, auth := mapped.auth a0, src := 0, dst := 64, caddr := 128, table := 0, recvmax := 0, nt := false }
def coll0 : Coll :=
  { group := 4095, seq := 0, quire := 1, desc := none, issuers := [issuer0], arrived := [], own := [], placed := [], started := false, blocked := false
    ending := some (6, 0) }
def collected : State := { (holds groupW).setGroup 4095 (some group0) with colls := [coll0] }
/-- The collective of `collected` is a join of which this member is the whole, and it has started. -/
def join0 : CollOp := { op := 1, fmt := 0, comb := 0, rm := 0, sat := false, ftz := false, lead := false, root := 0, count := 0 }
def joined : State := { collected with colls := [{ coll0 with desc := some join0, started := true, ending := none }] }
/-- A packet of the group's collective 0 from device 0. -/
def cpkt (e : Group) : SPacket := { spkt 0x35 0xFF with src := 0, squire := 1, addr := BitVec.ofNat 64 (4095 + 2 ^ 44 * e.gsig) }
def transfer0 : Transfer :=
  { id := 0, t := t0, h := 0, quire := 1, auth := mapped.auth a0, fd := 0, fdc := 0, src := 0, dst := 0x100000, len := 4096, done := 0
    caddr := 128, tag := 0, nt := false, asked := [], ending := none }
def moving : State := { memory with transfers := [transfer0] }
def isPage : Except Nat Xlate → Bool
  | .ok l => l.target == .memory && moving.refuses 1 false false l.addr == none
  | .error _ => false
theorem witness_GroupsAndTransfers :
    (holds signalW).ready a0 4 true [] = true ∧ (holds signalW).holdsWarrant a0 1 signalW = true ∧ signalW.kind = 5 ∧ signalW.bit 24 = true ∧
    (let u := (holds signalW).sendMerges a0
     (u.tile t0).storesDone 0 = true ∧ signalW.field 64 20 = u.device.toNat) ∧
    (((withTile (fun x => { x with asks := [ask0 .store] }) (holds signalW)).sendMerges a0).tile t0).storesDone 0 = false ∧
    (holds groupW).holdsWarrant a0 1 groupW = true ∧ groupW.kind = 4 ∧ groupW.bit 24 = true ∧ groupW.bit 25 = true ∧ groupW.bit 26 = true ∧
    (holds groupW).ready a0 4 true [1, 2] = true ∧ isOk ((holds groupW).checkSectors a0 .load 2 0x1FFF80 []) = true ∧
    isOk ((holds groupW).checkSectors a0 .store 2 0x1FFF80 []) = true ∧ ((holds groupW).strand a0).sb = [] ∧
    (match (holds groupW).checkSectors a0 .store 2 0x1FFF80 [] with
     | .ok ps => ps.all fun p => ((holds groupW).tile t0).sectorRoom p.2.2 | _ => false) = true ∧
    groupW.hasGroup 4095 = true ∧ groupW.hasGroup 0 = true ∧ (holds groupW).inFlight 4095 = false ∧ collected.inFlight 4095 = true ∧
    isOk ((holds groupW).checkFrame a0 (halves 63 64) []) = true ∧
    collected.group 4095 = some group0 ∧ group0.bound ≠ 0 ∧ (6 : BitVec 8) ≠ 0 ∧ collected.coll 4095 group0.nextseq = some coll0 ∧
    coll0.ending = some (6, 0) ∧ coll0.desc = none ∧ coll0.issuers ≠ [] ∧
    ((({ collected with mem := memory.mem } : State).advanceColl 4095).completions 6 0 0 coll0.issuers).isSome = true ∧ group0.inWindow 0 = true ∧ group0.inWindow 4 = false ∧
    (match (joined.advanceColl 4095).coll 4095 0 with
     | some c => c.ending.isNone && (joined.advanceColl 4095).collDone group0 c join0
     | none => false) = true ∧ join0.op ≠ 6 ∧ moving.transfers[0]? = some transfer0 ∧ transfer0.asked = [] ∧
    isPage (moving.pageOf t0 transfer0.auth .load 0 transfer0.piece) = true ∧
    isPage (moving.pageOf t0 transfer0.auth .store 0x100000 transfer0.piece) = true := by decide +kernel
/-- Port 0 holds a packet of collective 0, and quire 1 of device 0 may write into quire 1. -/
def collecting (k : SPacket) : State :=
  (withPort fun x => { x with state := .up, inq := [{ pkt := k, cls := false, inp := none }] }).setRights 1 [{ first := 0, count := 1, peer := 1 }]
    |>.setGroup 4095 (some group0)
def packetSeen (k : SPacket) : Bool × Option Nat × Bool := match (collecting k).consume 0 (fun k => laneOf k.type.toNat == 2) with
  | some (p, u) => ((u.group (bitsOf p.addr.toNat 0 12)).isSome, u.rankOf group0 p.src.toNat, u.hasRight p.dquire.toNat p.src.toNat p.squire.toNat)
  | none => (false, none, false)
theorem witness_SpliceFramesAndPackets_collective : packetSeen (cpkt group0) = (true, some 0, true) ∧ bitsOf (cpkt group0).addr.toNat 44 20 = group0.gsig ∧
    group0.inWindow (bitsOf (cpkt group0).addr.toNat 12 32) = true ∧ packetSeen { cpkt group0 with src := 3 } = (true, none, false) := by decide +kernel
def distant (s : State) : State := s.updTile t0 fun x => { x with tlb := [{ entry0 with phys := 3 * 2 ^ 44 }] }
theorem witness_GroupsAndTransfers_pieces : isRead (moving.readSpan 1 false false 0 4096) = true ∧ moving.spanWaits 0 4096 = false ∧
    moving.spanWaits 0x100000 4096 = false ∧ (moving.writeSpan 1 false false 0x100000 (List.replicate 4096 0)).1 = none ∧
    (match (distant moving).pageOf t0 transfer0.auth .load 0 4096 with | .ok l => decide (l.target = .remote) | _ => false) = true ∧
    (match (distant moving).pageOf t0 transfer0.auth .store 0x100000 4096 with | .ok l => decide (l.target = .remote) | _ => false) = true := by
  decide +kernel
/-! ### Witnesses: the host interface -/

def sess (r : Role) : Session :=
  { role := r, epoch := 0, graced := false, high := 0, seen := [], stored := [], port := 0, source := 5, sourceA := some 5, sourceB := none
    maxPayload := 1280, transcript := 0, secrets := [], keys := [], old := [] }
/-- Request 63, the last that the window of session 1 takes. -/
def req (q : Nat) : Hdr :=
  { magic := 0x4B5A, version := 1, clear := false, retry := false, more := false, part := 0, session := 1, seq := 63, quire := q, epoch := 0
    plen := 0, udp := 48, tagOk := true, port := 0, source := 5, tlvs := [] }
/-- That request with every parameter that its command's table lists. -/
def reqOf (q op : Nat) : Hdr := { req q with tlvs := (tlvSpecs op).map fun t => { type := t.type, len := t.lo } }
def quire1 : Quire := { Quire.reset with use := .running, tiles := 1, keys := [(0, 5)] }
/-- Bring-up has completed, Ethernet port 0 is up, quire 1 runs on tile 0 with region 0, and session 1 has the role. -/
def hosted (r : Role) : State :=
  let s := ((memory.setEth 0 { Eth.reset with en := true, state := .up }).setQuire 1 quire1).setSession 1 (some (sess r))
  { s with boot := { s.boot with stage := 7 }, power := { s.power with state := .main } }
def owned : State := hosted .owner
def quired : State := hosted (.quire 1)
theorem admitted_to_all : [0x0002, 0x0003, 0x0004, 0x0005, 0x0100, 0x0501, 0x0A03].all (fun op => (hosted .noRole).admits (reqOf 0xFF op) (sess .noRole) op) = true := by
  decide +kernel
theorem admitted_to_owner : [0x0006, 0x0007, 0x0008, 0x0009, 0x0101, 0x0102, 0x0103, 0x0104, 0x0105, 0x0600, 0x0603, 0x0606, 0x0607, 0x0700, 0x0701,
    0x0702, 0x0703, 0x0704, 0x0705, 0x0706, 0x0800, 0x0801, 0x0802, 0x0803, 0x0900, 0x0901, 0x0902, 0x0903, 0x0A00, 0x0A01, 0x0A02].all
      (fun op => owned.admits (reqOf 0xFF op) (sess .owner) op) = true := by decide +kernel
theorem admitted_to_owner_of_a_quire : [0x0201, 0x0202, 0x0203, 0x0204, 0x0205, 0x0500, 0x0502, 0x0604].all (fun op => owned.admits (reqOf 1 op) (sess .owner) op) = true := by
  decide +kernel
theorem admitted_to_quire : [0x0201, 0x0203, 0x0205, 0x0300, 0x0301, 0x0302, 0x0303, 0x0304, 0x0305, 0x0400, 0x0401, 0x0402, 0x0403, 0x0404, 0x0500, 0x0502,
    0x0601, 0x0602, 0x0604, 0x0605, 0x0705, 0x0802, 0x0900, 0x0901, 0x0904].all (fun op => quired.admits (reqOf 1 op) (sess (.quire 1)) op) = true := by decide +kernel
def noRun : State → Session → Res := fun s _ => .done stOk [] s
def reply63 : Reply :=
  { session := 1, seq := 63, opcode := 0x0005, phase := 1, status := stOk, tlvs := [], clear := false, port := 0, dest := 5, most := 1280 }
theorem witness_GatewayChecksAndRoles : (mapped.eth 0).isUp = false ∧ ({ owned with spine := { owned.spine with up0 := false, up1 := false } } : State).spineUp = false ∧
    (owned.eth (req 1).port.val).isUp = true ∧ owned.spineUp = true ∧ 3 ≤ owned.boot.stage ∧ owned.session 0 = none ∧
    owned.session (req 1).session = some (sess .owner) ∧ ({ req 1 with epoch := 1 } : Hdr).epoch ≠ (sess .owner).epoch ∧ (req 1).epoch = (sess .owner).epoch ∧
    (sess .owner).graced = false ∧ packetOk (req 1) = true ∧ packetOk { req 1 with udp := 49 } = false ∧ ({ req 1 with clear := true } : Hdr).clear = true ∧
    (req 1).clear = false ∧ (req 1).tagOk = true ∧ ({ req 1 with tagOk := false } : Hdr).tagOk = false ∧
    ((owned.setSession 1 (some ((sess .owner).heard (req 1)))).joinPart (req 1) 0x0203).1 = true ∧
    ((owned.setSession 1 (some ((sess .owner).heard (req 1)))).joinPart { req 1 with more := true } 0x0203).1 = false ∧
    (req 1).seq < 0xFFFFFF00 ∧ 0xFFFFFF00 ≤ ({ req 1 with seq := 0xFFFFFF00 } : Hdr).seq ∧ owned.acceptedSeq (sess .owner) (req 1) = false ∧
    owned.acceptedSeq { sess .owner with seen := [63] } (req 1) = true ∧ (req 1).retry = false ∧
    ({ sess .owner with stored := [reply63] } : Session).stored.find? (·.seq == (req 1).seq) = some reply63 ∧
    (req 0).seq + 64 ≤ ({ sess .owner with high := 127 } : Session).high ∧
    (sess .owner).high < (req 1).seq + 64 ∧ ({ req 1 with version := 2 } : Hdr).version ≠ 1 ∧
    (req 1).version = 1 ∧ owned.outstanding (req 1).session < 16 ∧
    16 ≤ ({ owned with net := { owned.net with requests := List.replicate 16 { session := 1, seq := 0, opcode := 0x0203, port := 0, source := 5, wait := .drain 1 } } } :
      State).outstanding (req 1).session ∧
    (owned.opened (req 1) (sess .owner)).gate .owner (req 1) 0x0401 = some (stDenied, []) ∧
    (0 : Nat) ≠ 1 ∧ anyOp 0x0201 = false ∧ quireOnlyOp 0x0904 = true ∧ owned.isReady = true ∧ knownOp 0x0401 = true ∧
    Role.permits .owner 0x0401 (req 1).quire = false ∧ mapped.isReady = false ∧ earlyOp 0x0006 = false := by decide +kernel
def record0 : ManufRecord :=
  { formOk := true, deviceOk := true, sigsOk := true, grade := 1, serialIndex := 2 ^ 20 - 1, arrays := List.replicate 192 0x82
    macs := [2, 3, 4, 5, 6, 7, 8, 9], serial := List.replicate 32 0x30, chx := [] }
def logRec0 : LogRec := { seq := 0, kind := .tagForged, arg := 0 }
def sub0 : Sub := { id := 1, session := 1, classes := 7, dest := 0 }
def ethAt (st : EthState) : State := owned.setEth 0 { Eth.reset with en := true, state := st }
/-- With `admitted_to_all` and `admitted_to_owner`. -/
theorem witness_SessionAndReportCommands : (List.replicate 64 (0 : Byte)).length ≤ 64 ∧
    (let p : AuthReq := { role := 1, rsaKey := 0, slhKey := 0, rsaOk := true, slhOk := true }
     p.role ≤ 1 ∧ (owned.opened (req 1) (sess .owner)).keysFit (req 1) p = true ∧
     (owned.opened (req 1) (sess .owner)).keysFit (req 1) { p with slhOk := false } = false) ∧
    ((owned.opened (req 1) (sess .owner)).session 1).isSome = true ∧ ((owned.opened (req 1) (sess .owner)).session 0).isNone = true ∧
    (7 : Nat) ≤ 7 ∧ (4095 : Nat) ≤ 4095 ∧ (onesOf (128 : BitVec 8)).any (fun e => (owned.eth e).state.moving) = false ∧
    (onesOf (128 : BitVec 8)).any (fun e => ((owned.setEth 7 { Eth.reset with state := .training }).eth e).state.moving) = true ∧
    (onesOf (128 : BitVec 8)).any (fun e => (((onesOf (128 : BitVec 8)).foldl (fun s e => s.enableEth e) (owned.opened (req 0xFF) (sess .owner))).eth
      e).state.moving) = true ∧
    ({ owned with boot := { owned.boot with record := some record0 } } : State).boot.record = some record0 ∧ (sess .owner).role = .owner ∧
    (7 : BitVec 8).toNat < 8 ∧ 8 ≤ (8 : BitVec 8).toNat ∧
    ({ owned with net := { owned.net with subs := [sub0] } } : State).net.subs.any (fun b => b.id == 1 && b.session == 1) = true ∧
    owned.net.subs.any (fun b => b.id == 1 && b.session == 1) = false ∧ (some 255).getD 16 ≤ 255 ∧ (none : Option Nat).getD 16 ≤ 255 ∧
    (∃ e < 8, e ∉ onesOf (128 : BitVec 8) ∧ (owned.eth e).en = true) ∧
    (∀ e < 8, e ∈ onesOf (1 : BitVec 8) ∨ (owned.eth e).en = false) ∧ owned.logQ = [] ∧
    2048 < ({ owned with logQ := List.replicate 2049 logRec0 } : State).logQ.length ∧ (0 : Nat) ≤ 7 ∧ (128 : Nat) ≤ 128 ∧
    5 ≤ owned.boot.stage ∧ ({ owned with logQ := [logRec0] } : State).logQ = [logRec0] ∧ owned.logRing.length < ringRecords := by decide +kernel
def echo0 : NetPacket := { source := 9, target := linkLocal 0, v6 := true, plain := true, bytes := [1] }
theorem witness_EthernetEvents : ((ethAt .off).eth 0).state = .off ∧ ((ethAt .failed).eth 0).state = .failed ∧ ((ethAt .up).eth 0).state = .up ∧
    ((ethAt .draining).eth 0).state = .draining ∧ ((ethAt .training).eth 0).state = .training ∧ (owned.eth 0).isUp = true ∧ echo0.plain = true ∧
    echo0.v6 = true ∧ owned.addr6 0 = some echo0.target ∧ ({ echo0 with plain := false } : NetPacket).plain = false ∧
    ({ owned with flash := { owned.flash with net := [(0, { NetRecord.reset with ipv4 := some (5, 24) })] } } : State).addr4 0 = some 5 ∧
    (owned.eth 0).bulkpcp = (3 : Fin 8).val ∧ (owned.eth 0).bulkpcp ≠ (7 : Fin 8).val ∧ owned.session 1 = some (sess .owner) ∧ (req 1).port = 0 ∧
    owned.spineUp = true ∧ owned.isReady = true ∧ (req 1).epoch = (sess .owner).epoch ∧ (req 1).seq < 0xFFFFFF00 ∧
    wholePacket (req 1) (sess .owner) = true ∧ owned.acceptedSeq (sess .owner) (req 1) = false ∧ 3 ≤ owned.boot.stage ∧
    (sess .owner).high < (req 1).seq + 64 ∧ (req 1).version = 1 ∧ owned.outstanding (req 1).session < 16 ∧ knownOp 0xFFFF = false := by decide +kernel
def create0 : QCreateReq :=
  { tiles := 2, regions := [(1, 1)], seals := [(638975, 1)], rate := 256, cap := false, share := 2, groups := some (0, 4096), rights := []
    rsaKey := 0, slhKey := 0, badTiles := [] }
/-- Quire 1 is rotating its keys. -/
def rotating : State := owned.setQuire 1 { quire1 with sweep := some { slot := true, todo := [0] } }
/-- With `admitted_to_owner_of_a_quire`, `admitted_to_quire` and `admitted_to_all`. -/
theorem witness_QuireCommands : owned.admits (reqOf 0 0x0200) (sess .owner) 0x0200 = true ∧
    (let u := owned.opened (req 0) (sess .owner)
     qcreateFormOk create0 0 = true ∧ qcreateFormOk create0 16 = false ∧ u.rateSum 0 create0.rate create0.cap ≤ 256 ∧
     u.shareOk 0 create0.share (onesOf create0.tiles).length = true ∧ u.freeFor 0 create0 = true ∧
     (onesOf create0.tiles).any create0.badTiles.contains = false ∧ u.freeFor 0 { create0 with tiles := 1 } = false ∧
     (onesOf create0.tiles).any [1].contains = true ∧ 256 < u.rateSum 0 257 false ∧
     (u.region 638975).state = .free ∧ 638975 < 512 * owned.mem.ctop ∧ (rangeNums [(638975, 1)]).Nodup) ∧
    (let u := owned.opened (req 1) (sess .owner)
     u.rateSum 1 256 false ≤ 256 ∧ ({ quire1 with share := 2 } : Quire).tileCount = 1 ∧
     (owned.setQuire 1 { quire1 with share := 2 }).admits (reqOf 1 0x0202) (sess .owner) 0x0202 = true ∧
     ((owned.setQuire 1 { quire1 with share := 2 }).opened (req 1) (sess .owner)).shareOk 1 2 1 = true) ∧
    (owned.quire 1).room = true ∧ (owned.quire 1).sweep = none ∧ rotating.admits (reqOf 1 0x0205) (sess .owner) 0x0205 = true ∧
    (rotating.quire 1).sweep.isSome = true ∧ (List.replicate 48 (0 : Byte)).length = 48 ∧ ([] : List Byte).length ≠ 48 := by decide +kernel
def ckMsg : CkMsg := { src := 3, quire := 1, number := 0, regions := 1 }
def discards (late : Bool) : State :=
  let s := mapped.setQuire 1 { quire1 with discarding := true, late := late }
  { s with survive := { s.survive with partner := some 3 } }
def copied : State := mapped.setQuire 2 { quire1 with copyOf := some (3, 1) }
/-- Quire 1 runs, and w1 holds a quire warrant. -/
def quireSeen (x : Quire) : State := (holds quireW).setQuire 1 x
theorem witness_QuireInstructionsAndDiscards : (quireSeen quire1).holdsWarrant a0 1 quireW = true ∧ quireW.kind = 6 ∧ quireW.bit 27 = true ∧
    quireW.bit 25 = true ∧ (quireSeen quire1).ready a0 4 true [3, 2] = true ∧ ((quireSeen quire1).quireReading 1 0x13F).isSome = true ∧
    (quireSeen quire1).quireReading 1 0x202 = none ∧ ((quireSeen quire1).quire 1).sweep = none ∧ ((quireSeen quire1).quire 1).room = true ∧
    ((quireSeen { quire1 with sweep := some { slot := true, todo := [] } }).quire 1).sweep.isSome = true ∧
    ((discards false).quire 1).discarding = true ∧ (discards false).survive.partner = some ckMsg.src.toNat ∧ ((discards false).quire 1).use ≠ .free ∧
    (mapped.quire 1).discarding = false ∧ mapped.copiesOf 3 1 = [] ∧ copied.copiesOf 3 1 = [2] ∧ (copied.quire 2).use ≠ .scrubbing ∧
    ((discards true).quire 1).late = true ∧
    ((mapped.setQuire 1 { Quire.reset with discarding := true }).quire 1).use = .free := by decide +kernel
theorem witness_RunCommandsAndSupervision :
    (let u := quired.opened (req 1) (sess (.quire 1))
     u.ownsTiles 1 3 = false ∧ u.ownsTiles 1 1 = true ∧ isRead (u.readSpan 1 false false (2 ^ 21 - 64) 64) = true ∧ isRead (u.readSpan 1 false false (2 ^ 21) 64) = false) ∧
    (∀ a ∈ strandsIn 1 128, (quired.tile a.t).use = .normal ∧ (quired.strand a).run = .halted ∧ (quired.strand a).isHalted = true) ∧
    (∃ a ∈ strandsIn 1 129, (quired.strand a).isHalted = false) ∧ quired.survive.jobs = [] ∧
    (∀ t ∈ onesOf (1 : BitVec 192), (quired.tile (Fin.ofNat 192 t)).use ≠ .unavailable) ∧ (quired.quire 1).tiles.getLsbD 0 = true ∧
    (16 : Nat) ≤ 31 ∧ (31 : Nat) < 32 ∧ (owned.setQuire 1 { quire1 with use := .drained }).admits (reqOf 1 0x0204) (sess .owner) 0x0204 = true ∧
    ((owned.setQuire 1 { quire1 with use := .drained }).quire 1).use = .drained ∧ (owned.quire 1).use ≠ .drained ∧
    (quired.tile t0).assigned = true ∧ (quired.quire (quired.tile t0).quire.toNat).use = .running ∧ (quired.tile t0).use = .normal ∧
    (quired.tile t0).resetLately = 0 ∧
    (let s : State := { (quired.updTile t0 fun x => { x with resetLately := 1 }) with power := { quired.power with ticks := 59999 } }
     (s.tile t0).resetLately ≠ 0 ∧ s.power.ticks + 1 - (s.tile t0).resetLately < 60000) ∧ (State.reset.tile t0).assigned = false ∧
    (let s := quired.updTile t0 fun x => { x with delay := { x.delay with step := 255, margin := 1 } }
     255 ≤ (s.tile t0).delay.step ∧ (s.tile t0).delay.margin < 2 ∧
     (let v := (s.updTile t0 fun x => { x with delay := { x.delay with limit := true } }).alarm .delayLimit 0
      (v.island (islandOf t0)).mv + 25 ≤ (v.island (islandOf t0)).top)) ∧
    (quired.tile t0).delay.step < 255 ∧ ((quired.setQuire 1 { quire1 with use := .draining }).quire 1).use = .draining ∧
    ((quired.updTile t0 fun x => { x with use := .draining }).tile t0).use = .draining := by decide +kernel
/-- Unit 0 of memory reads as an error that the code cannot correct. -/
def broken : State := { quired with mem := { quired.mem with errs := [(0, .bad)] } }
/-- With `admitted_to_quire`. -/
theorem witness_HostReadsAndWrites : (let u := quired.opened (req 1) (sess (.quire 1))
    (65536 : Nat) < 65537 ∧ u.spanRefused 1 false false (2 ^ 21 - 65536) 65536 = none ∧ (u.spanRefused 1 false false (2 ^ 21 - 65535) 65536).isSome = true ∧
    quired.mem.errs = [] ∧ [(1 : Byte), 2] ≠ [] ∧ (2 ^ 21 - 2) % 2 ^ 21 + [(1 : Byte), 2].length ≤ 2 ^ 21 ∧
    2 ^ 21 - (2 ^ 21 - 1) % 2 ^ 21 < [(1 : Byte), 2].length ∧ (u.writeSpan 1 false false (2 ^ 21 - 1) [1]).1 = none ∧
    ((u.writeSpan 1 false false (2 ^ 21 - 1) [1]).2.writeSpan 1 false false (2 ^ 21) [2]).1.isSome = true ∧
    ((u.setRegion 1 (u.region 0)).writeSpan 1 false false (2 ^ 21 - 1) [1]).1 = none ∧
    (((u.setRegion 1 (u.region 0)).writeSpan 1 false false (2 ^ 21 - 1) [1]).2.writeSpan 1 false false (2 ^ 21) [2]).1 = none) ∧
    ((broken.chargeSpan 1 0 32 1).meet ((unitsOf 0 32).contains ·)).1 = true ∧ broken.spanRefused 1 false false 0 32 = none := by decide +kernel
def bulk0 (fromDevice : Bool) (got : List Nat) (unacked : Nat) : Bulk :=
  { xid := 1, session := 1, quire := 1, use := .memory, fromDevice := fromDevice, addr := 0, len := 1025, chunk := 1024, window := 16, mask := 1
    hostA := none, hostB := none, got := got, sent := if fromDevice then [(0, 1), (1, 1)] else [], missed := [], unacked := unacked, serial := 0, data := [] }
def bulked (b : Bulk) : State := { quired with net := { quired.net with bulks := [b], nextXid := 2 } }
def params0 : BulkParams := { chunk := none, window := some 16, mask := none, hostA := none, hostB := none }
def bulkData0 (chunk : Nat) (bytes : List Byte) : BulkData :=
  { xid := 1, session := 1, chunk := chunk, attempt := 0, bytes := bytes, tagOk := true, port := 0 }
def isOpen : Res → Bool
  | .pend st _ _ _ => st == stPending | _ => false
def image0 : FwImage := { owner := none, formOk := true, keyOk := true, rsaOk := true, slhOk := true, partsOk := true, svn := 0, digests := [1, 2, 3, 4] }
/-- With `admitted_to_quire` and `admitted_to_owner`. -/
theorem witness_BulkTransfers : (2 : Nat) < 3 ∧ quired.survive.freeze = none ∧
    isOpen ((quired.opened (req 1) (sess (.quire 1))).openBulk (req 1) (sess (.quire 1)) 1 (.load 2 none) false 0 1 params0) = true ∧
    isOpen ((owned.opened (req 0xFF) (sess .owner)).openBulk (req 0xFF) (sess .owner) 0xFF (.firmware image0) false 0 1 params0) = true ∧
    (owned.opened (req 0xFF) (sess .owner)).quireGate .owner 0x0706 1 = none ∧ (15 : Nat) < 16 ∧
    (let s := bulked (bulk0 false [0] 30)
     s.bulk 1 = some (bulk0 false [0] 30) ∧ (bulk0 false [0] 30).session = (req 1).session ∧ (bulk0 false [0] 30).unacked ≠ 0 ∧
     s.admits (reqOf 1 0x0304) (sess (.quire 1)) 0x0304 = true ∧ s.admits (reqOf 1 0x0305) (sess (.quire 1)) 0x0305 = true ∧ (s.eth 0).isUp = true ∧
     (bulk0 false [0] 30).fromDevice = false ∧ 1 < (bulk0 false [0] 30).chunks ∧ (List.replicate 1024 (1 : Byte)).length = (bulk0 false [0] 30).chunkLen 0 ∧
     (bulk0 false [0] 30).got.contains 0 = true ∧ (bulk0 false [0] 30).complete = false ∧ (bulk0 false [0] 30).unacked + 1 < 32) ∧
    (let s := bulked (bulk0 false [] 30)
     [(1 : Byte)].length = (bulk0 false [] 30).chunkLen 1 ∧ (s.landChunk (bulk0 false [] 30) 1 [1]).1 = none ∧
     (s.landChunk (bulk0 false [] 30) 1 [1]).2.bulk 1 = some (bulk0 false [] 30) ∧ (bulk0 false [1] 31).complete = false ∧ (bulk0 false [1] 31).unacked < 32) ∧
    (let p : BulkAck := { xid := 1, session := 1, serial := 0, word := 0, bitmap := 0, tagOk := true, port := 0 }
     (bulk0 true [] 0).fromDevice = true ∧ ((bulk0 true [] 0).acked { p with word := 2 }).complete = true) := by
  and_intros <;> decide +kernel

/-! ### Witnesses: survival and recovery -/

def partnered (st : PortState) : State :=
  let s := quired.setPort 0 { Port.reset with member := true, state := st }
  { s with survive := { s.survive with partner := some 1 }, splice := { s.splice with dims := [(0, { size := 2, ring := false })] } }
def estimate (s : State) : Nat := freezeEstimate (s.toCopy 1).length (s.halvesTo 1)
theorem which_answer_a_checkpoint_gets : ((partnered .half).checkpointCode 1 (estimate (partnered .half))).1 =
    (if bitOf (Config.openValue 24 (partnered .half).free) 0 then 3 else 0) := by
  have h : ((partnered .half).surviving, (partnered .half).reachPartner, (partnered .half).halvesTo 1) = (false, some 1, 1) := by decide +kernel
  simp only [Prod.mk.injEq] at h
  obtain ⟨h1, h2, h3⟩ := h
  simp [State.checkpointCode, estimate, h1, h2, h3, State.takeFree]
  rfl
def freeze0 (st : FreezeStep) : Freeze := { quire := 1, bound := 100, step := st, halted := [], regions := [], lost := [], restore := false }
def freeze (s : State) (st : FreezeStep) : State := { s with survive := { s.survive with freeze := some (freeze0 st) } }
def frozen : State := freeze (partnered .up) .streaming
def lostRegion : State :=
  let s := quired.setRegion 0 { state := .lost, quire := 1, isSeal := false, gen := false }
  { s with lost := [0] }
def tagsA : FeedTags := { main := 1, backup := 2 }
def partner0 : PartnerReq := { device := 1, tags := { main := 3, backup := 4 }, fourHeld := false, noQuire := false }
/-- With `which_answer_a_checkpoint_gets`, `admitted_to_quire` and `admitted_to_owner`. -/
theorem witness_SurvivalInstructionsAndCommands :
    (quireSeen quire1).holdsWarrant a0 1 quireW = true ∧ quireW.kind = 6 ∧ quireW.bit 26 = true ∧ (quireSeen quire1).ready a0 4 true [3, 2] = true ∧
    ((quireSeen quire1).strand a0).status.gdepth = 0 ∧
    isChecked (mapped.check t0 ((quireSeen quire1).auth a0) .load 0x1FFFC0 64 false) = true ∧
    (((quireSeen quire1).sendMerges a0).tile t0).storesDone 0 = true ∧
    (let s := withStrand (fun r => { r with status := { r.status with gdepth := 1 } }) (quireSeen quire1)
     s.ready a0 4 true [3, 2] = true ∧ s.holdsWarrant a0 1 quireW = true ∧ (s.strand a0).status.gdepth ≠ 0) ∧
    Sparse.get false ({ mapped with noReplay := [(1, true)] } : State).noReplay 1 = true ∧ Sparse.get false mapped.noReplay 1 = false ∧
    ((quireSeen quire1).checkpointCode 1 0).1 = 3 ∧ frozen.survive.freeze.isSome = true ∧ owned.survive.freeze = none ∧
    owned.survive.restoring = none ∧ tagsApart tagsA tagsA = false ∧ tagsApart tagsA partner0.tags = true ∧ partner0.fourHeld = false ∧ partner0.noQuire = false ∧
    (partnered .half).survive.partner = some partner0.device.toNat ∧
    (partnered .half).admits (reqOf 1 0x0602) (sess (.quire 1)) 0x0602 = true ∧
    (((partnered .half).opened (req 1) (sess (.quire 1))).checkpointCode 1 0).1 = 1 ∧
    (let s := (partnered .half).setQuire 2 { Quire.reset with use := .draining }
     s.admits (reqOf 1 0x0602) (sess (.quire 1)) 0x0602 = true ∧ ((s.opened (req 1) (sess (.quire 1))).checkpointCode 1 0).1 = 2) ∧
    (owned.opened (req 0xFF) (sess .owner)).surviving = false ∧ ((owned.opened (req 0xFF) (sess .owner)).routeOf 1).isNone = true ∧
    (((partnered .half).opened (req 0xFF) (sess .owner)).routeOf 1).isSome = true ∧
    lostRegion.admits (reqOf 1 0x0605) (sess (.quire 1)) 0x0605 = true ∧ [0].all ((lostRegion.opened (req 1) (sess (.quire 1))).regionsOf 1).contains = true ∧
    [0].all (fun i => (lostRegion.region i).state == .lost && lostRegion.lost.contains i) = true ∧
    [0].all (fun i => (quired.region i).state == .lost && quired.lost.contains i) = false ∧ (639 : Nat) < 640 ∧
    (let s := owned.setChan 639 { Chan.reset with state := .live }
     s.admits (reqOf 0xFF 0x0606) (sess .owner) 0x0606 = true ∧ s.mem.removed.contains 639 = false ∧ (s.chan 639).state ≠ .untrained ∧ s.mem.restripe = .idle) ∧
    owned.bothSpines = true ∧ ({ owned with spine := { owned.spine with up0 := false } } : State).bothSpines = false := by decide +kernel
def receiver (f : Quire) : State :=
  let s := quired.setQuire 2 { f with use := .running, copyOf := some (3, 1) }
  { s with mem := { s.mem with ctop := 1 }, survive := { s.survive with partner := some 3 } }
def copy0 : CopyImage :=
  { quire := 1, create := create0, floor := 0, steps := [], lost := [], replayable := true, position := 0, number := 0, log := [], data := [], groups := [] }
def restoring : State :=
  { quired with survive := { quired.survive with restoring := some { device := 3, copyNum := 0, asked := true, copies := [copy0] } } }
def freezing (st : FreezeStep) : State := freeze (receiver Quire.reset) st
def freeFits (n : Nat) (s : State) : Bool := decide (n ≤ (((List.range (512 * s.mem.ctop)).filter fun i => (s.region i).state == .free).take n).length)
def lossPort : State :=
  let s := quired.setPort 15 { Port.reset with state := .failed, peer := 3, incarnation := 1 }
  { s with survive := { s.survive with partner := some 3, probes := [(3, 1)] } }
def held0 : State :=
  let s := quired.setGroup 4095 (some group0)
  { s with survive := { s.survive with holds := [(4095, some { lost := [], held := [], told := false, rejoined := [] })] } }
theorem witness_CheckpointAndLossMessages : mapped.isReady = false ∧ quired.isReady = true ∧
    ((receiver Quire.reset).copyQuire 3 1).isSome = true ∧ freeFits 511 (receiver Quire.reset) = true ∧ freeFits 512 (receiver Quire.reset) = false ∧
    (freezing .streaming).survive.freeze.isSome = true ∧ (freezing .streaming).survive.partner = some ckMsg.src.toNat ∧
    (receiver Quire.reset).survive.freeze = none ∧ (receiver Quire.reset).copiesOf 3 1 = [2] ∧ restoring.survive.restoring.isSome = true ∧
    ckMsg.src.toNat = 3 ∧ copy0.quire = ckMsg.quire ∧ restoring.survive.freeze = none ∧ lossPort.survive.partner = some 3 ∧
    lossPort.survive.partner ≠ some 4 ∧ lossPort.survive.probes.contains (3, 1) = true ∧
    ((List.range 16).filter fun p => (lossPort.port p).peer == 3 && (lossPort.port p).incarnation == 1 && (lossPort.port p).state ≠ .off) = [15] ∧
    (∀ p ∈ [15], (lossPort.port p).state = .failed) ∧ held0.group 4095 = some group0 ∧ (held0.rankOf group0 0).isSome = true ∧
    (held0.holdOf 4095).isSome = true ∧ quired.mayFailOver = true ∧
    (let s : State := { quired with spine := { quired.spine with up0 := false } }
     s.mayFailOver = false ∧ s.bothSpines = false ∧ s.spineUp = true) ∧
    ({ quired with spine := { quired.spine with up0 := false, up1 := false } } : State).spineUp = false := by decide +kernel
/-- A chunk of a bulk transfer in memory that has no right to go there: region 1 is not quire 1's. -/
def strayBulk : Bulk := { bulk0 false [] 0 with addr := 2 ^ 21 }
theorem witness_BulkTransfers_more :
    (let p := params0; 1024 ≤ p.chunk.getD 8192 ∧ p.chunk.getD 8192 ≤ 8192 ∧ p.chunk.getD 8192 % 1024 = 0 ∧ 16 ≤ p.window.getD 1024 ∧
      p.window.getD 1024 ≤ 4096 ∧ (quired.net.bulks.filter (·.session == (req 1).session)).length < 32 ∧ quired.net.bulks.length < 256) ∧
    (quired.quire 1).loads + (quired.opened (req 1) (sess (.quire 1))).openLoads 1 < 2048 ∧
    (quired.quire 1).entries + (quired.opened (req 1) (sess (.quire 1))).openLoads 1 < 4096 ∧ 1024 + 48 ≤ (sess (.quire 1)).maxPayload ∧
    (let s := bulked { bulk0 false [] 0 with use := .groups (some 1) }
     s.net.bulks.any (fun o => !o.fromDevice && o.use == .groups (some 1)) = true) ∧
    owned.net.bulks.any (fun o => !o.fromDevice && o.use == .groups (some 1)) = false ∧
    (bulked { bulk0 false [] 0 with use := .firmware image0 }).net.bulks.any (fun o => match o.use with | .firmware _ => true | _ => false) = true ∧
    (let s := bulked (bulk0 false [0] 1)
     s.net.chunks = [] ∧ s.session 1 = some (sess (.quire 1)) ∧ (bulk0 false [0] 1).unacked ≠ 0) ∧
    (bulked (bulk0 false [] 0)).chunkWaits (bulk0 false [] 0) 1 = false ∧
    (let s := { bulked (bulk0 false [] 0) with mem := { memory.mem with isOpen := false } }
     s.chunkWaits (bulk0 false [] 0) 1 = true) ∧
    ((bulked strayBulk).landChunk strayBulk 1 [1]).1.isSome = true ∧
    (let p : BulkAck := { xid := 1, session := 1, serial := 0, word := 0, bitmap := 0, tagOk := true, port := 0 }
     ((bulk0 true [] 0).acked { p with word := 1 }).complete = false) := by decide +kernel
theorem witness_SurvivalInstructionsAndCommands_more :
    (let s := owned.setChan 639 { Chan.reset with state := .live }
     ({ s with mem := { s.mem with restripe := .running } } : State).mem.restripe = .running) ∧ partner0.device.toNat ≠ 2 ∧
    (owned.opened (req 0xFF) (sess .owner)).surviving = false ∧
    ({ owned with survive := { owned.survive with partner := some 1, freeze := some (freeze0 .streaming) } } : State).surviving = true := by decide +kernel
theorem witness_CheckpointAndLossMessages_more :
    (let s := quired.setGroup 4095 (some group0)
     s.group 4095 = some group0 ∧ s.holdOf 4095 = none ∧ (s.rankOf group0 0).isSome = true) ∧
    (let s := freeze restoring .streaming
     s.survive.restoring.isSome = true ∧ ({ freeze0 .streaming with restore := true } : Freeze).restore = true ∧ (freeze0 .streaming).quire = ckMsg.quire.val) ∧
    (let r : Restoring := { device := 3, copyNum := 0, asked := true, copies := [copy0] }
     restoring.survive.restoring = some r ∧ r.copies = [copy0] ∧ r.asked = true) := by decide +kernel
/-! ### Witnesses: fabric, power and bring-up -/

theorem witness_StepTakesOneCommand : step State.reset = .next State.reset := rfl
def geometry0 : GeometryReq := { device := 2 ^ 20 - 1, dims := (2 ^ 20, false) :: List.replicate 7 (1, false), hop := some 1023 }
def geometry1 : GeometryReq := { device := 0, dims := (2, false) :: List.replicate 7 (1, false), hop := none }
def emptied : State := owned.setQuire 1 Quire.reset
def portcfg0 : PortCfgReq := { port := 15, dim := some 7, dir := none, member := some 1, halfok := none, rto := some 65535, drainto := none }
/-- With `admitted_to_owner`. -/
theorem witness_FabricCommands : geometryOk geometry0 1023 = false ∧ geometryOk geometry1 256 = true ∧ (1 < 16 ∧ (owned.quire 1).use ≠ .free) ∧
    (∀ q < 16, (emptied.quire q).use = .free) ∧ emptied.admits (reqOf 0xFF 0x0700) (sess .owner) 0x0700 = true ∧
    portcfgOk portcfg0 = true ∧ portcfgOk { portcfg0 with port := 16 } = false ∧ portcfgOk { portcfg0 with rto := some 65536 } = false ∧
    (∀ p ∈ onesOf (0x8000 : BitVec 16), (owned.port p).moving = false) ∧
    (let s := owned.setPort 15 { Port.reset with state := .training }
     s.admits (reqOf 0xFF 0x0702) (sess .owner) 0x0702 = true ∧ ∃ p ∈ onesOf (0x8000 : BitVec 16), (s.port p).moving = true) ∧
    (let e : OvrReq := { index := 1023, first := 2 ^ 20 - 1, count := 2 ^ 20, port := 15, valid := true }
     e.index < 1024 ∧ e.first < 2 ^ 20 ∧ e.count ≤ 2 ^ 20 ∧ e.port < 16) := by decide +kernel
def feedState (st : FeedState) (f : Feed) (tags : FeedTags) : State := { quired with power := { quired.power with state := st, inUse := f, tags := tags } }
def planReq0 : PlanReq := { sustained := some 3200, excursion := some 3800, length := some 20, ceilings := none }
/-- With `admitted_to_owner` and `admitted_to_quire`. -/
theorem witness_PowerCommandsAndEvents : planReq0.ceilings = none ∧ planReq0.sustained.isSome = true ∧
    (let u := owned.opened (req 0xFF) (sess .owner)
     3200 * 1000 ≤ 3200000 ∧ 3800 * 1000 ≤ 3800000 ∧ shared + u.shares ≤ 3200000) ∧ (3800000 : Nat) < 3800001 ∧ (1799000 : Nat) < 1800000 ∧
    (sess (.quire 1)).role = .quire 1 ∧ (sess .owner).role = .owner ∧ quired.spineUp = true ∧
    ({ quired with spine := { quired.spine with up0 := false, up1 := false } } : State).spineUp = false ∧
    ((quired.updTile t0 fun x => { x with delay := { x.delay with step := 254 } }).tile t0).delay.step < 255 ∧ mapped.isReady = false ∧
    quired.isReady = true ∧ quired.power.state = .main ∧ (feedState .single .main tagsA).power.state = .single ∧
    (feedState .single .main tagsA).power.inUse = .main ∧ (feedState .single .main tagsA).power.tags.backup ≠ 0x3F ∧
    quired.power.tags.backup = 0x3F ∧ (feedState .switching .backup tagsA).power.state = .switching ∧
    (feedState .switching .backup tagsA).power.inUse = .backup ∧ (((feedState .backup .backup tagsA).setGood .main true).feedInfo .main).good = true ∧
    ((feedState .backup .backup tagsA).setGood .main true).power.state = .backup ∧ quired.power.state ≠ .off ∧
    ((quired.setFeed .main { quired.feedInfo .main with missed := 2 }).feedInfo .main).missed = 2 := by decide +kernel
def bootAt (k : Nat) : State := { State.reset with power := { Power.reset with state := .main }, boot := { Boot.reset with stage := k } }
def staged (i : FwImage) (verified : Bool) : State := { owned with flash := { owned.flash with staged := some i, verified := verified } }
def ownerRecord0 : OwnerRecord := { seqno := 1, device := 0, bootsvn := 0, peersvn := 0, rsaKey := 1, slhKey := 1, sigsOk := true }
def check0 : FirmwareCheck := { chainOk := true, slot0Ok := true, slot1Ok := true, xd0Ok := true, xd1Ok := true, sameSlot := true }
def hello0 : HelloReq := { nonce := List.replicate 48 0, hostKey := 0, kemKey := 0, maxPayload := 8972 }
/-- With `admitted_to_owner` and `admitted_to_all`. -/
theorem witness_FirmwareAndBringUp : owned.flash.staged = none ∧ (staged image0 false).admits (reqOf 0xFF 0x0A01) (sess .owner) 0x0A01 = true ∧
    ((staged image0 false).opened (req 0xFF) (sess .owner)).stagedOk image0 = true ∧
    ((staged { image0 with rsaOk := false } false).opened (req 0xFF) (sess .owner)).stagedOk { image0 with rsaOk := false } = false ∧
    owned.isReady = true ∧ owned.flash.verified = false ∧ (staged image0 true).admits (reqOf 0xFF 0x0A02) (sess .owner) 0x0A02 = true ∧
    (staged image0 true).flash.verified = true ∧ (staged image0 true).flash.staged.bind (·.owner) = none ∧
    (staged { image0 with owner := some ownerRecord0 } true).flash.staged.bind (·.owner) = some ownerRecord0 ∧
    (owned.eth 0).isUp = true ∧ owned.spineUp = true ∧ ({ owned with boot := { owned.boot with stage := 2 } } : State).boot.stage < 3 ∧
    3 ≤ owned.boot.stage ∧ defectOf (reqOf 0 1) 1 = none ∧ defectOf (req 0) 1 = some 1 ∧ packetOk { req 0 with clear := true, udp := 32 } = true ∧ packetOk (req 0) = true ∧
    (req 0).part = 0 ∧ (req 0).more = false ∧ (req 0).version = 1 ∧ 1280 ≤ hello0.maxPayload ∧ hello0.maxPayload ≤ 8972 ∧ 8972 < 8973 ∧
    hello0.nonce.length = 48 ∧ (owned.net.sessions.filter (·.2.isSome)).length < 64 ∧ mapped.atStage 0 = false ∧
    (∀ k ∈ List.range 7, (bootAt k).atStage k = true) ∧ check0.chainOk = true ∧ ({ check0 with chainOk := false } : FirmwareCheck).chainOk = false ∧
    (bootAt 1).slotPasses (bootAt 1).flash.pointer (if (bootAt 1).flash.pointer then check0.slot1Ok else check0.slot0Ok) = true ∧
    (record0.formOk && record0.deviceOk && record0.sigsOk && recordArraysOk record0) = true ∧ recordArraysOk { record0 with grade := 0 } = false ∧
    (bootAt 4).hbm.any (fun e => e.2.level == 0) = false ∧ (∀ p < 16, ¬ (((bootAt 5).port p).member = true ∧ ((bootAt 5).port p).state = .training)) ∧
    (feedState .lost .main tagsA).power.state = .lost ∧ State.reset.power.state = .off ∧ (bootAt 0).boot.low = false ∧ (bootAt 0).boot.tripped = false ∧
    (bootAt 0).power.state ≠ .off ∧ 448 ≤ (448 : BitVec 16).toNat ∧ (447 : BitVec 16).toNat < 448 ∧ (439 : BitVec 16).toNat < 440 ∧
    State.reset.smbusHears 0x40 = true ∧ (bootAt 0).auxPower = true := by decide +kernel

/-! ### Ill-formed commands, one for each check of WellFormed -/

theorem test_well_formed : Instr.wellFormed (.ping (req 1) []) = true ∧ Instr.wellFormed (.ping (req 0xFF) []) = true ∧
    Instr.wellFormed (.hello { req 0xFF with session := 0 } hello0) = true ∧ Instr.wellFormed (.stageRecord record0) = true ∧
    Instr.wellFormed (.frameReceive 0 frame0) = true ∧ Instr.wellFormed (.qcreate (req 1) create0) = true := by decide +kernel
theorem test_header_session : Instr.wellFormed (.ping { req 1 with session := 2 ^ 32 } []) = false := by decide +kernel
theorem test_header_seq : Instr.wellFormed (.ping { req 1 with seq := 2 ^ 32 } []) = false := by decide +kernel
theorem test_header_quire : Instr.wellFormed (.ping { req 1 with quire := 16 } []) = false := by decide +kernel
theorem test_header_epoch : Instr.wellFormed (.ping { req 1 with epoch := 2 ^ 16 } []) = false := by decide +kernel
theorem test_header_version : Instr.wellFormed (.ping { req 1 with version := 256 } []) = false := by decide +kernel
theorem test_header_magic : Instr.wellFormed (.ping { req 1 with magic := 2 ^ 16 } []) = false := by decide +kernel
theorem test_header_part : Instr.wellFormed (.ping { req 1 with part := 256 } []) = false := by decide +kernel
theorem test_header_plen : Instr.wellFormed (.ping { req 1 with plen := 2 ^ 32 } []) = false := by decide +kernel
theorem test_header_tlvs : Instr.wellFormed (.ping { req 1 with tlvs := [{ type := 2 ^ 16, len := 0 }] } []) = false ∧
    Instr.wellFormed (.ping { req 1 with tlvs := [{ type := 1, len := 2 ^ 16 }] } []) = false := by decide +kernel
theorem test_seals_twice : Instr.wellFormed (.begin ckMsg [0, 0]) = false := by decide +kernel
theorem test_hello_session : Instr.wellFormed (.hello (req 0xFF) hello0) = false := by decide +kernel
def block0 (p : Option SPacket) (stop : Bool) : Block := { vl := 0, cls := false, start := true, stop := stop, packet := p }
def busy0 (bs : List Block) : Frame := { frame0 with idle := false, blocks := bs }
theorem test_frame_blocks : Instr.wellFormed (.frameReceive 0 (busy0 (List.replicate 26 (block0 none false)))) = false := by decide +kernel
theorem test_frame_credit : Instr.wellFormed (.frameReceive 0 { frame0 with credit := [] }) = false := by decide +kernel
theorem test_frame_idle : Instr.wellFormed (.frameReceive 0 { frame0 with blocks := [block0 none false] }) = false := by decide +kernel
theorem test_frame_stop : Instr.wellFormed (.frameReceive 0 (busy0 [block0 none true])) = false ∧
    Instr.wellFormed (.frameReceive 0 (busy0 [block0 (some (spkt 1 0)) false])) = false := by decide +kernel
theorem test_packet_len : Instr.wellFormed (.frameReceive 0 (busy0 [block0 (some { spkt 1 0 with len := 4097 }) true])) = false := by decide +kernel
theorem test_packet_hops : Instr.wellFormed (.frameReceive 0 (busy0 [block0 (some { spkt 1 0 with hops := 1024 }) true])) = false := by decide +kernel
theorem test_packet_payload : Instr.wellFormed (.frameReceive 0 (busy0 [block0 (some { spkt 1 0 with payload := List.replicate 4097 0 }) true])) = false := by
  decide +kernel
theorem test_record_arrays : Instr.wellFormed (.stageRecord { record0 with arrays := [] }) = false ∧
    Instr.wellFormed (.stageRecord { record0 with arrays := List.replicate 192 256 }) = false := by decide +kernel
theorem test_record_macs : Instr.wellFormed (.stageRecord { record0 with macs := [] }) = false ∧
    Instr.wellFormed (.stageRecord { record0 with macs := List.replicate 8 (2 ^ 48) }) = false := by decide +kernel
theorem test_record_serial : Instr.wellFormed (.stageRecord { record0 with serial := [] }) = false ∧
    Instr.wellFormed (.stageRecord { record0 with serialIndex := 2 ^ 20 }) = false := by decide +kernel
theorem test_record_channels : Instr.wellFormed (.stageRecord { record0 with chx := [640] }) = false := by decide +kernel
theorem test_failed_channels : Instr.wellFormed (.stageMemory true [640]) = false ∧ Instr.wellFormed (.stageMemory true [3, 3]) = false := by decide +kernel
theorem test_failed_tiles : Instr.wellFormed (.stageTiles true [192] (List.replicate 192 0)) = false ∧
    Instr.wellFormed (.stageTiles true [] []) = false ∧ Instr.wellFormed (.stageTiles true [] (List.replicate 192 256)) = false := by decide +kernel
theorem test_measure_junctions : Instr.wellFormed (.energyPlan { pIn := 0, pSh := 0, vFeed := 0, tj := [] }) = false := by decide +kernel
theorem test_bulk_data : Instr.wellFormed (.bulkData { bulkData0 0 [] with xid := 2 ^ 32 }) = false ∧
    Instr.wellFormed (.bulkData { bulkData0 0 [] with attempt := 2 ^ 16 }) = false ∧
    Instr.wellFormed (.bulkData (bulkData0 0 (List.replicate 8193 0))) = false := by decide +kernel
theorem test_image : Instr.wellFormed (.fwstage (req 0xFF) 1 { image0 with digests := [] } params0) = false ∧
    Instr.wellFormed (.fwstage (req 0xFF) 1 { image0 with digests := [2 ^ 384, 0, 0, 0] } params0) = false ∧
    Instr.wellFormed (.fwstage (req 0xFF) 1 { image0 with svn := 2 ^ 16 } params0) = false := by decide +kernel
theorem test_write_bytes : Instr.wellFormed (.write (req 1) 0 (List.replicate 65537 0)) = false := by
  have h : bytesFit (List.replicate 65537 0) = false := by unfold bytesFit; rw [List.length_replicate]; rfl
  unfold Instr.wellFormed; simp only [h, Bool.and_false]
theorem test_bad_tiles : Instr.wellFormed (.qcreate (req 1) { create0 with badTiles := [192] }) = false := by decide +kernel
theorem test_copies_twice : Instr.wellFormed (.restore (req 0xFF) { device := 0, copies := [copy0, copy0] }) = false := by decide +kernel
theorem witness_FirmwareAndBringUp_more : ({ owned with flash := { owned.flash with verified := true } } : State).bothSpines = true ∧
    ((staged image0 true).slotAt (staged image0 true).targetSlot).digests.drop 2 = (staged image0 true).slot.digests.drop 2 ∧
    (List.range 32).length ≤ 32 ∧ ({ bootAt 0 with boot := { (bootAt 0).boot with tripped := true } } : State).boot.tripped = true ∧
    (64 : Nat) ≤ (List.replicate 64 (some (sess .noRole))).length ∧ 440 ≤ (440 : BitVec 16).toNat := by decide +kernel

end Sys2Proof.Tests
end

section
/-! The integer arithmetic of 02 Table 02-5: what the high products, the quotients and the remainders are as integers, with the corners
that R35 gives to division. -/

namespace Sys2Proof.Machine

/-! ### High products -/

/-- The upper half of a 128-bit integer, as a word: the floor of its division by 2 ^ 64. -/
theorem setWidth_ofInt_ushiftRight (p : Int) : ((BitVec.ofInt 128 p) >>> 64).setWidth 64 = BitVec.ofInt 64 (p / 2 ^ 64) := by
  apply BitVec.eq_of_toNat_eq
  rw [BitVec.toNat_setWidth, BitVec.toNat_ushiftRight, BitVec.toNat_ofInt, BitVec.toNat_ofInt, Nat.shiftRight_eq_div_pow]
  omega

theorem mulHigh_eq (x y : Word) : mulHigh x y = BitVec.ofInt 64 (x.toInt * y.toInt / 2 ^ 64) := by
  rw [← setWidth_ofInt_ushiftRight, BitVec.ofInt_mul]
  rfl

theorem mulHighU_eq (x y : Word) : mulHighU x y = BitVec.ofNat 64 (x.toNat * y.toNat / 2 ^ 64) := by
  have widened (z : Word) : z.setWidth 128 = BitVec.ofInt 128 z.toNat := by rw [BitVec.ofInt_natCast, BitVec.ofNat_toNat]
  calc mulHighU x y
      = (BitVec.ofInt 128 ((x.toNat : Int) * y.toNat) >>> 64).setWidth 64 := by
        rw [BitVec.ofInt_mul, ← widened, ← widened, mulHighU]
    _ = BitVec.ofInt 64 ((x.toNat * y.toNat / 2 ^ 64 : Nat) : Int) := by
        rw [setWidth_ofInt_ushiftRight]; push_cast; rfl
    _ = BitVec.ofNat 64 (x.toNat * y.toNat / 2 ^ 64) := BitVec.ofInt_natCast ..

/-! ### Division by zero -/

@[simp] theorem divS_zero (x : Word) : divS x 0 = BitVec.allOnes 64 := rfl
@[simp] theorem divU_zero (x : Word) : divU x 0 = BitVec.allOnes 64 := rfl
@[simp] theorem remS_zero (x : Word) : remS x 0 = x := rfl
@[simp] theorem remU_zero (x : Word) : remU x 0 = x := rfl

/-! ### Division by a nonzero word -/

theorem divS_of_ne_zero {x y : Word} (h : y ≠ 0) : divS x y = BitVec.ofInt 64 (x.toInt.tdiv y.toInt) := by
  rw [divS, if_neg h, ← BitVec.toInt_inj, BitVec.toInt_sdiv, BitVec.toInt_ofInt]

theorem toInt_remS_of_ne_zero {x y : Word} (h : y ≠ 0) : (remS x y).toInt = x.toInt.tmod y.toInt := by
  rw [remS, if_neg h, BitVec.toInt_srem]

theorem remS_of_ne_zero {x y : Word} (h : y ≠ 0) : remS x y = BitVec.ofInt 64 (x.toInt.tmod y.toInt) := by
  rw [← toInt_remS_of_ne_zero h, BitVec.ofInt_toInt]

theorem divS_mul_add_remS {x y : Word} (h : y ≠ 0) : divS x y * y + remS x y = x := by
  calc divS x y * y + remS x y
      = BitVec.ofInt 64 (x.toInt.tdiv y.toInt) * BitVec.ofInt 64 y.toInt + BitVec.ofInt 64 (x.toInt.tmod y.toInt) := by
        rw [divS_of_ne_zero h, remS_of_ne_zero h, BitVec.ofInt_toInt]
    _ = BitVec.ofInt 64 (x.toInt.tdiv y.toInt * y.toInt + x.toInt.tmod y.toInt) := by
        rw [BitVec.ofInt_add, BitVec.ofInt_mul]
    _ = x := by rw [Int.tdiv_mul_add_tmod, BitVec.ofInt_toInt]

theorem natAbs_remS_lt {x y : Word} (h : y ≠ 0) : (remS x y).toInt.natAbs < y.toInt.natAbs := by
  have hy : y.toInt ≠ 0 := fun e => h (BitVec.toInt_inj.mp e)
  rw [toInt_remS_of_ne_zero h, Int.natAbs_tmod]
  exact Nat.mod_lt _ (Int.natAbs_pos.mpr hy)

theorem remS_nonneg {x y : Word} (h : y ≠ 0) (hx : 0 ≤ x.toInt) : 0 ≤ (remS x y).toInt := by
  rw [toInt_remS_of_ne_zero h]
  exact Int.tmod_nonneg _ hx

theorem remS_nonpos {x y : Word} (h : y ≠ 0) (hx : x.toInt ≤ 0) : (remS x y).toInt ≤ 0 := by
  have hn : 0 ≤ (-x.toInt).tmod y.toInt := Int.tmod_nonneg _ (Int.neg_nonneg_of_nonpos hx)
  rw [Int.neg_tmod] at hn
  rw [toInt_remS_of_ne_zero h]
  exact Int.nonpos_of_neg_nonneg hn

theorem toNat_divU_of_ne_zero {x y : Word} (h : y ≠ 0) : (divU x y).toNat = x.toNat / y.toNat := by
  rw [divU, if_neg h, BitVec.toNat_udiv]

theorem toNat_remU_of_ne_zero {x y : Word} (h : y ≠ 0) : (remU x y).toNat = x.toNat % y.toNat := by
  rw [remU, if_neg h, BitVec.toNat_umod]

/-! ### The most negative word by −1, whose quotient as an integer is no word -/

theorem divS_intMin_allOnes : divS (BitVec.intMin 64) (BitVec.allOnes 64) = BitVec.intMin 64 := by
  rw [divS, if_neg (by decide), ← BitVec.neg_one_eq_allOnes, BitVec.intMin_sdiv_neg_one]

theorem remS_allOnes (x : Word) : remS x (BitVec.allOnes 64) = 0 := by
  rw [remS_of_ne_zero (by decide), show (BitVec.allOnes 64).toInt = -1 by decide, Int.tmod_neg, Int.tmod_one]
  rfl

/-! ### The instructions -/

/-- A register form that is ready writes its result and completes, whatever its operands. -/
theorem intR_ready (op : Word → Word → Word) {a : At} {f : RF} {s : State} (h : s.ready a 4 true [f.rd, f.rs1, f.rs2] = true) :
    intR op a f s = .next ((s.putG a f.rd (op (s.getG a f.rs1) (s.getG a f.rs2))).completed a 4) := by
  unfold intR State.issue32
  rw [State.issue_done h (t := s.putG a f.rd (op (s.getG a f.rs1) (s.getG a f.rs2))) rfl]

/-- Settles O7: each quotient and remainder is the library's truncated or natural division of the words' values, and the four division
instructions are register forms, which have no fault of their own. -/
theorem integerArithmeticMeaning : Obligations.IntegerArithmeticMeaning := by
  refine ⟨fun x y => ⟨mulHigh_eq x y, mulHighU_eq x y, fun h => ?_⟩, fun x => ?_, divS_intMin_allOnes, remS_allOnes _, fun a f s h => ?_⟩
  · exact ⟨divS_of_ne_zero h, remS_of_ne_zero h, divS_mul_add_remS h, natAbs_remS_lt h, remS_nonneg h, remS_nonpos h,
      toNat_divU_of_ne_zero h, toNat_remU_of_ne_zero h⟩
  · exact ⟨divS_zero x, divU_zero x, remS_zero x, remU_zero x⟩
  · exact ⟨intR_ready divS h, intR_ready divU h, intR_ready remS h, intR_ready remU h⟩

end Sys2Proof.Machine
end

section
/-! Gate calls and their returns (03 R74, R76): what `gcall` does with a gate warrant that is held, what `gret` does with the newest entry
frame, and what a pop undoes of a push. -/

namespace Sys2Proof.Machine

/-! ### System operations barred from delay slots -/

theorem sysCtl_of_zero {zero : List (BitVec 5)} (hz : ∀ i ∈ zero, i = 0) (a : At) (uses : List (BitVec 5)) (eff : State → Act) (s : State) :
    sysCtl a zero uses eff s = s.issueCtl a uses eff := by
  have hall : zero.all (· = 0) = true := List.all_eq_true.mpr fun i hi => decide_eq_true (hz i hi)
  unfold sysCtl
  simp only [hall, if_true]

theorem sysCtl_go {a : At} {zero uses : List (BitVec 5)} {eff : State → Act} {s t : State} (hz : ∀ i ∈ zero, i = 0)
    (h : s.ready a 4 false uses = true) (e : eff s = .go t) : sysCtl a zero uses eff s = .next (t.issued a) := by
  rw [sysCtl_of_zero hz, State.issueCtl, State.issue_go h e]

theorem sysCtl_fault {a : At} {zero uses : List (BitVec 5)} {eff : State → Act} {s : State} {c k w : Nat} {v : Word}
    (hz : ∀ i ∈ zero, i = 0) (h : s.ready a 4 false uses = true) (e : eff s = .fault c k w v) :
    sysCtl a zero uses eff s = .next (s.raise a c k w v) := by
  rw [sysCtl_of_zero hz, State.issueCtl, State.issue_fault h e]

/-! ### Warrant operands -/

theorem State.holdsWarrant_iff {s : State} {a : At} {i : BitVec 5} {w : Warrant} :
    s.holdsWarrant a i w = true ↔
      wregOk i = true ∧ (s.tile a.t).seen (s.strand a) i.toNat = some w ∧ (s.tile a.t).warrantOk w = true := by
  simp only [State.holdsWarrant, Bool.and_eq_true, beq_iff_eq, and_assoc]

theorem State.source_of_seen {s : State} {a : At} {i : BitVec 5} {w : Warrant} (hi : wregOk i = true)
    (hw : (s.tile a.t).seen (s.strand a) i.toNat = some w) (k : Warrant → Act) : s.source a i k = k w := by
  unfold State.source
  rw [hi, hw]
  rfl

/-- A warrant that is held, of a kind and with the header bit that the instruction asks for, passes every check of a source (03 R63, R64). -/
theorem State.needs_of_holdsWarrant {s : State} {a : At} {i : BitVec 5} {w : Warrant} {kinds : List Nat} {b : Nat}
    (hw : s.holdsWarrant a i w = true) (hk : w.kind ∈ kinds) (hb : w.bit b = true) (k : Warrant → Act) :
    s.needs a i kinds (some b) k = k w := by
  obtain ⟨hi, hseen, hok⟩ := State.holdsWarrant_iff.mp hw
  unfold State.needs
  rw [State.source_of_seen hi hseen]
  simp [hk, hok, hb]

/-! ### gcall -/

/-- The strand in its gate (03 R74): the caller's w15, return address and visibility in a new entry frame, the registers of `rs2` alone still
visible, the gate's memory warrant in w15, and the pc at the gate's entry. -/
def State.inGate (s : State) (a : At) (f : RF) (w : Warrant) : State :=
  let r := s.strand a
  (s.pushFrame a { savedw15 := Sparse.get 0 r.wregs 15, retpc := (r.pc + 4).setWidth 48, savedvis := r.vis, exc := false }).updStrand a
    fun q => { q with vis := q.vis &&& (q.g f.rs2).setWidth 15, wregs := Sparse.set 0 q.wregs 15 w.ofGate, pc := word w.entry,
                      lineBuf := none, lineNext := none }

/-- A called gate is entered, unless no entry frame can be pushed: the depth is 31, or the frame to be spilled has no usable slot. -/
theorem gcall_of_gate {a : At} {f : RF} {s : State} {w : Warrant} (hrb : (s.strand a).readback = false)
    (h : s.ready a 4 false [f.rs2] = true) (hrd : f.rd = 0) (hw : s.holdsWarrant a f.rs1 w = true) (hk : w.kind = 2)
    (hC : w.bit 24 = true) (hX : w.bit 27 = true) (hbs : (s.strand a).status.bs = false) :
    exec (.gcall a f) s = .next (if (s.strand a).status.gdepth = 31 ∨ s.pushOk a = false then s.raise a cGate 0 f.rs1.toNat 0
      else (s.inGate a f w).issued a) := by
  have hneeds := State.needs_of_holdsWarrant hw (List.mem_singleton.mpr hk) hC
  change execGcall a f s = _
  unfold execGcall
  split
  · next hfull =>
    refine sysCtl_fault (by simpa using hrd) h ?_
    simpa [hrb, hbs, hneeds, hX] using or_iff_not_imp_left.mp hfull
  · next hroom =>
    refine sysCtl_go (by simpa using hrd) h ?_
    simpa [hrb, hbs, hneeds, hX, State.inGate] using hroom

/-! ### gret -/

section Return
variable {a : At} {f : RF} {s : State} (hrb : (s.strand a).readback = false) (h : s.ready a 4 false [] = true)
  (hrd : f.rd = 0) (hrs1 : f.rs1 = 0) (hrs2 : f.rs2 = 0)
include hrb h hrd hrs1 hrs2

theorem gret_returns {fr : EntryFrame} (hfr : (s.strand a).frames.head? = some fr) (hcalled : fr.exc = false)
    (hd : (s.strand a).status.gdepth ≠ 0) :
    exec (.gret a f) s =
      .next ((s.updStrand a fun r => { r.pop with pc := fr.retpc.setWidth 64, lineBuf := none, lineNext := none }).issued a) := by
  obtain ⟨older, hframes⟩ := List.head?_eq_some_iff.mp hfr
  change execGret a f s = _
  unfold execGret
  refine sysCtl_go (by simp [hrd, hrs1, hrs2]) h ?_
  simpa [hrb, hframes, hcalled] using hd

theorem gret_gate_fault (hno : (s.strand a).status.gdepth = 0 ∨ (s.strand a).frames.head?.map (·.exc) = some true) :
    exec (.gret a f) s = .next (s.raise a cGate 0 0 0) := by
  change execGret a f s = _
  unfold execGret
  refine sysCtl_fault (by simp [hrd, hrs1, hrs2]) h ?_
  cases hframes : (s.strand a).frames with
  | nil => simp [hrb, hframes]
  | cons fr older =>
    have hbad : (s.strand a).status.gdepth = 0 ∨ fr.exc = true := by simpa [hframes] using hno
    rcases hbad with hd | hexc
    · simp [hrb, hframes, hd]
    · simp [hrb, hframes, hexc]

end Return

/-! ### A pop undoes a push -/

theorem Strand.pop_cons {r : Strand} {fr : EntryFrame} {older : List EntryFrame} (h : r.frames = fr :: older) :
    r.pop.vis = fr.savedvis ∧ Sparse.get 0 r.pop.wregs 15 = fr.savedw15 ∧ r.pop.status.gdepth = r.status.gdepth - 1 := by
  unfold Strand.pop
  rw [h]
  exact ⟨rfl, Sparse.get_set_self .., rfl⟩

/-- Settles O29: a gate call and its return by the outcome of their checks, and a pop by the frame that it takes. -/
theorem gateCallAndReturn : Obligations.GateCallAndReturn := by
  intro a f s r hrb
  refine ⟨fun w h hrd hw hk hC hX hbs hd hp => ?_, fun w h hrd hw hk hC hX hbs hfull => ?_,
    fun fr h hrd hrs1 hrs2 => gret_returns hrb h hrd hrs1 hrs2,
    fun h hrd hrs1 hrs2 => gret_gate_fault hrb h hrd hrs1 hrs2, fun fr => ?_⟩
  · rw [gcall_of_gate hrb h hrd hw hk hC hX hbs, if_neg (not_or.mpr ⟨hd, by simp [hp]⟩)]
    rfl
  · rw [gcall_of_gate hrb h hrd hw hk hC hX hbs, if_pos hfull]
  · obtain ⟨hvis, hw15, hdepth⟩ := Strand.pop_cons
      (r := { r with frames := fr :: r.frames, status := { r.status with gdepth := r.status.gdepth + 1 } }) rfl
    exact ⟨hvis, hw15, hdepth.trans (BitVec.add_sub_cancel ..)⟩

end Sys2Proof.Machine
end

section
/-! The vector state instructions (04 R93–R95): the effect of each on the strand, by the selector and the value; and what the instruction
does when it is ready, by the outcome of its effect. -/

namespace Sys2Proof.Machine

/-! ### vsetvl -/

/-- The effect of vsetvl (04 R94). -/
def Strand.setVecLength (r : Strand) (f : VF) : Option Strand :=
  let fmt := bitsOf f.imm.toNat 2 4
  let lg := bitsOf f.imm.toNat 0 2
  if fmt = 0 ∨ fmt = 15 then none
  else
    let n := min (r.g f.vs1).toNat (vlmax fmt lg)
    some ({ r with vgrp := BitVec.ofNat 2 lg, vfmt := BitVec.ofNat 11 (setBits r.vfmt.toNat 0 4 fmt),
                   vlen := BitVec.ofNat 16 n }.setG f.vd (word n))

theorem Strand.setVecLength_of_format (r : Strand) {f : VF} (h : bitsOf f.imm.toNat 2 4 ≠ 0 ∧ bitsOf f.imm.toNat 2 4 ≠ 15) :
    r.setVecLength f = some ({ r with
      vgrp := BitVec.ofNat 2 (bitsOf f.imm.toNat 0 2), vfmt := BitVec.ofNat 11 (setBits r.vfmt.toNat 0 4 (bitsOf f.imm.toNat 2 4)),
      vlen := BitVec.ofNat 16 (min (r.g f.vs1).toNat (vlmax (bitsOf f.imm.toNat 2 4) (bitsOf f.imm.toNat 0 2))) }.setG f.vd
        (word (min (r.g f.vs1).toNat (vlmax (bitsOf f.imm.toNat 2 4) (bitsOf f.imm.toNat 0 2))))) :=
  if_neg (not_or.mpr h)

theorem Strand.setVecLength_eq_none (r : Strand) {f : VF} (h : bitsOf f.imm.toNat 2 4 = 0 ∨ bitsOf f.imm.toNat 2 4 = 15) :
    r.setVecLength f = none := if_pos h

theorem exec_vsetvl (a : At) (f : VF) (s : State) :
    exec (.vsetvl a f) s = vectorState a f [f.vs1, f.vd] (Strand.setVecLength · f) s := rfl

/-! ### vsetmode -/

/-- The effect of vsetmode (04 R94). -/
def Strand.setVecMode (r : Strand) (v : Word) : Option Strand :=
  if !roundingOk (bitsOf v.toNat 4 3) then none
  else some { r with vfmt := BitVec.ofNat 11 (setBits r.vfmt.toNat 4 7 (bitsOf v.toNat 4 7)) }

theorem exec_vsetmode (a : At) (f : VF) (s : State) :
    exec (.vsetmode a f) s = vectorState a f [f.gs] (fun r => r.setVecMode (r.g f.gs)) s := rfl

theorem Strand.setVecMode_of_rounding (r : Strand) {v : Word} (h : roundingOk (bitsOf v.toNat 4 3) = true) :
    r.setVecMode v = some { r with vfmt := BitVec.ofNat 11 (setBits r.vfmt.toNat 4 7 (bitsOf v.toNat 4 7)) } :=
  if_neg (by simp [h])

theorem Strand.setVecMode_eq_none (r : Strand) {v : Word} (h : roundingOk (bitsOf v.toNat 4 3) = false) : r.setVecMode v = none :=
  if_pos (by simp [h])

/-! ### vrdst -/

theorem exec_vrdst (a : At) (f : VF) (s : State) :
    exec (.vrdst a f) s = vectorState a f [f.vd] (fun r => (r.vecState f.imm.toNat).map (r.setG f.vd ·)) s := rfl

theorem Strand.vecState_eq_none {sel : Nat} (h : 4 < sel) (r : Strand) : r.vecState sel = none := by
  unfold Strand.vecState
  split
  case h_6 => rfl
  all_goals omega

/-! ### vwrst -/

theorem exec_vwrst (a : At) (f : VF) (s : State) :
    exec (.vwrst a f) s = vectorState a f [f.gs] (fun r => r.writeVec f.imm.toNat (r.g f.gs)) s := rfl

theorem Strand.writeVec_vlen {r : Strand} {v : Word} (h : v.toNat % 2 ^ 16 ≤ vlmax (bitsOf r.vfmt.toNat 0 4) r.vgrp.toNat) :
    r.writeVec 0 v = some { r with vlen := v.setWidth 16 } := if_pos h

theorem Strand.writeVec_vfmt (r : Strand) {v : Word} (hf : bitsOf v.toNat 0 4 ≠ 15) (hr : roundingOk (bitsOf v.toNat 4 3) = true) :
    r.writeVec 1 v = some { r with vfmt := v.setWidth 11 } := if_neg (by simp [hf, hr])

/-- The writes that vwrst refuses (04 R95). -/
theorem Strand.writeVec_eq_none {r : Strand} {sel : BitVec 16} {v : Word}
    (h : sel = 3 ∨ 4 < sel.toNat ∨ sel = 0 ∧ vlmax (bitsOf r.vfmt.toNat 0 4) r.vgrp.toNat < v.toNat % 2 ^ 16 ∨
      sel = 1 ∧ (bitsOf v.toNat 0 4 = 15 ∨ roundingOk (bitsOf v.toNat 4 3) = false)) : r.writeVec sel.toNat v = none := by
  rcases h with rfl | hsel | ⟨rfl, hlong⟩ | ⟨rfl, hbad⟩
  · rfl
  · unfold Strand.writeVec
    split
    case h_5 => rfl
    all_goals omega
  · exact if_neg (Nat.not_le.mpr hlong)
  · exact if_pos (by simpa using hbad)

/-! ### The instructions that are ready -/

section Ready
variable {a : At} {f : VF} {s : State} (hsrc : f.src = 0) (hfmtx : f.fmtx = 0) (htrap : (s.strand a).trap = none)
include hsrc hfmtx htrap

theorem vectorState_some {uses : List (BitVec 5)} {eff : Strand → Option Strand} {r : Strand} (h : s.ready a 8 false uses = true)
    (e : eff (s.strand a) = some r) :
    vectorState a f uses eff s = .next ((s.setStrand a { r with vresume := 0 }).completed a 8) := by
  unfold vectorState State.issue64
  rw [State.issue_done h (t := s.setStrand a { r with vresume := 0 })]
  simp [htrap, hsrc, hfmtx, e]

theorem vectorState_none {uses : List (BitVec 5)} {eff : Strand → Option Strand} (h : s.ready a 8 false uses = true)
    (e : eff (s.strand a) = none) : vectorState a f uses eff s = .next (s.raise a cIllegal 0 0 (s.strand a).pc) := by
  unfold vectorState State.issue64
  rw [State.issue_fault h (c := cIllegal) (k := 0) (w := 0) (v := (s.strand a).pc)]
  simp [htrap, hsrc, hfmtx, e, illegal]

theorem vwrst_writes {r : Strand} {sel : BitVec 16} (h : s.ready a 8 false [f.gs] = true) (himm : f.imm = sel)
    (e : (s.strand a).writeVec sel.toNat (s.getG a f.gs) = some r) :
    exec (.vwrst a f) s = .next ((s.setStrand a { r with vresume := 0 }).completed a 8) := by
  rw [exec_vwrst, himm]
  exact vectorState_some hsrc hfmtx htrap h e

theorem vrdst_reads {v : Word} {sel : BitVec 16} (h : s.ready a 8 false [f.vd] = true) (himm : f.imm = sel)
    (e : (s.strand a).vecState sel.toNat = some v) :
    exec (.vrdst a f) s = .next ((s.updStrand a fun r => { r.setG f.vd v with vresume := 0 }).completed a 8) := by
  rw [exec_vrdst, himm]
  exact vectorState_some hsrc hfmtx htrap h (congrArg (Option.map _) e)

end Ready

/-- Settles O33: each instruction by the outcome of its effect, and the effect by the selector and the value. -/
theorem vectorStateInstructions : Obligations.VectorStateInstructions := by
  intro a f s hsrc hfmtx htrap
  refine ⟨fun h => ⟨fun hfmt => ?length, fun hfmt => ?lengthIllegal⟩, fun h => ⟨fun hr => ?mode, fun hr => ?modeIllegal,
    fun himm hlen => ?vlen, fun himm hfmt hr => ?vfmt, fun himm => ?vgrp, fun hbad => ?writeIllegal, fun himm => ?vflags⟩, fun h => ?vrdst⟩
  case length =>
    rw [exec_vsetvl, vectorState_some hsrc hfmtx htrap h (Strand.setVecLength_of_format _ hfmt)]
    rfl
  case lengthIllegal =>
    rw [exec_vsetvl, vectorState_none hsrc hfmtx htrap h (Strand.setVecLength_eq_none _ hfmt)]
  case mode =>
    rw [exec_vsetmode, vectorState_some hsrc hfmtx htrap h (Strand.setVecMode_of_rounding _ hr)]
    rfl
  case modeIllegal =>
    rw [exec_vsetmode, vectorState_none hsrc hfmtx htrap h (Strand.setVecMode_eq_none _ hr)]
  case vlen =>
    rw [vwrst_writes hsrc hfmtx htrap h himm (Strand.writeVec_vlen hlen)]
    rfl
  case vfmt =>
    rw [vwrst_writes hsrc hfmtx htrap h himm (Strand.writeVec_vfmt _ hfmt hr)]
    rfl
  case vgrp =>
    rw [vwrst_writes hsrc hfmtx htrap h himm rfl]
    rfl
  case vflags =>
    rw [vwrst_writes hsrc hfmtx htrap h himm rfl]
    rfl
  case writeIllegal => rw [exec_vwrst, vectorState_none hsrc hfmtx htrap h (Strand.writeVec_eq_none hbad)]
  case vrdst =>
    refine ⟨fun himm => ?_, fun himm => ?_, fun himm => ?_, fun himm => ?_, fun himm => ?_, fun hsel => ?_⟩
    iterate 5 exact vrdst_reads hsrc hfmtx htrap h himm rfl
    rw [exec_vrdst]
    exact vectorState_none hsrc hfmtx htrap h (congrArg (Option.map _) (Strand.vecState_eq_none hsel _))

end Sys2Proof.Machine
end

section
/-! What a strand declares for survival (16 R387, R393, R397), and the commands of survival that the gateway lets run (16 R385, R386,
R395–R397, R404, R406). -/

namespace Sys2Proof

/-- Reading a table from which a run of numbers has been cleared. -/
theorem Sparse.get_clear {α : Type} (d : α) (m : Sparse α) (k n j : Nat) :
    Sparse.get d (Sparse.clear m k n) j = if k ≤ j ∧ j < k + n then d else Sparse.get d m j := by
  induction m with
  | nil => simp [Sparse.clear, Sparse.get]
  | cons e m ih =>
    unfold Sparse.clear at ih ⊢
    by_cases h : k ≤ e.1 ∧ e.1 < k + n
    · rw [List.filter_cons_of_neg (by simpa using h), ih, Sparse.get_cons]
      by_cases hj : e.1 = j
      · rw [if_pos (hj ▸ h), if_pos (hj ▸ h)]
      · rw [if_neg hj]
    · rw [List.filter_cons_of_pos (by rw [decide_eq_true_eq]; exact h), Sparse.get_cons, Sparse.get_cons, ih]
      by_cases hj : e.1 = j
      · rw [if_pos hj, if_neg (hj ▸ h), if_pos hj]
      · rw [if_neg hj, if_neg hj]

end Sys2Proof

namespace Sys2Proof.Machine

/-! ### System operations that are ready, and host commands that set the Spine to work -/

theorem sysOp_of_zero {zero : List (BitVec 5)} (hz : ∀ i ∈ zero, i = 0) (a : At) (uses : List (BitVec 5)) (eff : State → Act) (s : State) :
    sysOp a zero uses eff s = s.issue32 a uses eff := by
  have hall : zero.all (· = 0) = true := List.all_eq_true.mpr fun i hi => decide_eq_true (hz i hi)
  unfold sysOp
  simp only [hall, if_true]

theorem sysOp_done {a : At} {zero uses : List (BitVec 5)} {eff : State → Act} {s t : State} (hz : ∀ i ∈ zero, i = 0)
    (h : s.ready a 4 true uses = true) (e : eff s = .done t) : sysOp a zero uses eff s = .next (t.completed a 4) := by
  rw [sysOp_of_zero hz, State.issue32, State.issue_done h e]

theorem sysOp_fault {a : At} {zero uses : List (BitVec 5)} {eff : State → Act} {s : State} {c k w : Nat} {v : Word}
    (hz : ∀ i ∈ zero, i = 0) (h : s.ready a 4 true uses = true) (e : eff s = .fault c k w v) :
    sysOp a zero uses eff s = .next (s.raise a c k w v) := by
  rw [sysOp_of_zero hz, State.issue32, State.issue_fault h e]

section
variable {s u : State} {c : Hdr} {x : Session} {op st : Nat} {tlvs : List Tlv} {run : State → Session → Res} (h : s.admits c x op = true)
include h

theorem State.hostWork_done (e : run (s.opened c x) (x.takes c) = .done st tlvs u) :
    s.hostWork c op run = (u.answer c op st tlvs).spineWork false := by
  rw [State.hostWork, State.command_done h e]

theorem State.hostWork_pend {w : Wait} (e : run (s.opened c x) (x.takes c) = .pend st tlvs w u) :
    s.hostWork c op run = (u.defer c op st tlvs w).spineWork false := by
  rw [State.hostWork, State.command_pend h e]

end

/-! ### qmark, qnorep and qckpt -/

section Declarations
variable {a : At} {f : RF} {s : State} {w : Warrant} (hk : w.kind = 6) (hb : w.bit 26 = true)
include hk hb

theorem qmark_records {l : Xlate} (h : s.ready a 4 true [f.rs1, f.rs2] = true) (hw : s.holdsWarrant a f.rd w = true)
    (hd : (s.strand a).status.gdepth = 0) (hal : (s.getG a f.rs1).toNat % 64 = 0)
    (hl : s.check a.t (s.auth a) .load (s.getG a f.rs1).toNat 64 false = .ok l) (hst : ((s.sendMerges a).tile a.t).storesDone a.h = true) :
    exec (.qmark a f) s = .next (((s.sendMerges a).updStrand a fun r => { r with
      stepRec := word ((s.getG a f.rs1).toNat % 2 ^ 56 + 2 ^ 63), stepPos := r.g f.rs2 }).completed a 4) := by
  refine sysOp_done (by simp) h ((State.needs_of_holdsWarrant hw (List.mem_singleton.mpr hk) hb _).trans ?_)
  simp only [State.getG] at hal hl ⊢
  simp [hd, hal, hl, hst]

theorem qmark_gate_fault (h : s.ready a 4 true [f.rs1, f.rs2] = true) (hw : s.holdsWarrant a f.rd w = true)
    (hd : (s.strand a).status.gdepth ≠ 0) : exec (.qmark a f) s = .next (s.raise a cGate 0 0 0) := by
  refine sysOp_fault (by simp) h ((State.needs_of_holdsWarrant hw (List.mem_singleton.mpr hk) hb _).trans ?_)
  exact if_pos hd

theorem qnorep_declares (h : s.ready a 4 true [] = true) (hrs1 : f.rs1 = 0) (hrs2 : f.rs2 = 0) (hw : s.holdsWarrant a f.rd w = true) :
    exec (.qnorep a f) s = .next ((s.spoilReplay a 2).completed a 4) :=
  sysOp_done (by simp [hrs1, hrs2]) h (State.needs_of_holdsWarrant hw (List.mem_singleton.mpr hk) hb _)

section Checkpoint
variable {u : State} (h : s.ready a 4 true [f.rd, f.rs2] = true) (hw : s.holdsWarrant a f.rs1 w = true)
include h hw

theorem qckpt_accepted (e : s.checkpointCode (s.tile a.t).quire.toNat (s.getG a f.rs2).toNat = (0, u)) :
    exec (.qckpt a f) s = .next (((u.beginFreeze (s.tile a.t).quire.toNat (s.getG a f.rs2).toNat false).putG a f.rd 0).completed a 4) := by
  refine sysOp_done (by simp) h ((State.needs_of_holdsWarrant hw (List.mem_singleton.mpr hk) hb _).trans ?_)
  unfold State.getG at e
  dsimp only
  rw [e]
  rfl

theorem qckpt_refused {n : Nat} (e : s.checkpointCode (s.tile a.t).quire.toNat (s.getG a f.rs2).toNat = (n + 1, u)) :
    exec (.qckpt a f) s = .next ((u.putG a f.rd (word (n + 1))).completed a 4) := by
  refine sysOp_done (by simp) h ((State.needs_of_holdsWarrant hw (List.mem_singleton.mpr hk) hb _).trans ?_)
  unfold State.getG at e
  dsimp only
  rw [e]
  rfl

end Checkpoint
end Declarations

/-! ### The replayable flag -/

section Replayable
variable (s : State) (a : At) (k : Nat)

theorem State.spoilReplay_of_spoilt {s : State} {a : At} (h : Sparse.get false s.noReplay (s.tile a.t).quire.toNat = true) :
    s.spoilReplay a k = s := if_pos h

theorem State.noReplay_spoilReplay : Sparse.get false (s.spoilReplay a k).noReplay (s.tile a.t).quire.toNat = true := by
  by_cases h : Sparse.get false s.noReplay (s.tile a.t).quire.toNat = true
  · rw [State.spoilReplay_of_spoilt k h, h]
  · unfold State.spoilReplay
    rw [if_neg h, State.updQuire_noReplay, Sparse.get_set_self]

/-- A second declaration has no further effect (16 R393). -/
theorem State.spoilReplay_spoilReplay (j : Nat) : (s.spoilReplay a k).spoilReplay a j = s.spoilReplay a k :=
  State.spoilReplay_of_spoilt j (by rw [State.tile_spoilReplay]; exact s.noReplay_spoilReplay a k)

theorem State.log_spoilReplay {s : State} {a : At} (h : Sparse.get false s.noReplay (s.tile a.t).quire.toNat = false) :
    ((s.spoilReplay a k).quire (s.tile a.t).quire.toNat).log = (s.quire (s.tile a.t).quire.toNat).log ++
      [{ kind := 5, addr := a.t.val + 256 * a.h.val + 2048 * k, len := 0, digest := 0 }] := by
  unfold State.spoilReplay
  rw [if_neg (by simp [h]), State.quire_updQuire]
  rfl

end Replayable

/-! ### Lost regions given back zeroed -/

/-- RECOVERREGION's work on one region (16 R386): its bytes zeroed, and the region assigned again. -/
def State.recoverRegion (s : State) (i : Nat) : State :=
  ((s.zeroRegion i).chargeOwn (8192 * i) 8192 1).setRegion i { s.region i with state := .assigned }

theorem State.mem_foldl_setStack {α : Type} (m : α → Nat) (x : State → α → Stack) (l : List α) (s : State) :
    (l.foldl (fun t e => t.setStack (m e) (x t e)) s).mem = s.mem := by
  induction l generalizing s with
  | nil => rfl
  | cons e l ih => exact ih _

@[simp] theorem State.mem_chargeOwn (s : State) (g n k : Nat) : (s.chargeOwn g n k).mem = s.mem := State.mem_foldl_setStack _ _ _ s

theorem State.region_recoverRegion (s : State) (i j : Nat) :
    (s.recoverRegion i).region j = if j = i then { s.region j with state := .assigned } else s.region j := by
  by_cases h : j = i
  · rw [if_pos h, h, State.recoverRegion, State.region_setRegion]
  · unfold State.recoverRegion State.setRegion State.region
    rw [if_neg h, Sparse.get_set_ne _ _ _ h, State.mem_chargeOwn]
    rfl

theorem State.byte_recoverRegion (s : State) (i b : Nat) :
    Sparse.get 0 (s.recoverRegion i).mem.bytes b = if b / 2 ^ 21 = i then 0 else Sparse.get 0 s.mem.bytes b := by
  have hin : (2 ^ 21 * i ≤ b ∧ b < 2 ^ 21 * i + 2 ^ 21) ↔ b / 2 ^ 21 = i := by omega
  unfold State.recoverRegion State.setRegion
  rw [State.mem_chargeOwn]
  exact (Sparse.get_clear ..).trans (if_congr hin rfl rfl)

theorem State.region_foldl_recoverRegion (s : State) (is : List Nat) (j : Nat) :
    (is.foldl State.recoverRegion s).region j = if j ∈ is then { s.region j with state := .assigned } else s.region j := by
  induction is generalizing s with
  | nil => rfl
  | cons i is ih =>
    rw [List.foldl_cons, ih, State.region_recoverRegion]
    by_cases hj : j = i
    · simp [hj]
    · simp [hj]

theorem State.byte_foldl_recoverRegion (s : State) (is : List Nat) (b : Nat) :
    Sparse.get 0 (is.foldl State.recoverRegion s).mem.bytes b = if b / 2 ^ 21 ∈ is then 0 else Sparse.get 0 s.mem.bytes b := by
  induction is generalizing s with
  | nil => rfl
  | cons i is ih =>
    simp only [List.foldl_cons, ih, State.byte_recoverRegion, List.mem_cons, ite_or]
    split_ifs <;> rfl

/-- RECOVERREGION's work on all the regions named: each recovered, and none of them lost any more. -/
def State.recoverRegions (s : State) (is : List Nat) : State :=
  let t := is.foldl State.recoverRegion s
  { t with lost := t.lost.filter (!is.contains ·) }

theorem State.region_recoverRegions (s : State) (is : List Nat) (j : Nat) :
    (s.recoverRegions is).region j = if j ∈ is then { s.region j with state := .assigned } else s.region j :=
  s.region_foldl_recoverRegion is j

theorem State.byte_recoverRegions (s : State) (is : List Nat) (b : Nat) :
    Sparse.get 0 (s.recoverRegions is).mem.bytes b = if b / 2 ^ 21 ∈ is then 0 else Sparse.get 0 s.mem.bytes b :=
  s.byte_foldl_recoverRegion is b

theorem State.not_mem_lost_recoverRegions {s : State} {is : List Nat} {i : Nat} (h : i ∈ is) : i ∉ (s.recoverRegions is).lost := by
  simp [State.recoverRegions, h]

/-! ### The commands of survival -/

section Commands
variable {s : State} {c : Hdr} {x : Session}

/-! PARTNER (16 R395) -/

section Partner
variable {p : PartnerReq} (h : s.admits c x 0x0600 = true)
include h

theorem partner_busy (hf : s.survive.freeze.isSome = true) : exec (.partner c p) s = .next ((s.opened c x).answer c 0x0600 stBusy []) := by
  refine congrArg Host.Outcome.next (State.command_done h ?_)
  simp [hf]

section Free
variable (hf : s.survive.freeze = none) (hr : s.survive.restoring = none)
include hf hr

theorem partner_policy (ht : tagsApart s.power.tags p.tags = false) :
    exec (.partner c p) s = .next ((s.opened c x).answer c 0x0600 stPolicy []) := by
  refine congrArg Host.Outcome.next (State.command_done h ?_)
  simp [hf, hr, ht]

theorem partner_no_resource (ht : tagsApart s.power.tags p.tags = true) (hn : p.fourHeld = true ∨ p.noQuire = true) :
    exec (.partner c p) s = .next ((s.opened c x).answer c 0x0600 stNoResource []) := by
  refine congrArg Host.Outcome.next (State.command_done h ?_)
  simp [hf, hr, ht, hn]

theorem partner_taken (ht : tagsApart s.power.tags p.tags = true) (h4 : p.fourHeld = false) (hq : p.noQuire = false) :
    exec (.partner c p) s =
      (let v := if s.survive.partner = some p.device.toNat then s.opened c x else (s.opened c x).leavePartner
       .next ((({ v with survive := { v.survive with partner := some p.device.toNat, partnerTags := p.tags } } : State).sendTags
         p.device.toNat).answer c 0x0600 stOk [])) := by
  refine congrArg Host.Outcome.next (State.command_done h ?_)
  rw [if_neg (by simp [hf, hr]), if_neg (by simp [ht]), if_neg (by simp [h4, hq])]
  rfl

end Free
end Partner

/-- CKESTIMATE (16 R396) answers with the regions that the next checkpoint copies, and takes at most a free value. -/
theorem ckestimate_answers (h : s.admits c x 0x0601 = true) :
    ∃ (t : State) (n : Nat), exec (.ckestimate c) s = .next (t.answer c 0x0601 stOk
      [{ type := 0x81, vals := [n] }, { type := 0x82, vals := [((s.opened c x).toCopy c.quire).length] }]) ∧
      t.mem = s.mem ∧ t.survive = s.survive :=
  ⟨((s.opened c x).takeFree).2, _, congrArg Host.Outcome.next (State.command_done h rfl), rfl, rfl⟩

/-! CHECKPOINT (16 R397), by the answer to the request -/

section Checkpoint
variable {bound : Nat} {v : State} (h : s.admits c x 0x0602 = true)
include h

theorem checkpoint_begins (e : (s.opened c x).checkpointCode c.quire bound = (0, v)) : exec (.checkpoint c bound) s =
    .next (((v.beginFreeze c.quire bound false).defer c 0x0602 stPending [] (.checkpoint c.quire)).spineWork false) := by
  refine congrArg Host.Outcome.next (State.hostWork_pend h ?_)
  rw [e]
  rfl

theorem checkpoint_refused {n st : Nat} (hn : (n, st) ∈ [(1, stPolicy), (2, stBusy), (3, stNoResource)])
    (e : (s.opened c x).checkpointCode c.quire bound = (n, v)) :
    exec (.checkpoint c bound) s = .next ((v.answer c 0x0602 st []).spineWork false) := by
  refine congrArg Host.Outcome.next (State.hostWork_done h ?_)
  rw [e]
  simp only [List.mem_cons, Prod.mk.injEq, List.not_mem_nil, or_false] at hn
  rcases hn with ⟨rfl, rfl⟩ | ⟨rfl, rfl⟩ | ⟨rfl, rfl⟩ <;> rfl

end Checkpoint

/-! RESTORE (16 R404) -/

section Restore
variable {p : RestoreReq} (h : s.admits c x 0x0603 = true)
include h

theorem restore_busy (hs : (s.opened c x).surviving = true) :
    exec (.restore c p) s = .next (((s.opened c x).answer c 0x0603 stBusy []).spineWork false) :=
  congrArg Host.Outcome.next (State.hostWork_done h (if_pos hs))

theorem restore_lost (hs : (s.opened c x).surviving = false) (hr : ((s.opened c x).routeOf p.device.toNat).isNone = true) :
    exec (.restore c p) s = .next (((s.opened c x).answer c 0x0603 stLost []).spineWork false) := by
  refine congrArg Host.Outcome.next (State.hostWork_done h ?_)
  rw [if_neg (by simp [hs]), if_pos hr]

theorem restore_begins (hs : (s.opened c x).surviving = false) (hr : ((s.opened c x).routeOf p.device.toNat).isSome = true) :
    exec (.restore c p) s = .next ((({ s.opened c x with survive := { (s.opened c x).survive with
      restoring := some { device := p.device.toNat, copyNum := 0, asked := false, copies := p.copies } } } : State).defer c 0x0603 stPending []
        .restore).spineWork false) := by
  refine congrArg Host.Outcome.next (State.hostWork_pend h ?_)
  rw [if_neg (by simp [hs]), if_neg (by rw [Option.isNone_iff_eq_none]; exact Option.isSome_iff_ne_none.mp hr)]

end Restore

/-! RECOVERREGION (16 R386) -/

section Recover
variable {regions : List Nat} (h : s.admits c x 0x0605 = true)
  (hm : regions.all ((s.opened c x).regionsOf c.quire).contains = true)
include h hm

theorem recoverregion_runs (hl : regions.all (fun i => (s.region i).state == .lost && s.lost.contains i) = true) :
    exec (.recoverregion c regions) s = .next (((s.opened c x).recoverRegions regions).twice c 0x0605 stPending [] stOk []) := by
  refine congrArg Host.Outcome.next (State.command_both h ?_)
  dsimp only
  rw [if_neg (by rw [hm]; decide), if_neg (by simp only [State.region_opened, State.lost_opened, hl]; decide)]
  rfl

/-- All the regions named are assigned again and zeroed, and no other region changes. -/
theorem recoverregion_recovers (hl : regions.all (fun i => (s.region i).state == .lost && s.lost.contains i) = true) :
    ∃ t : State, exec (.recoverregion c regions) s = .next (t.twice c 0x0605 stPending [] stOk []) ∧
      (∀ i ∈ regions, i ∉ t.lost ∧ (t.region i).state = .assigned ∧ ∀ b < 2 ^ 21, Sparse.get 0 t.mem.bytes (2 ^ 21 * i + b) = 0) ∧
      (∀ i, i ∉ regions → t.region i = s.region i) := by
  refine ⟨(s.opened c x).recoverRegions regions, recoverregion_runs h hm hl, fun i hi => ⟨?_, ?_, fun b hb => ?_⟩, fun i hi => ?_⟩
  · exact State.not_mem_lost_recoverRegions hi
  · rw [State.region_recoverRegions, if_pos hi]
  · have hreg : (2 ^ 21 * i + b) / 2 ^ 21 = i := by omega
    rw [State.byte_recoverRegions, hreg, if_pos hi]
  · rw [State.region_recoverRegions, if_neg hi, State.region_opened]

theorem recoverregion_bad_param (hl : regions.all (fun i => (s.region i).state == .lost && s.lost.contains i) = false) :
    exec (.recoverregion c regions) s = .next ((s.opened c x).answer c 0x0605 stBadParam []) := by
  refine congrArg Host.Outcome.next (State.command_done h ?_)
  dsimp only
  rw [if_neg (by rw [hm]; decide), if_pos (by simp only [State.region_opened, State.lost_opened, hl]; rfl)]

end Recover

/-! MAPOUT (16 R385) -/

section Mapout
variable {ch : Nat} (h : s.admits c x 0x0606 = true) (hch : ch < 640) (hrm : ch ∉ s.mem.removed)
  (hut : (s.chan ch).state ≠ .untrained)
include h hch hrm hut

theorem mapout_busy (hr : s.mem.restripe = .running ∨ s.mem.restripe = .paused) :
    exec (.mapout c ch) s = .next (((s.opened c x).answer c 0x0606 stBusy []).spineWork false) := by
  refine congrArg Host.Outcome.next (State.hostWork_done h ?_)
  simp [hch, hrm, hut, hr]

theorem mapout_begins (hr : ¬ (s.mem.restripe = .running ∨ s.mem.restripe = .paused)) :
    exec (.mapout c ch) s = .next ((((s.opened c x).candidate ch false).defer c 0x0606 stPending [] (.mapout ch)).spineWork false) := by
  refine congrArg Host.Outcome.next (State.hostWork_pend h ?_)
  simp [hch, hrm, hut, hr]

end Mapout

/-! FAILOVER (16 R406) -/

section Failover
variable (h : s.admits c x 0x0607 = true)
include h

theorem failover_ok (hb : s.bothSpines = true) : exec (.failover c) s = .next ((s.opened c x).takeover.answer c 0x0607 stOk []) :=
  congrArg Host.Outcome.next (State.command_done h (if_pos hb))

theorem failover_failed (hb : s.bothSpines = false) : exec (.failover c) s = .next ((s.opened c x).answer c 0x0607 stFailed []) :=
  congrArg Host.Outcome.next (State.command_done h (if_neg (Bool.eq_false_iff.mp hb)))

end Failover
end Commands

/-! ### The statement -/

/-- Settles O56: each declaration by the outcome of its checks; the replayable flag, once spoilt, by what it was; and each command by what it
finds. -/
theorem survivalInstructionsAndCommands : Obligations.SurvivalInstructionsAndCommands := by
  refine ⟨fun a f s w hk hb => ⟨fun l => qmark_records hk hb, qmark_gate_fault hk hb, qnorep_declares hk hb, ?flag, fun h hw => ?qckpt⟩,
    fun c x s => ⟨fun p h => ?partner, ckestimate_answers, fun bound h => ?checkpoint, fun p => restore_busy, fun p h hs => ?restore,
      fun regions h hm => ?recover, fun ch h hch hrm hut => ?mapout, fun h => ⟨failover_ok h, failover_failed h⟩⟩⟩
  case flag =>
    exact ⟨s.noReplay_spoilReplay a 2, State.spoilReplay_of_spoilt 2, s.spoilReplay_spoilReplay a 2 2, State.log_spoilReplay 2⟩
  case qckpt => exact ⟨fun u => qckpt_accepted hk hb h hw, fun n u => qckpt_refused hk hb h hw⟩
  case partner =>
    exact ⟨partner_busy h, partner_policy h, fun hf hr ht => ⟨partner_no_resource h hf hr ht, partner_taken h hf hr ht⟩⟩
  case checkpoint =>
    exact ⟨fun v => checkpoint_begins h, fun v => checkpoint_refused h (by simp), fun v => checkpoint_refused h (by simp),
      fun v => checkpoint_refused h (by simp)⟩
  case restore => exact ⟨restore_lost h hs, restore_begins h hs⟩
  case recover => exact ⟨recoverregion_recovers h hm, recoverregion_bad_param h hm⟩
  case mapout =>
    have hin : ch ∉ s.mem.removed := by simpa using hrm
    exact ⟨mapout_busy h hch hin hut, fun hrun hpause => mapout_begins h hch hin hut (not_or.mpr ⟨hrun, hpause⟩)⟩

end Sys2Proof.Machine
end

section
/-! Every command answers a next state, takes nothing from the queue and keeps the canonical form of memory: one lemma for each command
that is more than a shared operation, and from them what a step keeps. -/

namespace Sys2Proof.Machine

theorem execShi_kept {s0 s : State} (h : s0.Kept s) (a : At) (f : IF) : Out.Keeps s0 (execShi a f s) := by
  unfold execShi
  dsimp only
  repeat' first
    | with_reducible assumption | with_reducible apply illegal_kept | with_reducible apply State.issue32_kept
    | with_reducible apply result_kept | intro _ | split

theorem execJr_kept {s0 s : State} (h : s0.Kept s) (a : At) (f : RF) (fn : BitVec 11) : Out.Keeps s0 (execJr a f fn s) := by
  unfold execJr
  repeat' first
    | with_reducible assumption | with_reducible apply illegal_kept | with_reducible apply State.issueCtl_kept
    | with_reducible apply toSlot_kept | intro _ | split

theorem execJalr_kept {s0 s : State} (h : s0.Kept s) (a : At) (f : RF) (fn : BitVec 11) : Out.Keeps s0 (execJalr a f fn s) := by
  unfold execJalr
  repeat' first
    | with_reducible assumption | with_reducible apply illegal_kept | with_reducible apply State.issueCtl_kept
    | with_reducible apply toSlot_kept | intro _ | split

theorem execLoop_kept {s0 s : State} (h : s0.Kept s) (a : At) (z : BitVec 5) (rs1 : BitVec 5) (n : BitVec 16) :
    Out.Keeps s0 (execLoop a z rs1 n s) := by
  unfold execLoop
  dsimp only
  repeat' first
    | with_reducible assumption | with_reducible apply illegal_kept | with_reducible apply State.issueCtl_kept
    | with_reducible apply State.setStrand_kept | with_reducible apply Act.keeps_go | intro _ | split

theorem execIcinv_kept {s0 s : State} (h : s0.Kept s) (a : At) (f : RF) : Out.Keeps s0 (execIcinv a f s) := by
  unfold execIcinv
  dsimp only
  repeat' first
    | with_reducible assumption | with_reducible apply State.startWalk_kept | with_reducible apply sysOp_kept
    | with_reducible apply State.updTile_kept | with_reducible apply Act.keeps_done | with_reducible apply Act.keeps_later | intro _
    | split

theorem execTileOpBegin_kept {s0 s : State} (h : s0.Kept s) (t : TileId) (k : Nat) : Out.Keeps s0 (execTileOpBegin t k s) := by
  unfold execTileOpBegin
  dsimp only
  repeat' first
    | with_reducible assumption | with_reducible apply State.countTile_kept | with_reducible apply State.payTile_kept
    | with_reducible apply State.setTile_kept | with_reducible apply Out.keeps_next | split

theorem execTileRowReturn_kept {s0 s : State} (h : s0.Kept s) (t : TileId) (k : Nat) : Out.Keeps s0 (execTileRowReturn t k s) := by
  unfold execTileRowReturn
  repeat' first
    | with_reducible assumption | with_reducible apply State.rowFault_kept | with_reducible apply State.setTile_kept
    | with_reducible apply State.tileAccess_kept | with_reducible apply Out.keeps_next | split

theorem execTileOpCommit_kept {s0 s : State} (h : s0.Kept s) (t : TileId) (k : Nat) : Out.Keeps s0 (execTileOpCommit t k s) := by
  unfold execTileOpCommit
  repeat' first
    | with_reducible assumption | with_reducible apply State.setTile_kept | with_reducible apply Out.keeps_next | split

theorem execDummyRowFeed_kept {s0 s : State} (h : s0.Kept s) (t : TileId) (arr : Fin 4) : Out.Keeps s0 (execDummyRowFeed t arr s) := by
  unfold execDummyRowFeed
  repeat' first
    | with_reducible assumption | with_reducible apply State.setTile_kept | with_reducible apply Out.keeps_next | split

theorem execArrayDrainDone_kept {s0 s : State} (h : s0.Kept s) (t : TileId) : Out.Keeps s0 (execArrayDrainDone t s) := by
  unfold execArrayDrainDone
  repeat' first
    | with_reducible assumption | with_reducible apply State.setTile_kept | with_reducible apply Out.keeps_next | split

theorem execTcfg_kept {s0 s : State} (h : s0.Kept s) (a : At) (f : CF) : Out.Keeps s0 (execTcfg a f s) := by
  unfold execTcfg
  dsimp only
  repeat' first
    | with_reducible assumption | with_reducible apply illegal_kept | with_reducible apply tileCtl_kept
    | with_reducible apply State.updTile_kept | with_reducible apply Act.keeps_done | with_reducible apply Act.keeps_wait | intro _
    | split

theorem execTileCfgStore_kept {s0 s : State} (h : s0.Kept s) (t : TileId) (v : Word) : Out.Keeps s0 (execTileCfgStore t v s) := by
  unfold execTileCfgStore
  repeat' first
    | with_reducible assumption | with_reducible apply State.updTile_kept | with_reducible apply Out.keeps_next | split

theorem execTwait_kept {s0 s : State} (h : s0.Kept s) (a : At) (f : CF) : Out.Keeps s0 (execTwait a f s) := by
  unfold execTwait
  repeat' first
    | with_reducible assumption | with_reducible apply State.attempt_kept | with_reducible apply illegal_kept
    | with_reducible apply State.issueWith_kept | with_reducible apply State.tileReach_kept | with_reducible apply Act.keeps_done
    | with_reducible apply Out.keeps_next | intro _ | split

theorem execTrpld_kept {s0 s : State} (h : s0.Kept s) (a : At) (f : CF) : Out.Keeps s0 (execTrpld a f s) := by
  unfold execTrpld
  dsimp only
  repeat' first
    | with_reducible assumption | with_reducible apply State.startReplay_kept | with_reducible apply State.startWalk_kept
    | with_reducible apply tileCtl_kept | with_reducible apply Act.keeps_go | with_reducible apply Act.keeps_later
    | with_reducible apply Act.keeps_fault | intro _ | split

theorem execVectorOpComplete_kept {s0 s : State} (h : s0.Kept s) (t : TileId) (p : Pipe) : Out.Keeps s0 (execVectorOpComplete t p s) := by
  unfold execVectorOpComplete
  repeat' first
    | with_reducible assumption | with_reducible apply State.arithDone_kept | with_reducible apply State.memDone_kept
    | with_reducible apply Out.keeps_next | split

theorem execAmo_kept {s0 s : State} (h : s0.Kept s) (a : At) (f : RF) (fn : BitVec 11) : Out.Keeps s0 (execAmo a f fn s) := by
  unfold execAmo
  dsimp only
  repeat' first
    | with_reducible assumption | with_reducible apply illegal_kept | with_reducible apply State.issue32_kept
    | with_reducible apply State.spoilReplay_kept | with_reducible apply State.startLoad_kept | with_reducible apply State.startWalk_kept
    | with_reducible apply Act.keeps_done | with_reducible apply Act.keeps_later | with_reducible apply Act.keeps_wait
    | with_reducible apply Act.keeps_fault | intro _ | split

theorem execWmov_kept {s0 s : State} (h : s0.Kept s) (a : At) (f : RF) : Out.Keeps s0 (execWmov a f s) := by
  unfold execWmov
  repeat' first
    | with_reducible assumption | with_reducible apply State.needs_kept | with_reducible apply State.setW_kept
    | with_reducible apply sysOp_kept | with_reducible apply State.target_kept | with_reducible apply Act.keeps_done | intro _

theorem execWclr_kept {s0 s : State} (h : s0.Kept s) (a : At) (f : RF) : Out.Keeps s0 (execWclr a f s) := by
  unfold execWclr
  repeat' first
    | with_reducible assumption | with_reducible apply State.setW_kept | with_reducible apply sysOp_kept
    | with_reducible apply State.target_kept | with_reducible apply Act.keeps_done | intro _

theorem execWget_kept {s0 s : State} (h : s0.Kept s) (a : At) (f : RF) : Out.Keeps s0 (execWget a f s) := by
  unfold execWget
  repeat' first
    | with_reducible assumption | with_reducible apply illegal_kept | with_reducible apply result_kept
    | with_reducible apply State.source_kept | with_reducible apply sysOp_kept | intro _ | split

theorem execWsv_kept {s0 s : State} (h : s0.Kept s) (a : At) (f : RF) : Out.Keeps s0 (execWsv a f s) := by
  unfold execWsv
  dsimp only
  repeat' first
    | with_reducible assumption | with_reducible apply State.enterStore_kept | with_reducible apply State.needs_kept
    | with_reducible apply State.startWalk_kept | with_reducible apply sysOp_kept | with_reducible apply Act.keeps_later
    | with_reducible apply Act.keeps_fault | intro _ | split

theorem execWld_kept {s0 s : State} (h : s0.Kept s) (a : At) (f : RF) : Out.Keeps s0 (execWld a f s) := by
  unfold execWld
  dsimp only
  repeat' first
    | with_reducible assumption | with_reducible apply State.startLoad_kept | with_reducible apply State.startWalk_kept
    | with_reducible apply sysOp_kept | with_reducible apply State.target_kept | with_reducible apply State.updStrand_kept
    | with_reducible apply Act.keeps_go | with_reducible apply Act.keeps_later | with_reducible apply Act.keeps_wait
    | with_reducible apply Act.keeps_fault | intro _ | split

theorem execGcall_kept {s0 s : State} (h : s0.Kept s) (a : At) (f : RF) : Out.Keeps s0 (execGcall a f s) := by
  unfold execGcall
  dsimp only
  repeat' first
    | with_reducible assumption | with_reducible apply State.needs_kept | with_reducible apply State.pushFrame_kept
    | with_reducible apply sysCtl_kept | with_reducible apply State.updStrand_kept | with_reducible apply wfault_kept
    | with_reducible apply Act.keeps_go | with_reducible apply Act.keeps_wait | with_reducible apply Act.keeps_fault | intro _ | split

theorem execGret_kept {s0 s : State} (h : s0.Kept s) (a : At) (f : RF) : Out.Keeps s0 (execGret a f s) := by
  unfold execGret
  dsimp only
  repeat' first
    | with_reducible assumption | with_reducible apply sysCtl_kept | with_reducible apply State.updStrand_kept
    | with_reducible apply Act.keeps_go | with_reducible apply Act.keeps_wait | with_reducible apply Act.keeps_fault | intro _ | split

theorem execQfloor_kept {s0 s : State} (h : s0.Kept s) (a : At) (f : RF) : Out.Keeps s0 (execQfloor a f s) := by
  unfold execQfloor
  dsimp only
  repeat' first
    | with_reducible assumption | with_reducible apply State.needs_kept | with_reducible apply sysOp_kept
    | with_reducible apply State.updStrand_kept | with_reducible apply wfault_kept | with_reducible apply Act.keeps_done | intro _ | split

theorem execFence_kept {s0 s : State} (h : s0.Kept s) (a : At) (f : RF) : Out.Keeps s0 (execFence a f s) := by
  unfold execFence
  dsimp only
  repeat' first
    | with_reducible assumption | with_reducible apply State.sendMerges_kept | with_reducible apply sysOp_kept
    | with_reducible apply Act.keeps_done | with_reducible apply Act.keeps_later | intro _ | split

theorem execFenceLd_kept {s0 s : State} (h : s0.Kept s) (a : At) (f : RF) : Out.Keeps s0 (execFenceLd a f s) := by
  unfold execFenceLd
  repeat' first
    | with_reducible assumption | with_reducible apply sysOp_kept | with_reducible apply Act.keeps_done
    | with_reducible apply Act.keeps_wait | intro _ | split

theorem execPfs_kept {s0 s : State} (h : s0.Kept s) (a : At) (f : RF) : Out.Keeps s0 (execPfs a f s) := by
  unfold execPfs
  dsimp only
  repeat' first
    | with_reducible assumption | with_reducible apply illegal_kept | with_reducible apply sysOp_kept
    | with_reducible apply State.updTile_kept | with_reducible apply Act.keeps_done | intro _ | split

theorem execStreamPrefetchRequest_kept {s0 s : State} (h : s0.Kept s) (t : TileId) (k : Fin 16) :
    Out.Keeps s0 (execStreamPrefetchRequest t k s) := by
  unfold execStreamPrefetchRequest
  dsimp only
  repeat' first
    | with_reducible assumption | with_reducible apply State.requestLine_kept | with_reducible apply State.startWalk_kept
    | with_reducible apply State.updTile_kept | with_reducible apply Out.keeps_next | split

theorem execFillReturn_kept {s0 s : State} (h : s0.Kept s) (t : TileId) (place : Nat) (weak torn : BitVec 32) :
    Out.Keeps s0 (execFillReturn t place weak torn s) := by
  unfold execFillReturn
  repeat' first
    | with_reducible assumption | with_reducible apply State.setTile_kept | with_reducible apply Out.keeps_next | split

theorem execMergingBufferSend_kept {s0 s : State} (h : s0.Kept s) (t : TileId) (k : Nat) : Out.Keeps s0 (execMergingBufferSend t k s) := by
  unfold execMergingBufferSend
  repeat' first
    | with_reducible assumption | with_reducible apply State.sendMerge_kept | with_reducible apply Out.keeps_next | split

theorem execWritebackRefused_kept {s0 s : State} (h : s0.Kept s) (t : TileId) : Out.Keeps s0 (execWritebackRefused t s) := by
  unfold execWritebackRefused
  repeat' first
    | with_reducible assumption | with_reducible apply State.setTile_kept | with_reducible apply Out.keeps_next | split

theorem execPageWalkRead_kept {s0 s : State} (h : s0.Kept s) (t : TileId) (k : Nat) : Out.Keeps s0 (execPageWalkRead t k s) := by
  unfold execPageWalkRead
  dsimp only
  repeat' first
    | with_reducible assumption | with_reducible apply State.ask_kept | with_reducible apply State.endWalk_kept
    | with_reducible apply State.failWalk_kept | with_reducible apply State.setTile_kept | with_reducible apply State.updTile_kept
    | with_reducible apply Out.keeps_next | split

theorem execMeshPacketDeliver_kept {s0 s : State} (h : s0.Kept s) (c : MeshClass) (src dst : MeshPort) :
    Out.Keeps s0 (execMeshPacketDeliver c src dst s) := by
  unfold execMeshPacketDeliver
  repeat' first
    | with_reducible assumption | with_reducible apply State.creditBack_kept | with_reducible apply State.setStack_kept
    | with_reducible apply State.updTile_kept | with_reducible apply Out.keeps_next | fail_if_no_progress with_reducible apply kept_mk
    | split

theorem execStackPortAccept_kept {s0 s : State} (h : s0.Kept s) (m : StackId) : Out.Keeps s0 (execStackPortAccept m s) := by
  unfold execStackPortAccept
  dsimp only
  repeat' first
    | with_reducible assumption | with_reducible apply State.enterTailband_kept | with_reducible apply State.setStack_kept
    | with_reducible apply Out.keeps_next | fail_if_no_progress with_reducible apply kept_mk | split

theorem execPatrolScrub_kept {s0 s : State} (h : s0.Kept s) (m : StackId) (u : Nat) (e : Ecc) : Out.Keeps s0 (execPatrolScrub m u e s) := by
  unfold execPatrolScrub
  repeat' first
    | with_reducible assumption | with_reducible apply State.meet_kept | with_reducible apply State.setStack_kept
    | with_reducible apply State.strike_kept | with_reducible apply Out.keeps_next | split

theorem execRetrainStart_kept {s0 s : State} (h : s0.Kept s) (c : ChannelId) (ms : Nat) : Out.Keeps s0 (execRetrainStart c ms s) := by
  unfold execRetrainStart
  repeat' first
    | with_reducible assumption | with_reducible apply State.setChan_kept | with_reducible apply Out.keeps_next | split

theorem execRetrainQuiesceDone_kept {s0 s : State} (h : s0.Kept s) (c : ChannelId) : Out.Keeps s0 (execRetrainQuiesceDone c s) := by
  unfold execRetrainQuiesceDone
  repeat' first
    | with_reducible assumption | with_reducible apply State.setChan_kept | with_reducible apply Out.keeps_next | split

theorem execRetrainTrainDone_kept {s0 s : State} (h : s0.Kept s) (c : ChannelId) (ok : Bool) :
    Out.Keeps s0 (execRetrainTrainDone c ok s) := by
  unfold execRetrainTrainDone
  repeat' first
    | with_reducible assumption | with_reducible apply State.alarm_kept | with_reducible apply State.risk_kept
    | with_reducible apply State.setChan_kept | with_reducible apply State.watchRisk_kept | with_reducible apply Out.keeps_next | split

theorem execRetrainResumeDone_kept {s0 s : State} (h : s0.Kept s) (c : ChannelId) : Out.Keeps s0 (execRetrainResumeDone c s) := by
  unfold execRetrainResumeDone
  repeat' first
    | with_reducible assumption | with_reducible apply State.candidate_kept | with_reducible apply State.setChan_kept
    | with_reducible apply State.setStack_kept | with_reducible apply Out.keeps_next | split

theorem execRestripeStart_kept {s0 s : State} (h : s0.Kept s) : Out.Keeps s0 (execRestripeStart s) := by
  unfold execRestripeStart
  repeat' first
    | with_reducible assumption | with_reducible apply State.nextRestripe_kept | with_reducible apply State.tryRestripe_kept
    | with_reducible apply Out.keeps_next | split

theorem execRestripeBatch_kept {s0 s : State} (h : s0.Kept s) : Out.Keeps s0 (execRestripeBatch s) := by
  unfold execRestripeBatch
  dsimp only
  repeat' first
    | with_reducible assumption | with_reducible apply State.chargeMove_kept | with_reducible apply State.endRestripe_kept
    | with_reducible apply State.meet_kept | with_reducible apply State.zeroBytes_kept | with_reducible apply Out.keeps_next
    | with_reducible apply kept_foldl | intro _ | fail_if_no_progress with_reducible apply kept_mem | split

theorem execChannelDead_kept {s0 s : State} (h : s0.Kept s) (c : ChannelId) : Out.Keeps s0 (execChannelDead c s) := by
  unfold execChannelDead
  repeat' first
    | with_reducible assumption | with_reducible apply State.alarm_kept | with_reducible apply State.candidate_kept
    | with_reducible apply State.loseRegion_kept | with_reducible apply State.setChan_kept | with_reducible apply State.zeroBytes_kept
    | with_reducible apply Out.keeps_next | with_reducible apply kept_foldl | intro _ | fail_if_no_progress with_reducible apply kept_mk
    | split

theorem execXret_kept {s0 s : State} (h : s0.Kept s) (a : At) (f : RF) : Out.Keeps s0 (execXret a f s) := by
  unfold execXret
  dsimp only
  repeat' first
    | with_reducible assumption | with_reducible apply State.leaveBackstop_kept | with_reducible apply State.startLoad_kept
    | with_reducible apply State.startWalk_kept | with_reducible apply sysCtl_kept | with_reducible apply State.updStrand_kept
    | with_reducible apply Act.keeps_go | with_reducible apply Act.keeps_later | with_reducible apply Act.keeps_wait
    | with_reducible apply Act.keeps_fault | intro _ | split

theorem execWrstat_kept {s0 s : State} (h : s0.Kept s) (a : At) (f : RF) : Out.Keeps s0 (execWrstat a f s) := by
  unfold execWrstat
  dsimp only
  repeat' first
    | with_reducible assumption | with_reducible apply State.setStrand_kept | with_reducible apply sysOp_kept
    | with_reducible apply Act.keeps_done | with_reducible apply Act.keeps_wait | intro _ | split

theorem execExceptionEntry_kept {s0 s : State} (h : s0.Kept s) (a : At) : Out.Keeps s0 (execExceptionEntry a s) := by
  unfold execExceptionEntry
  repeat' first
    | with_reducible assumption | with_reducible apply State.takeEvent_kept | with_reducible apply State.takeFailedLoads_kept
    | with_reducible apply State.takeRecur_kept | with_reducible apply State.takeTrap_kept | with_reducible apply Out.keeps_next | split

theorem execCgset_kept {s0 s : State} (h : s0.Kept s) (a : At) (f : RF) : Out.Keeps s0 (execCgset a f s) := by
  unfold execCgset
  dsimp only
  repeat' first
    | with_reducible assumption | with_reducible apply State.needs_kept | with_reducible apply State.sectorFault_kept
    | with_reducible apply State.startOperand_kept | with_reducible apply State.startWalk_kept | with_reducible apply sysOp_kept
    | with_reducible apply Act.keeps_go | with_reducible apply Act.keeps_later | with_reducible apply Act.keeps_fault | intro _ | split

theorem execCgclr_kept {s0 s : State} (h : s0.Kept s) (a : At) (f : RF) : Out.Keeps s0 (execCgclr a f s) := by
  unfold execCgclr
  dsimp only
  repeat' first
    | with_reducible assumption | with_reducible apply State.needs_kept | with_reducible apply State.setGroup_kept
    | with_reducible apply sysOp_kept | with_reducible apply wfault_kept | with_reducible apply Act.keeps_done
    | with_reducible apply Act.keeps_wait | intro _ | split

theorem execCollectiveBoundExpiry_kept {s0 s : State} (h : s0.Kept s) (g : GroupId) : Out.Keeps s0 (execCollectiveBoundExpiry g s) := by
  unfold execCollectiveBoundExpiry
  repeat' first
    | with_reducible assumption | with_reducible apply State.raiseColl_kept | with_reducible apply Out.keeps_next | split

theorem execAbort_kept {s0 s : State} (h : s0.Kept s) (group : GroupId) (seq : BitVec 32) (status : BitVec 8) (rank : BitVec 20) :
    Out.Keeps s0 (execAbort group seq status rank s) := by
  unfold execAbort
  repeat' first
    | with_reducible assumption | with_reducible apply State.abortColl_kept | with_reducible apply Out.keeps_next | split

theorem execCcol_kept {s0 s : State} (h : s0.Kept s) (a : At) (f : RF) : Out.Keeps s0 (execCcol a f s) := by
  unfold execCcol
  repeat' first
    | with_reducible assumption | with_reducible apply State.needs_kept | with_reducible apply State.startOperand_kept
    | with_reducible apply State.startWalk_kept | with_reducible apply sysOp_kept | with_reducible apply Act.keeps_go
    | with_reducible apply Act.keeps_later | with_reducible apply Act.keeps_fault | intro _ | split

theorem execThermalStopBound_kept {s0 s : State} (h : s0.Kept s) (m : StackId) : Out.Keeps s0 (execThermalStopBound m s) := by
  unfold execThermalStopBound
  repeat' first
    | with_reducible assumption | with_reducible apply State.alarm_kept | with_reducible apply State.raiseColl_kept
    | with_reducible apply State.risk_kept | with_reducible apply State.setStack_kept | with_reducible apply Out.keeps_next
    | with_reducible apply kept_foldl | intro _ | split

theorem execXstart_kept {s0 s : State} (h : s0.Kept s) (a : At) (f : RF) : Out.Keeps s0 (execXstart a f s) := by
  unfold execXstart
  repeat' first
    | with_reducible assumption | with_reducible apply State.needs_kept | with_reducible apply State.startOperand_kept
    | with_reducible apply State.startWalk_kept | with_reducible apply sysOp_kept | with_reducible apply Act.keeps_go
    | with_reducible apply Act.keeps_later | with_reducible apply Act.keeps_fault | intro _ | split

theorem execTransferPieceDone_kept {s0 s : State} (h : s0.Kept s) (k : Nat) : Out.Keeps s0 (execTransferPieceDone k s) := by
  unfold execTransferPieceDone
  dsimp only
  repeat' first
    | with_reducible assumption | with_reducible apply State.askPiece_kept | with_reducible apply State.endTransfer_kept
    | with_reducible apply State.landPiece_kept | with_reducible apply State.readSpan_kept
    | with_reducible apply State.recordTransfer_kept | with_reducible apply Out.keeps_next
    | (with_reducible eapply kept_pair; with_reducible assumption) | split

theorem execFrameSend_kept {s0 s : State} (h : s0.Kept s) (p : PortId) : Out.Keeps s0 (execFrameSend p s) := by
  unfold execFrameSend
  dsimp only
  repeat' first
    | with_reducible assumption | with_reducible apply State.setPort_kept | with_reducible apply State.startLive_kept
    | with_reducible apply Out.keeps_next | split

theorem execFrameReceive_kept {s0 s : State} (h : s0.Kept s) (p : PortId) (fr : Frame) : Out.Keeps s0 (execFrameReceive p fr s) := by
  unfold execFrameReceive
  repeat' first
    | with_reducible assumption | with_reducible apply State.acceptBlocks_kept | with_reducible apply State.alarm_kept
    | with_reducible apply State.failPort_kept | with_reducible apply State.setPort_kept | with_reducible apply Out.keeps_next | split

theorem execRetryTimeout_kept {s0 s : State} (h : s0.Kept s) (p : PortId) : Out.Keeps s0 (execRetryTimeout p s) := by
  unfold execRetryTimeout
  repeat' first
    | with_reducible assumption | with_reducible apply State.setPort_kept | with_reducible apply Out.keeps_next | split

theorem execSpliceKeyChange_kept {s0 s : State} (h : s0.Kept s) (p : PortId) : Out.Keeps s0 (execSpliceKeyChange p s) := by
  unfold execSpliceKeyChange
  repeat' first
    | with_reducible assumption | with_reducible apply State.setPort_kept | with_reducible apply Out.keeps_next | split

theorem execEsignal_kept {s0 s : State} (h : s0.Kept s) (a : At) (f : RF) : Out.Keeps s0 (execEsignal a f s) := by
  unfold execEsignal
  dsimp only
  repeat' first
    | with_reducible assumption | with_reducible apply State.needs_kept | with_reducible apply State.originate_kept
    | with_reducible apply State.sendMerges_kept | with_reducible apply State.signal_kept | with_reducible apply sysOp_kept
    | with_reducible apply Act.keeps_done | with_reducible apply Act.keeps_later | intro _ | split

theorem execLaneAdaptationDone_kept {s0 s : State} (h : s0.Kept s) (p : PortId) (lowOk highOk : Bool) :
    Out.Keeps s0 (execLaneAdaptationDone p lowOk highOk s) := by
  unfold execLaneAdaptationDone
  repeat' first
    | with_reducible assumption | with_reducible apply State.failPort_kept | with_reducible apply State.setPort_kept
    | with_reducible apply Out.keeps_next | split

theorem execAlignmentDone_kept {s0 s : State} (h : s0.Kept s) (p : PortId) (ok : Bool) : Out.Keeps s0 (execAlignmentDone p ok s) := by
  unfold execAlignmentDone
  repeat' first
    | with_reducible assumption | with_reducible apply State.failPort_kept | with_reducible apply State.setPort_kept
    | with_reducible apply Out.keeps_next | split

theorem execKeyExchangeDone_kept {s0 s : State} (h : s0.Kept s) (p : PortId) (o : PeerOffer) :
    Out.Keeps s0 (execKeyExchangeDone p o s) := by
  unfold execKeyExchangeDone
  repeat' first
    | with_reducible assumption | with_reducible apply State.failPort_kept | with_reducible apply State.setPort_kept
    | with_reducible apply State.takeFree_kept | with_reducible apply Out.keeps_next | split

theorem execLiveRetrainDone_kept {s0 s : State} (h : s0.Kept s) (p : PortId) (ok : Bool) : Out.Keeps s0 (execLiveRetrainDone p ok s) := by
  unfold execLiveRetrainDone
  repeat' first
    | with_reducible assumption | with_reducible apply State.failPort_kept | with_reducible apply State.setPort_kept
    | with_reducible apply Out.keeps_next | split

theorem execPortDrainTimeout_kept {s0 s : State} (h : s0.Kept s) (p : PortId) : Out.Keeps s0 (execPortDrainTimeout p s) := by
  unfold execPortDrainTimeout
  repeat' first
    | with_reducible assumption | with_reducible apply State.alarm_kept | with_reducible apply State.setPort_kept
    | with_reducible apply Out.keeps_next | split

theorem execSpliceConnectorMated_kept {s0 s : State} (h : s0.Kept s) (p : PortId) : Out.Keeps s0 (execSpliceConnectorMated p s) := by
  unfold execSpliceConnectorMated
  repeat' first
    | with_reducible assumption | with_reducible apply State.setPort_kept | with_reducible apply Out.keeps_next | split

theorem execCommandPacketDiscard_kept {s0 s : State} (h : s0.Kept s) (e : EthId) (why : DiscardWhy) :
    Out.Keeps s0 (execCommandPacketDiscard e why s) := by
  unfold execCommandPacketDiscard
  repeat' first
    | with_reducible assumption | with_reducible apply State.dropPkt_kept | with_reducible apply State.setEth_kept
    | with_reducible apply Out.keeps_next | split

theorem execAuth_kept {s0 s : State} (h : s0.Kept s) (c : Hdr) (p : AuthReq) : Out.Keeps s0 (execAuth c p s) := by
  unfold execAuth
  repeat' first
    | with_reducible assumption | with_reducible apply State.command_kept | with_reducible apply State.setRole_kept
    | with_reducible apply Res.keeps_done | with_reducible apply Out.keeps_next | intro _ | split

theorem execClose_kept {s0 s : State} (h : s0.Kept s) (c : Hdr) : Out.Keeps s0 (execClose c s) := by
  unfold execClose
  repeat' first
    | with_reducible assumption | with_reducible apply State.closeSession_kept | with_reducible apply State.command_kept
    | with_reducible apply Res.keeps_done | with_reducible apply Out.keeps_next | intro _ | split

theorem execRekey_kept {s0 s : State} (h : s0.Kept s) (c : Hdr) (p : RekeyReq) : Out.Keeps s0 (execRekey c p s) := by
  unfold execRekey
  repeat' first
    | with_reducible assumption | with_reducible apply State.command_kept | with_reducible apply State.setSession_kept
    | with_reducible apply State.takeFree_kept | with_reducible apply Res.keeps_done | with_reducible apply Out.keeps_next | intro _
    | split

theorem execEpochGraceExpiry_kept {s0 s : State} (h : s0.Kept s) (session : Nat) : Out.Keeps s0 (execEpochGraceExpiry session s) := by
  unfold execEpochGraceExpiry
  repeat' first
    | with_reducible assumption | with_reducible apply State.setSession_kept | with_reducible apply Out.keeps_next | split

theorem execPing_kept {s0 s : State} (h : s0.Kept s) (c : Hdr) (echo : List Byte) : Out.Keeps s0 (execPing c echo s) := by
  unfold execPing
  repeat' first
    | with_reducible assumption | with_reducible apply State.command_kept | with_reducible apply Res.keeps_done
    | with_reducible apply Out.keeps_next | intro _ | split

theorem execEvict_kept {s0 s : State} (h : s0.Kept s) (c : Hdr) (id : Nat) : Out.Keeps s0 (execEvict c id s) := by
  unfold execEvict
  repeat' first
    | with_reducible assumption | with_reducible apply State.closeSession_kept | with_reducible apply State.command_kept
    | with_reducible apply Res.keeps_done | with_reducible apply Out.keeps_next | intro _ | split

theorem execNetcfg_kept {s0 s : State} (h : s0.Kept s) (c : Hdr) (p : NetCfgReq) : Out.Keeps s0 (execNetcfg c p s) := by
  unfold execNetcfg
  dsimp only
  repeat' first
    | with_reducible assumption | with_reducible apply State.command_kept | with_reducible apply State.setEth_kept
    | with_reducible apply Res.keeps_done | with_reducible apply Out.keeps_next | intro _
    | fail_if_no_progress with_reducible apply kept_mk | split

theorem execNetport_kept {s0 s : State} (h : s0.Kept s) (c : Hdr) (mask : BitVec 8) (enable : Bool) :
    Out.Keeps s0 (execNetport c mask enable s) := by
  unfold execNetport
  dsimp only
  repeat' first
    | with_reducible assumption | with_reducible apply State.command_kept | with_reducible apply State.disableEth_kept
    | with_reducible apply State.enableEth_kept | with_reducible apply Res.keeps_done | with_reducible apply Res.keeps_pend
    | with_reducible apply Res.keeps_both | with_reducible apply Out.keeps_next | with_reducible apply kept_foldl | intro _ | split

theorem execEthPortDrained_kept {s0 s : State} (h : s0.Kept s) (e : EthId) : Out.Keeps s0 (execEthPortDrained e s) := by
  unfold execEthPortDrained
  repeat' first
    | with_reducible assumption | with_reducible apply State.setEth_kept | with_reducible apply State.settleEth_kept
    | with_reducible apply Out.keeps_next | split

theorem execEthPortTrained_kept {s0 s : State} (h : s0.Kept s) (e : EthId) (ok : Bool) : Out.Keeps s0 (execEthPortTrained e ok s) := by
  unfold execEthPortTrained
  repeat' first
    | with_reducible assumption | with_reducible apply State.alarm_kept | with_reducible apply State.setEth_kept
    | with_reducible apply State.settleEth_kept | with_reducible apply Out.keeps_next | split

theorem execEthLinkDrop_kept {s0 s : State} (h : s0.Kept s) (e : EthId) : Out.Keeps s0 (execEthLinkDrop e s) := by
  unfold execEthLinkDrop
  repeat' first
    | with_reducible assumption | with_reducible apply State.setEth_kept | with_reducible apply Out.keeps_next | split

theorem execIcmpEcho_kept {s0 s : State} (h : s0.Kept s) (e : EthId) (p : NetPacket) : Out.Keeps s0 (execIcmpEcho e p s) := by
  unfold execIcmpEcho
  repeat' first
    | with_reducible assumption | with_reducible apply State.dropPkt_kept | with_reducible apply State.send_kept
    | with_reducible apply Out.keeps_next | split

theorem execArpRequest_kept {s0 s : State} (h : s0.Kept s) (e : EthId) (p : NetPacket) : Out.Keeps s0 (execArpRequest e p s) := by
  unfold execArpRequest
  repeat' first
    | with_reducible assumption | with_reducible apply State.send_kept | with_reducible apply Out.keeps_next | split

theorem execNeighbourDiscovery_kept {s0 s : State} (h : s0.Kept s) (e : EthId) (p : NetPacket) :
    Out.Keeps s0 (execNeighbourDiscovery e p s) := by
  unfold execNeighbourDiscovery
  repeat' first
    | with_reducible assumption | with_reducible apply State.dropPkt_kept | with_reducible apply State.send_kept
    | with_reducible apply Out.keeps_next | split

theorem execInventory_kept {s0 s : State} (h : s0.Kept s) (c : Hdr) : Out.Keeps s0 (execInventory c s) := by
  unfold execInventory
  repeat' first
    | with_reducible assumption | with_reducible apply State.command_kept | with_reducible apply Res.keeps_done
    | with_reducible apply Out.keeps_next | intro _ | split

theorem execSubscribe_kept {s0 s : State} (h : s0.Kept s) (c : Hdr) (classes : BitVec 8) (dest : Nat) :
    Out.Keeps s0 (execSubscribe c classes dest s) := by
  unfold execSubscribe
  repeat' first
    | with_reducible assumption | with_reducible apply State.command_kept | with_reducible apply Res.keeps_done
    | with_reducible apply Out.keeps_next | intro _ | fail_if_no_progress with_reducible apply kept_mk | split

theorem execUnsubscribe_kept {s0 s : State} (h : s0.Kept s) (c : Hdr) (id : Nat) : Out.Keeps s0 (execUnsubscribe c id s) := by
  unfold execUnsubscribe
  repeat' first
    | with_reducible assumption | with_reducible apply State.command_kept | with_reducible apply Res.keeps_done
    | with_reducible apply Out.keeps_next | intro _ | fail_if_no_progress with_reducible apply kept_mk | split

theorem execLogread_kept {s0 s : State} (h : s0.Kept s) (c : Hdr) (first limit : Nat) : Out.Keeps s0 (execLogread c first limit s) := by
  unfold execLogread
  repeat' first
    | with_reducible assumption | with_reducible apply State.chargeOwn_kept | with_reducible apply State.command_kept
    | with_reducible apply Res.keeps_done | with_reducible apply Out.keeps_next | with_reducible apply kept_foldl | intro _
    | fail_if_no_progress with_reducible apply kept_mk

theorem execExportcfg_kept {s0 s : State} (h : s0.Kept s) (c : Hdr) (share : Option Nat) : Out.Keeps s0 (execExportcfg c share s) := by
  unfold execExportcfg
  repeat' first
    | with_reducible assumption | with_reducible apply State.command_kept | with_reducible apply Res.keeps_done
    | with_reducible apply Out.keeps_next | intro _ | fail_if_no_progress with_reducible apply kept_mk | split

theorem execLogRecordWrite_kept {s0 s : State} (h : s0.Kept s) : Out.Keeps s0 (execLogRecordWrite s) := by
  unfold execLogRecordWrite
  repeat' first
    | with_reducible assumption | with_reducible apply State.chargeOwn_kept | with_reducible apply State.exportNow_kept
    | with_reducible apply State.notify_kept | with_reducible apply State.trace_kept | with_reducible apply Out.keeps_next
    | fail_if_no_progress with_reducible apply kept_mk | split

theorem execRead_kept {s0 s : State} (h : s0.Kept s) (c : Hdr) (addr len : Nat) : Out.Keeps s0 (execRead c addr len s) := by
  unfold execRead
  repeat' first
    | with_reducible assumption | with_reducible apply State.command_kept | with_reducible apply State.readSpan_kept
    | with_reducible apply Res.keeps_done | with_reducible apply Out.keeps_next
    | (with_reducible eapply kept_pair; with_reducible assumption) | intro _ | split

theorem execWrite_kept {s0 s : State} (h : s0.Kept s) (c : Hdr) (addr : Nat) (bytes : List Byte) :
    Out.Keeps s0 (execWrite c addr bytes s) := by
  unfold execWrite
  repeat' first
    | with_reducible assumption | with_reducible apply State.command_kept | with_reducible apply State.hostWrite_kept
    | with_reducible apply Res.keeps_done | with_reducible apply Out.keeps_next
    | (with_reducible eapply kept_pair; with_reducible assumption) | intro _ | split

theorem execLoad_kept {s0 s : State} (h : s0.Kept s) (c : Hdr) (p : LoadReq) : Out.Keeps s0 (execLoad c p s) := by
  unfold execLoad
  dsimp only
  repeat' first
    | with_reducible assumption | with_reducible apply State.bulkCommand_kept | with_reducible apply State.openBulk_kept
    | with_reducible apply Res.keeps_done | with_reducible apply Out.keeps_next | intro _ | split

theorem execBulkopen_kept {s0 s : State} (h : s0.Kept s) (c : Hdr) (p : BulkReq) : Out.Keeps s0 (execBulkopen c p s) := by
  unfold execBulkopen
  dsimp only
  repeat' first
    | with_reducible assumption | with_reducible apply State.bulkCommand_kept | with_reducible apply State.openBulk_kept
    | with_reducible apply Res.keeps_done | with_reducible apply Out.keeps_next | intro _ | split

theorem execGrouprestore_kept {s0 s : State} (h : s0.Kept s) (c : Hdr) (quire : Nat) (b : BulkParams) :
    Out.Keeps s0 (execGrouprestore c quire b s) := by
  unfold execGrouprestore
  repeat' first
    | with_reducible assumption | with_reducible apply State.bulkCommand_kept | with_reducible apply State.openBulk_kept
    | with_reducible apply Res.keeps_done | with_reducible apply Out.keeps_next | intro _ | split

theorem execBulkstatus_kept {s0 s : State} (h : s0.Kept s) (c : Hdr) (xid : Nat) : Out.Keeps s0 (execBulkstatus c xid s) := by
  unfold execBulkstatus
  repeat' first
    | with_reducible assumption | with_reducible apply State.command_kept | with_reducible apply Res.keeps_done
    | with_reducible apply Out.keeps_next | intro _ | split

theorem execBulkcancel_kept {s0 s : State} (h : s0.Kept s) (c : Hdr) (xid : Nat) : Out.Keeps s0 (execBulkcancel c xid s) := by
  unfold execBulkcancel
  repeat' first
    | with_reducible assumption | with_reducible apply State.command_kept | with_reducible apply State.endBulk_kept
    | with_reducible apply Res.keeps_done | with_reducible apply Out.keeps_next | intro _ | split

theorem execBulkData_kept {s0 s : State} (h : s0.Kept s) (p : BulkData) : Out.Keeps s0 (execBulkData p s) := by
  unfold execBulkData
  repeat' first
    | with_reducible assumption | with_reducible apply State.badTag_kept | with_reducible apply State.takeChunk_kept
    | with_reducible apply Out.keeps_next | split

theorem execBulkAckTimer_kept {s0 s : State} (h : s0.Kept s) (xid : Nat) : Out.Keeps s0 (execBulkAckTimer xid s) := by
  unfold execBulkAckTimer
  repeat' first
    | with_reducible assumption | with_reducible apply State.acknowledge_kept | with_reducible apply State.retryChunks_kept
    | with_reducible apply Out.keeps_next | split

theorem execBulkAcknowledgement_kept {s0 s : State} (h : s0.Kept s) (p : BulkAck) : Out.Keeps s0 (execBulkAcknowledgement p s) := by
  unfold execBulkAcknowledgement
  dsimp only
  repeat' first
    | with_reducible assumption | with_reducible apply State.badTag_kept | with_reducible apply State.endBulk_kept
    | with_reducible apply State.pump_kept | with_reducible apply State.resendChunk_kept | with_reducible apply State.setBulk_kept
    | with_reducible apply Out.keeps_next | with_reducible apply kept_foldl | intro _ | split

theorem execBulkDone_kept {s0 s : State} (h : s0.Kept s) (xid session : Nat) (status detl : BitVec 16) :
    Out.Keeps s0 (execBulkDone xid session status detl s) := by
  unfold execBulkDone
  repeat' first
    | with_reducible assumption | with_reducible apply State.closeBulk_kept | with_reducible apply Out.keeps_next | split

theorem execBulkAbort_kept {s0 s : State} (h : s0.Kept s) (xid session : Nat) (status detl : BitVec 16) :
    Out.Keeps s0 (execBulkAbort xid session status detl s) := by
  unfold execBulkAbort
  repeat' first
    | with_reducible assumption | with_reducible apply State.closeBulk_kept | with_reducible apply Out.keeps_next | split

theorem execBulkPeerTimeout_kept {s0 s : State} (h : s0.Kept s) (xid : Nat) : Out.Keeps s0 (execBulkPeerTimeout xid s) := by
  unfold execBulkPeerTimeout
  repeat' first
    | with_reducible assumption | with_reducible apply State.endBulk_kept | with_reducible apply Out.keeps_next | split

theorem execPriorityFlowControl_kept {s0 s : State} (h : s0.Kept s) (e : EthId) (prio : Fin 8) (pause : Bool) :
    Out.Keeps s0 (execPriorityFlowControl e prio pause s) := by
  unfold execPriorityFlowControl
  repeat' first
    | with_reducible assumption | with_reducible apply State.pump_kept | with_reducible apply State.setEth_kept
    | with_reducible apply Out.keeps_next | with_reducible apply kept_foldl | intro _ | split

theorem execEnergyPlan_kept {s0 s : State} (h : s0.Kept s) (m : PlanMeasure) : Out.Keeps s0 (execEnergyPlan m s) := by
  unfold execEnergyPlan
  dsimp only
  repeat' first
    | with_reducible assumption | with_reducible apply State.closeWindow_kept | with_reducible apply State.heatIsland_kept
    | with_reducible apply State.plan_kept | with_reducible apply State.setIsland_kept | with_reducible apply State.updTile_kept
    | with_reducible apply State.watchRisk_kept | with_reducible apply Out.keeps_next | with_reducible apply kept_foldl | intro _
    | fail_if_no_progress with_reducible apply kept_mk | split

theorem execGrantRefill_kept {s0 s : State} (h : s0.Kept s) : Out.Keeps s0 (execGrantRefill s) := by
  unfold execGrantRefill
  repeat' first
    | with_reducible assumption | with_reducible apply State.updTile_kept | with_reducible apply Out.keeps_next
    | with_reducible apply kept_foldl | intro _ | split

theorem execPlanset_kept {s0 s : State} (h : s0.Kept s) (c : Hdr) (p : PlanReq) : Out.Keeps s0 (execPlanset c p s) := by
  unfold execPlanset
  dsimp only
  repeat' first
    | with_reducible assumption | with_reducible apply State.command_kept | with_reducible apply State.replan_kept
    | with_reducible apply State.setIsland_kept | with_reducible apply State.updTile_kept | with_reducible apply Res.keeps_done
    | with_reducible apply Out.keeps_next | with_reducible apply kept_foldl | intro _ | fail_if_no_progress with_reducible apply kept_mk
    | split

theorem execReading_kept {s0 s : State} (h : s0.Kept s) (c : Hdr) (windows : Nat) : Out.Keeps s0 (execReading c windows s) := by
  unfold execReading
  repeat' first
    | with_reducible assumption | with_reducible apply State.command_kept | with_reducible apply State.takeFree_kept
    | with_reducible apply Res.keeps_done | with_reducible apply Out.keeps_next | intro _ | split

theorem execFeedNotGood_kept {s0 s : State} (h : s0.Kept s) (f : Feed) : Out.Keeps s0 (execFeedNotGood f s) := by
  unfold execFeedNotGood
  repeat' first
    | with_reducible assumption | with_reducible apply State.replan_kept | with_reducible apply State.setFeedState_kept
    | with_reducible apply State.setGood_kept | with_reducible apply State.watchRisk_kept | with_reducible apply Out.keeps_next | split

theorem execFeedGood_kept {s0 s : State} (h : s0.Kept s) (f : Feed) : Out.Keeps s0 (execFeedGood f s) := by
  unfold execFeedGood
  dsimp only
  repeat' first
    | with_reducible assumption | with_reducible apply State.replan_kept | with_reducible apply State.setFeedState_kept
    | with_reducible apply State.setGood_kept | with_reducible apply State.watchRisk_kept | with_reducible apply Out.keeps_next | split

theorem execFeedTransferDone_kept {s0 s : State} (h : s0.Kept s) (tags : FeedTags) : Out.Keeps s0 (execFeedTransferDone tags s) := by
  unfold execFeedTransferDone
  dsimp only
  repeat' first
    | with_reducible assumption | with_reducible apply State.readStraps_kept | with_reducible apply State.replan_kept
    | with_reducible apply State.sendTags_kept | with_reducible apply State.setFeedState_kept | with_reducible apply State.watchRisk_kept
    | with_reducible apply Out.keeps_next | split

theorem execMainGoodTimer_kept {s0 s : State} (h : s0.Kept s) : Out.Keeps s0 (execMainGoodTimer s) := by
  unfold execMainGoodTimer
  repeat' first
    | with_reducible assumption | with_reducible apply State.switchTo_kept | with_reducible apply Out.keeps_next | split

theorem execPmbusPoll_kept {s0 s : State} (h : s0.Kept s) (f : Feed) (r : PmbusReply) : Out.Keeps s0 (execPmbusPoll f r s) := by
  unfold execPmbusPoll
  dsimp only
  repeat' first
    | with_reducible assumption | with_reducible apply State.alarm_kept | with_reducible apply State.feedFails_kept
    | with_reducible apply State.setFeed_kept | with_reducible apply Out.keeps_next | split

theorem execFillRegion_kept {s0 s : State} (h : s0.Kept s) (q : QuireId) : Out.Keeps s0 (execFillRegion q s) := by
  unfold execFillRegion
  repeat' first
    | with_reducible assumption | with_reducible apply State.chargeOwn_kept | with_reducible apply State.endScrub_kept
    | with_reducible apply State.setRegion_kept | with_reducible apply State.tryRestripe_kept | with_reducible apply State.updQuire_kept
    | with_reducible apply State.zeroRegion_kept | with_reducible apply Out.keeps_next | fail_if_no_progress with_reducible apply kept_mem
    | split

theorem execQcreate_kept {s0 s : State} (h : s0.Kept s) (c : Hdr) (p : QCreateReq) : Out.Keeps s0 (execQcreate c p s) := by
  unfold execQcreate
  dsimp only
  repeat' first
    | with_reducible assumption | with_reducible apply State.appendLog_kept | with_reducible apply State.beginScrub_kept
    | with_reducible apply State.command_kept | with_reducible apply State.compose_kept | with_reducible apply State.replan_kept
    | with_reducible apply State.setUpTiles_kept | with_reducible apply State.updQuire_kept | with_reducible apply Res.keeps_done
    | with_reducible apply Res.keeps_both | with_reducible apply Out.keeps_next | intro _ | split

theorem execQmodify_kept {s0 s : State} (h : s0.Kept s) (c : Hdr) (p : QModifyReq) : Out.Keeps s0 (execQmodify c p s) := by
  unfold execQmodify
  dsimp only
  repeat' first
    | with_reducible assumption | with_reducible apply State.appendLog_kept | with_reducible apply State.assignRegions_kept
    | with_reducible apply State.command_kept | with_reducible apply State.replan_kept | with_reducible apply State.setQuire_kept
    | with_reducible apply State.setRegulators_kept | with_reducible apply State.setRights_kept | with_reducible apply Res.keeps_done
    | with_reducible apply Out.keeps_next | intro _ | split

theorem execKeyrotate_kept {s0 s : State} (h : s0.Kept s) (c : Hdr) : Out.Keeps s0 (execKeyrotate c s) := by
  unfold execKeyrotate
  dsimp only
  repeat' first
    | with_reducible assumption | with_reducible apply State.command_kept | with_reducible apply State.startSweep_kept
    | with_reducible apply Res.keeps_done | with_reducible apply Res.keeps_pend | with_reducible apply Out.keeps_next | intro _ | split

theorem execKeySweepRegion_kept {s0 s : State} (h : s0.Kept s) (q : QuireId) : Out.Keeps s0 (execKeySweepRegion q s) := by
  unfold execKeySweepRegion
  repeat' first
    | with_reducible assumption | with_reducible apply State.endSweep_kept | with_reducible apply State.rewriteRegion_kept
    | with_reducible apply State.setQuire_kept | with_reducible apply State.setRegion_kept | with_reducible apply Out.keeps_next | split

theorem execQread_kept {s0 s : State} (h : s0.Kept s) (a : At) (f : RF) : Out.Keeps s0 (execQread a f s) := by
  unfold execQread
  repeat' first
    | with_reducible assumption | with_reducible apply illegal_kept | with_reducible apply State.needs_kept
    | with_reducible apply result_kept | with_reducible apply sysOp_kept | intro _ | split

theorem execQrekey_kept {s0 s : State} (h : s0.Kept s) (a : At) (f : RF) : Out.Keeps s0 (execQrekey a f s) := by
  unfold execQrekey
  dsimp only
  repeat' first
    | with_reducible assumption | with_reducible apply State.needs_kept | with_reducible apply result_kept
    | with_reducible apply State.startSweep_kept | with_reducible apply sysOp_kept | intro _ | split

theorem execCounters_kept {s0 s : State} (h : s0.Kept s) (c : Hdr) (set : Nat) : Out.Keeps s0 (execCounters c set s) := by
  unfold execCounters
  repeat' first
    | with_reducible assumption | with_reducible apply State.command_kept | with_reducible apply Res.keeps_done
    | with_reducible apply Out.keeps_next | intro _ | split

theorem execAttest_kept {s0 s : State} (h : s0.Kept s) (c : Hdr) (nonce : List Byte) : Out.Keeps s0 (execAttest c nonce s) := by
  unfold execAttest
  repeat' first
    | with_reducible assumption | with_reducible apply State.command_kept | with_reducible apply Res.keeps_done
    | with_reducible apply Out.keeps_next | intro _ | split

theorem execDiscardRetry_kept {s0 s : State} (h : s0.Kept s) (q : QuireId) : Out.Keeps s0 (execDiscardRetry q s) := by
  unfold execDiscardRetry
  repeat' first
    | with_reducible assumption | with_reducible apply State.alarm_kept | with_reducible apply State.finishWhere_kept
    | with_reducible apply State.sendSpine_kept | with_reducible apply State.setQuire_kept | with_reducible apply Out.keeps_next | split

theorem execDiscarded_kept {s0 s : State} (h : s0.Kept s) (m : CkMsg) : Out.Keeps s0 (execDiscarded m s) := by
  unfold execDiscarded
  repeat' first
    | with_reducible assumption | with_reducible apply State.finishWhere_kept | with_reducible apply State.setQuire_kept
    | with_reducible apply Out.keeps_next | split

theorem execDiscard_kept {s0 s : State} (h : s0.Kept s) (m : CkMsg) : Out.Keeps s0 (execDiscard m s) := by
  unfold execDiscard
  repeat' first
    | with_reducible assumption | with_reducible apply State.beginScrub_kept | with_reducible apply State.sendSpine_kept
    | with_reducible apply Out.keeps_next | with_reducible apply kept_foldl | intro _ | split

theorem execIcacheLineFill_kept {s0 s : State} (h : s0.Kept s) (a : At) : Out.Keeps s0 (execIcacheLineFill a s) := by
  unfold execIcacheLineFill
  dsimp only
  repeat' first
    | with_reducible assumption | with_reducible apply State.setTile_kept | with_reducible apply State.takeFree_kept
    | with_reducible apply State.updStrand_kept | with_reducible apply Out.keeps_next | split

theorem execQdrainTileTimeout_kept {s0 s : State} (h : s0.Kept s) (q : QuireId) : Out.Keeps s0 (execQdrainTileTimeout q s) := by
  unfold execQdrainTileTimeout
  repeat' first
    | with_reducible assumption | with_reducible apply State.quireWork_kept | with_reducible apply State.updQuire_kept
    | with_reducible apply Out.keeps_next | split

theorem execTileDrainRemoteTimeout_kept {s0 s : State} (h : s0.Kept s) (t : TileId) : Out.Keeps s0 (execTileDrainRemoteTimeout t s) := by
  unfold execTileDrainRemoteTimeout
  repeat' first
    | with_reducible assumption | with_reducible apply State.drainWork_kept | with_reducible apply State.updTile_kept
    | with_reducible apply Out.keeps_next | split

theorem execStart_kept {s0 s : State} (h : s0.Kept s) (c : Hdr) (tiles : BitVec 192) (strands : BitVec 8) (rec : Nat) :
    Out.Keeps s0 (execStart c tiles strands rec s) := by
  unfold execStart
  dsimp only
  repeat' first
    | with_reducible assumption | with_reducible apply State.hostWork_kept | with_reducible apply State.readSpan_kept
    | with_reducible apply State.startStrand_kept | with_reducible apply Res.keeps_done | with_reducible apply Out.keeps_next
    | with_reducible apply kept_foldl | (with_reducible eapply kept_pair; with_reducible assumption) | intro _ | split

theorem execHalt_kept {s0 s : State} (h : s0.Kept s) (c : Hdr) (tiles : BitVec 192) (strands : BitVec 8) :
    Out.Keeps s0 (execHalt c tiles strands s) := by
  unfold execHalt
  dsimp only
  repeat' first
    | with_reducible assumption | with_reducible apply State.hostWork_kept | with_reducible apply State.updStrand_kept
    | with_reducible apply Res.keeps_done | with_reducible apply Res.keeps_pend | with_reducible apply Out.keeps_next
    | with_reducible apply kept_foldl | intro _ | split

theorem execTilereset_kept {s0 s : State} (h : s0.Kept s) (c : Hdr) (tiles : BitVec 192) : Out.Keeps s0 (execTilereset c tiles s) := by
  unfold execTilereset
  dsimp only
  repeat' first
    | with_reducible assumption | with_reducible apply State.beginReset_kept | with_reducible apply State.hostWork_kept
    | with_reducible apply Res.keeps_done | with_reducible apply Res.keeps_pend | with_reducible apply Out.keeps_next
    | with_reducible apply kept_foldl | intro _ | split

theorem execStrands_kept {s0 s : State} (h : s0.Kept s) (c : Hdr) (tiles : BitVec 192) : Out.Keeps s0 (execStrands c tiles s) := by
  unfold execStrands
  repeat' first
    | with_reducible assumption | with_reducible apply State.command_kept | with_reducible apply Res.keeps_done
    | with_reducible apply Out.keeps_next | intro _ | split

theorem execSignal_kept {s0 s : State} (h : s0.Kept s) (c : Hdr) (tile strand line : Nat) :
    Out.Keeps s0 (execSignal c tile strand line s) := by
  unfold execSignal
  repeat' first
    | with_reducible assumption | with_reducible apply State.command_kept | with_reducible apply State.signal_kept
    | with_reducible apply Res.keeps_done | with_reducible apply Out.keeps_next | intro _ | split

theorem execQrelease_kept {s0 s : State} (h : s0.Kept s) (c : Hdr) : Out.Keeps s0 (execQrelease c s) := by
  unfold execQrelease
  repeat' first
    | with_reducible assumption | with_reducible apply State.beginScrub_kept | with_reducible apply State.endScrub_kept
    | with_reducible apply State.hostWork_kept | with_reducible apply State.startDrain_kept | with_reducible apply Res.keeps_pend
    | with_reducible apply Out.keeps_next | intro _ | split

theorem execDelayLimit_kept {s0 s : State} (h : s0.Kept s) (t : TileId) : Out.Keeps s0 (execDelayLimit t s) := by
  unfold execDelayLimit
  dsimp only
  repeat' first
    | with_reducible assumption | with_reducible apply State.alarm_kept | with_reducible apply State.hungTile_kept
    | with_reducible apply State.setIsland_kept | with_reducible apply State.updTile_kept | with_reducible apply Out.keeps_next | split

theorem execQmark_kept {s0 s : State} (h : s0.Kept s) (a : At) (f : RF) : Out.Keeps s0 (execQmark a f s) := by
  unfold execQmark
  dsimp only
  repeat' first
    | with_reducible assumption | with_reducible apply State.needs_kept | with_reducible apply State.sendMerges_kept
    | with_reducible apply State.startWalk_kept | with_reducible apply sysOp_kept | with_reducible apply State.updStrand_kept
    | with_reducible apply Act.keeps_done | with_reducible apply Act.keeps_later | with_reducible apply Act.keeps_fault | intro _ | split

theorem execQckpt_kept {s0 s : State} (h : s0.Kept s) (a : At) (f : RF) : Out.Keeps s0 (execQckpt a f s) := by
  unfold execQckpt
  dsimp only
  repeat' first
    | with_reducible assumption | with_reducible apply State.beginFreeze_kept | with_reducible apply State.checkpointCode_kept
    | with_reducible apply State.needs_kept | with_reducible apply result_kept | with_reducible apply sysOp_kept
    | (with_reducible eapply kept_pair; with_reducible assumption) | intro _ | split

theorem execCheckpoint_kept {s0 s : State} (h : s0.Kept s) (c : Hdr) (bound : Nat) : Out.Keeps s0 (execCheckpoint c bound s) := by
  unfold execCheckpoint
  repeat' first
    | with_reducible assumption | with_reducible apply State.beginFreeze_kept | with_reducible apply State.checkpointCode_kept
    | with_reducible apply State.hostWork_kept | with_reducible apply Res.keeps_done | with_reducible apply Res.keeps_pend
    | with_reducible apply Out.keeps_next | (with_reducible eapply kept_pair; with_reducible assumption) | intro _ | split

theorem execCheckpointBoundExpiry_kept {s0 s : State} (h : s0.Kept s) : Out.Keeps s0 (execCheckpointBoundExpiry s) := by
  unfold execCheckpointBoundExpiry
  repeat' first
    | with_reducible assumption | with_reducible apply State.abandonFreeze_kept | with_reducible apply Out.keeps_next | split

theorem execPartner_kept {s0 s : State} (h : s0.Kept s) (c : Hdr) (p : PartnerReq) : Out.Keeps s0 (execPartner c p s) := by
  unfold execPartner
  repeat' first
    | with_reducible assumption | with_reducible apply State.command_kept | with_reducible apply State.leavePartner_kept
    | with_reducible apply State.sendTags_kept | with_reducible apply Res.keeps_done | with_reducible apply Out.keeps_next | intro _
    | fail_if_no_progress with_reducible apply kept_mk | split

theorem execFeedTags_kept {s0 s : State} (h : s0.Kept s) (d : DeviceId) (main backup : BitVec 6) :
    Out.Keeps s0 (execFeedTags d main backup s) := by
  unfold execFeedTags
  repeat' first
    | with_reducible assumption | with_reducible apply State.sendTags_kept | with_reducible apply Out.keeps_next
    | fail_if_no_progress with_reducible apply kept_mk | split

theorem execCheckpointAbandon_kept {s0 s : State} (h : s0.Kept s) (m : CkMsg) : Out.Keeps s0 (execCheckpointAbandon m s) := by
  unfold execCheckpointAbandon
  repeat' first
    | with_reducible assumption | with_reducible apply State.dropIncoming_kept | with_reducible apply Out.keeps_next
    | with_reducible apply kept_foldl | intro _

theorem execCommitted_kept {s0 s : State} (h : s0.Kept s) (m : CkMsg) : Out.Keeps s0 (execCommitted m s) := by
  unfold execCommitted
  repeat' first
    | with_reducible assumption | with_reducible apply State.finishWhere_kept | with_reducible apply State.post_kept
    | with_reducible apply State.thaw_kept | with_reducible apply State.updQuire_kept | with_reducible apply Out.keeps_next | split

theorem execRestoreRequest_kept {s0 s : State} (h : s0.Kept s) (m : CkMsg) : Out.Keeps s0 (execRestoreRequest m s) := by
  unfold execRestoreRequest
  repeat' first
    | with_reducible assumption | with_reducible apply State.meet_kept | with_reducible apply State.sendSpine_kept
    | with_reducible apply State.streamMemory_kept | with_reducible apply Out.keeps_next | with_reducible apply kept_foldl | intro _

theorem execPortLossTimer_kept {s0 s : State} (h : s0.Kept s) (d : DeviceId) (inc : BitVec 32) :
    Out.Keeps s0 (execPortLossTimer d inc s) := by
  unfold execPortLossTimer
  repeat' first
    | with_reducible assumption | with_reducible apply State.sendSpine_kept | with_reducible apply Out.keeps_next
    | fail_if_no_progress with_reducible apply kept_mk | split

theorem execProbeTimeout_kept {s0 s : State} (h : s0.Kept s) (d : DeviceId) (inc : BitVec 32) :
    Out.Keeps s0 (execProbeTimeout d inc s) := by
  unfold execProbeTimeout
  repeat' first
    | with_reducible assumption | with_reducible apply State.lossMessage_kept | with_reducible apply Out.keeps_next
    | fail_if_no_progress with_reducible apply kept_mk | split

theorem execHold_kept {s0 s : State} (h : s0.Kept s) (m : GroupMsg) : Out.Keeps s0 (execHold m s) := by
  unfold execHold
  repeat' first
    | with_reducible assumption | with_reducible apply State.abortColl_kept | with_reducible apply State.answerHeld_kept
    | with_reducible apply State.lostRank_kept | with_reducible apply State.post_kept | with_reducible apply State.setHold_kept
    | with_reducible apply Out.keeps_next | with_reducible apply kept_foldl | intro _ | split

theorem execHeld_kept {s0 s : State} (h : s0.Kept s) (m : GroupMsg) : Out.Keeps s0 (execHeld m s) := by
  unfold execHeld
  repeat' first
    | with_reducible assumption | with_reducible apply State.asCoordinator_kept | with_reducible apply State.takeHeld_kept
    | with_reducible apply Out.keeps_next | intro _

theorem execRejoin_kept {s0 s : State} (h : s0.Kept s) (m : GroupMsg) : Out.Keeps s0 (execRejoin m s) := by
  unfold execRejoin
  repeat' first
    | with_reducible assumption | with_reducible apply State.asCoordinator_kept | with_reducible apply State.takeRejoin_kept
    | with_reducible apply Out.keeps_next | intro _

theorem execRelease_kept {s0 s : State} (h : s0.Kept s) (m : GroupMsg) : Out.Keeps s0 (execRelease m s) := by
  unfold execRelease
  repeat' first
    | with_reducible assumption | with_reducible apply State.releaseGroup_kept | with_reducible apply Out.keeps_next | split

theorem execMismatch_kept {s0 s : State} (h : s0.Kept s) (m : GroupMsg) : Out.Keeps s0 (execMismatch m s) := by
  unfold execMismatch
  repeat' first
    | with_reducible assumption | with_reducible apply State.alarm_kept | with_reducible apply Out.keeps_next | split

theorem execRestoreDone_kept {s0 s : State} (h : s0.Kept s) (m : CkMsg) : Out.Keeps s0 (execRestoreDone m s) := by
  unfold execRestoreDone
  repeat' first
    | with_reducible assumption | with_reducible apply State.restoreFresh_kept | with_reducible apply State.restoreRunning_kept
    | with_reducible apply State.spineWork_kept | with_reducible apply Out.keeps_next | split

theorem execRecoverregion_kept {s0 s : State} (h : s0.Kept s) (c : Hdr) (regions : List Nat) :
    Out.Keeps s0 (execRecoverregion c regions s) := by
  unfold execRecoverregion
  dsimp only
  repeat' first
    | with_reducible assumption | with_reducible apply State.chargeOwn_kept | with_reducible apply State.command_kept
    | with_reducible apply State.setRegion_kept | with_reducible apply State.zeroRegion_kept | with_reducible apply Res.keeps_done
    | with_reducible apply Res.keeps_both | with_reducible apply Out.keeps_next | with_reducible apply kept_foldl | intro _
    | fail_if_no_progress with_reducible apply kept_mk | split

theorem execMapout_kept {s0 s : State} (h : s0.Kept s) (c : Hdr) (ch : Nat) : Out.Keeps s0 (execMapout c ch s) := by
  unfold execMapout
  repeat' first
    | with_reducible assumption | with_reducible apply State.candidate_kept | with_reducible apply State.hostWork_kept
    | with_reducible apply Res.keeps_done | with_reducible apply Res.keeps_pend | with_reducible apply Out.keeps_next | intro _ | split

theorem execFailover_kept {s0 s : State} (h : s0.Kept s) (c : Hdr) : Out.Keeps s0 (execFailover c s) := by
  unfold execFailover
  repeat' first
    | with_reducible assumption | with_reducible apply State.command_kept | with_reducible apply State.takeover_kept
    | with_reducible apply Res.keeps_done | with_reducible apply Out.keeps_next | intro _ | split

theorem execSpineHeartbeatTimeout_kept {s0 s : State} (h : s0.Kept s) : Out.Keeps s0 (execSpineHeartbeatTimeout s) := by
  unfold execSpineHeartbeatTimeout
  repeat' first
    | with_reducible assumption | with_reducible apply State.takeover_kept | with_reducible apply Out.keeps_next | split

theorem execSpineFaultReport_kept {s0 s : State} (h : s0.Kept s) : Out.Keeps s0 (execSpineFaultReport s) := by
  unfold execSpineFaultReport
  repeat' first
    | with_reducible assumption | with_reducible apply State.takeover_kept | with_reducible apply Out.keeps_next
    | fail_if_no_progress with_reducible apply kept_mk | split

theorem execSpineWatchdogExpiry_kept {s0 s : State} (h : s0.Kept s) : Out.Keeps s0 (execSpineWatchdogExpiry s) := by
  unfold execSpineWatchdogExpiry
  repeat' first
    | with_reducible assumption | with_reducible apply State.failPort_kept | with_reducible apply State.flood_kept
    | with_reducible apply Out.keeps_next | with_reducible apply kept_foldl | intro _ | split

theorem execGeometry_kept {s0 s : State} (h : s0.Kept s) (c : Hdr) (p : GeometryReq) : Out.Keeps s0 (execGeometry c p s) := by
  unfold execGeometry
  dsimp only
  repeat' first
    | with_reducible assumption | with_reducible apply State.command_kept | with_reducible apply Res.keeps_done
    | with_reducible apply Out.keeps_next | intro _ | fail_if_no_progress with_reducible apply kept_mk | split

theorem execPortcfg_kept {s0 s : State} (h : s0.Kept s) (c : Hdr) (p : PortCfgReq) : Out.Keeps s0 (execPortcfg c p s) := by
  unfold execPortcfg
  repeat' first
    | with_reducible assumption | with_reducible apply State.command_kept | with_reducible apply State.setPort_kept
    | with_reducible apply Res.keeps_done | with_reducible apply Out.keeps_next | intro _
    | fail_if_no_progress with_reducible apply kept_mk | split

theorem execPorten_kept {s0 s : State} (h : s0.Kept s) (c : Hdr) (mask : BitVec 16) (enable : Bool) :
    Out.Keeps s0 (execPorten c mask enable s) := by
  unfold execPorten
  dsimp only
  repeat' first
    | with_reducible assumption | with_reducible apply State.disablePort_kept | with_reducible apply State.enablePort_kept
    | with_reducible apply State.hostWork_kept | with_reducible apply Res.keeps_done | with_reducible apply Res.keeps_pend
    | with_reducible apply Out.keeps_next | with_reducible apply kept_foldl | intro _ | split

theorem execOverride_kept {s0 s : State} (h : s0.Kept s) (c : Hdr) (es : List OvrReq) : Out.Keeps s0 (execOverride c es s) := by
  unfold execOverride
  repeat' first
    | with_reducible assumption | with_reducible apply State.command_kept | with_reducible apply Res.keeps_done
    | with_reducible apply Out.keeps_next | intro _ | fail_if_no_progress with_reducible apply kept_mk | split

theorem execFwverify_kept {s0 s : State} (h : s0.Kept s) (c : Hdr) : Out.Keeps s0 (execFwverify c s) := by
  unfold execFwverify
  repeat' first
    | with_reducible assumption | with_reducible apply State.command_kept | with_reducible apply Res.keeps_done
    | with_reducible apply Out.keeps_next | intro _ | fail_if_no_progress with_reducible apply kept_mk | split

theorem execFwactivate_kept {s0 s : State} (h : s0.Kept s) (c : Hdr) (now : Nat) : Out.Keeps s0 (execFwactivate c now s) := by
  unfold execFwactivate
  dsimp only
  repeat' first
    | with_reducible assumption | with_reducible apply State.command_kept | with_reducible apply State.handOver_kept
    | with_reducible apply Res.keeps_done | with_reducible apply Res.keeps_both | with_reducible apply Out.keeps_next | intro _
    | fail_if_no_progress with_reducible apply kept_mk | split

theorem execHoldupExhausted_kept {s0 s : State} (h : s0.Kept s) : Out.Keeps s0 (execHoldupExhausted s) := by
  unfold execHoldupExhausted
  repeat' first
    | with_reducible assumption | with_reducible apply State.cold_kept | with_reducible apply Out.keeps_next
    | fail_if_no_progress with_reducible apply kept_mk | split

theorem execPowerUp_kept {s0 s : State} (h : s0.Kept s) (mainGood backupGood : Bool) (tags : FeedTags) :
    Out.Keeps s0 (execPowerUp mainGood backupGood tags s) := by
  unfold execPowerUp
  repeat' first
    | with_reducible assumption | with_reducible apply State.setGood_kept | with_reducible apply Out.keeps_next
    | fail_if_no_progress with_reducible apply kept_mk | split

theorem execModuleReset_kept {s0 s : State} (h : s0.Kept s) : Out.Keeps s0 (execModuleReset s) := by
  unfold execModuleReset
  repeat' first
    | with_reducible assumption | with_reducible apply State.cold_kept | with_reducible apply Out.keeps_next
    | fail_if_no_progress with_reducible apply kept_mk | split

theorem execStageRom_kept {s0 s : State} (h : s0.Kept s) (ok0 ok1 : Bool) (eth : BitVec 8) : Out.Keeps s0 (execStageRom ok0 ok1 eth s) := by
  unfold execStageRom
  repeat' first
    | with_reducible assumption | with_reducible apply State.setEth_kept | with_reducible apply State.spinesPass_kept
    | with_reducible apply Out.keeps_next | with_reducible apply kept_foldl | intro _ | split

theorem execStageFirmware_kept {s0 s : State} (h : s0.Kept s) (p : FirmwareCheck) : Out.Keeps s0 (execStageFirmware p s) := by
  unfold execStageFirmware
  dsimp only
  repeat' first
    | with_reducible assumption | with_reducible apply State.spinesPass_kept | with_reducible apply State.stopBoot_kept
    | with_reducible apply Out.keeps_next | fail_if_no_progress with_reducible apply kept_mk | split

theorem execStageKeys_kept {s0 s : State} (h : s0.Kept s) (ok0 ok1 : Bool) : Out.Keeps s0 (execStageKeys ok0 ok1 s) := by
  unfold execStageKeys
  dsimp only
  repeat' first
    | with_reducible assumption | with_reducible apply State.makeKeys_kept | with_reducible apply State.spinesPass_kept
    | with_reducible apply Out.keeps_next | split

theorem execStageRecord_kept {s0 s : State} (h : s0.Kept s) (r : ManufRecord) : Out.Keeps s0 (execStageRecord r s) := by
  unfold execStageRecord
  repeat' first
    | with_reducible assumption | with_reducible apply State.setEth_kept | with_reducible apply State.setStage_kept
    | with_reducible apply State.stopBoot_kept | with_reducible apply Out.keeps_next | with_reducible apply kept_foldl | intro _
    | fail_if_no_progress with_reducible apply kept_mk | split

theorem execStageLinks_kept {s0 s : State} (h : s0.Kept s) : Out.Keeps s0 (execStageLinks s) := by
  unfold execStageLinks
  repeat' first
    | with_reducible assumption | with_reducible apply State.endLinks_kept | with_reducible apply Out.keeps_next | split

theorem execStageLinksTimeout_kept {s0 s : State} (h : s0.Kept s) : Out.Keeps s0 (execStageLinksTimeout s) := by
  unfold execStageLinksTimeout
  repeat' first
    | with_reducible assumption | with_reducible apply State.endLinks_kept | with_reducible apply Out.keeps_next | split

theorem execThermtrip_kept {s0 s : State} (h : s0.Kept s) (tj tstack : BitVec 16) : Out.Keeps s0 (execThermtrip tj tstack s) := by
  unfold execThermtrip
  repeat' first
    | with_reducible assumption | with_reducible apply State.alarm_kept | with_reducible apply State.flood_kept
    | with_reducible apply State.setFeedState_kept | with_reducible apply Out.keeps_next
    | fail_if_no_progress with_reducible apply kept_mk | split

theorem execSmbusStatusRead_kept {s0 s : State} (h : s0.Kept s) (addr : BitVec 7) (r : SensorBlock) :
    Out.Keeps s0 (execSmbusStatusRead addr r s) := by
  unfold execSmbusStatusRead
  repeat' first
    | with_reducible assumption | with_reducible apply State.setSmbus_kept | with_reducible apply Out.keeps_next | split

theorem execSmbusOtherCommand_kept {s0 s : State} (h : s0.Kept s) (addr : BitVec 7) (_cmd : BitVec 8) :
    Out.Keeps s0 (execSmbusOtherCommand addr _cmd s) := by
  unfold execSmbusOtherCommand
  repeat' first
    | with_reducible assumption | with_reducible apply State.setSmbus_kept | with_reducible apply Out.keeps_next | split

theorem kept_of_getD_putSector {s0 s : State} (h : s0.Kept s) (a : At) (va : Nat) (x : Xlate) (bs : List Byte) :
    s0.Kept ((s.putSector a va x bs).getD s) :=
  kept_getD h fun _ e => State.putSector_kept h _ _ _ _ e

theorem execTrpsv_kept {s0 s : State} (h : s0.Kept s) (a : At) (f : CF) : Out.Keeps s0 (execTrpsv a f s) := by
  refine tileCtl_kept h _ _ _ _ _ fun s h => ?_
  dsimp only
  split
  · trivial
  split
  · trivial
  split
  · exact State.startWalk_kept h ..
  · trivial
  split
  · trivial
  exact State.updTile_kept (kept_foldl _ _ (fun _ _ h => kept_of_getD_putSector h ..) h) ..

theorem execCgget_kept {s0 s : State} (h : s0.Kept s) (a : At) (f : RF) : Out.Keeps s0 (execCgget a f s) := by
  refine sysOp_kept h _ _ _ _ fun s h => State.needs_kept _ _ _ _ _ _ fun w => ?_
  dsimp only
  split
  · trivial
  split
  · trivial
  split
  · exact State.startWalk_kept h ..
  · exact State.sectorFault_kept h ..
  split
  · trivial
  exact kept_foldl _ _ (fun _ _ h => kept_of_getD_putSector h ..) h

theorem execFrameReadback_kept {s0 s : State} (h : s0.Kept s) (a : At) : Out.Keeps s0 (execFrameReadback a s) := by
  unfold execFrameReadback
  dsimp only
  split
  · exact Out.keeps_next h
  · exact Out.keeps_next (State.setStrand_kept h ..)

theorem execQfloorApplied_kept {s0 s : State} (h : s0.Kept s) (a : At) : Out.Keeps s0 (execQfloorApplied a s) := by
  unfold execQfloorApplied
  split
  · exact Out.keeps_next (State.updStrand_kept (kept_foldl _ _ (fun _ _ h => State.updTile_kept h ..) h) ..)
  · exact Out.keeps_next h

theorem execMemoryRequest_kept {s0 s : State} (h : s0.Kept s) (c : ChannelId) (u : Nat) (e : Ecc) :
    Out.Keeps s0 (execMemoryRequest c u e s) := by
  have hs : s0.Kept (if e = .ok then s else s.strike u e) := by
    split
    · exact h
    · exact State.strike_kept h ..
  unfold execMemoryRequest
  generalize (if e = .ok then s else s.strike u e) = s at hs
  dsimp only
  split
  · exact Out.keeps_next hs
  refine Out.keeps_next ?_
  split
  · exact State.setChan_kept hs ..
  split
  · exact State.setChan_kept hs ..
  · exact State.serve_kept (State.setChan_kept hs ..) ..

theorem execRemoteRequest_kept {s0 s : State} (h : s0.Kept s) (p : PortId) : Out.Keeps s0 (execRemoteRequest p s) := by
  refine Out.keeps_next ?_
  split
  · exact h
  split
  · exact h
  next k s hc =>
    have ha := State.remoteAnswer_kept (State.consume_kept h _ _ hc) k
    dsimp only
    split
    · exact State.originate_kept (State.copyArrived_kept ha ..) ..
    · exact State.originate_kept ha ..

theorem execRemoteWriteResponse_kept {s0 s : State} (h : s0.Kept s) (p : PortId) : Out.Keeps s0 (execRemoteWriteResponse p s) := by
  refine Out.keeps_next ?_
  split
  · exact h
  next k s hc =>
    have hs := State.consume_kept h _ _ hc
    split
    · exact State.transferAnswer_kept hs ..
    · exact State.answerRemote_kept hs ..

theorem execEventSignalPacket_kept {s0 s : State} (h : s0.Kept s) (p : PortId) : Out.Keeps s0 (execEventSignalPacket p s) := by
  refine Out.keeps_next ?_
  split
  · exact h
  next hc => exact State.signal_kept (State.consume_kept h _ _ hc) ..

theorem execCollectivePacket_kept {s0 s : State} (h : s0.Kept s) (p : PortId) : Out.Keeps s0 (execCollectivePacket p s) := by
  refine Out.keeps_next ?_
  split
  · exact h
  next k s hc =>
    have hs := State.consume_kept h _ _ hc
    dsimp only
    split
    · exact State.countBad_kept hs
    split
    · exact State.countBad_kept hs
    split
    · exact State.raiseColl_kept hs ..
    split
    · exact State.raiseColl_kept hs ..
    split
    · exact State.raiseColl_kept hs ..
    · exact State.advanceColl_kept (State.arrived_kept (State.openColl_kept hs ..) ..) ..

theorem execFwstage_kept {s0 s : State} (h : s0.Kept s) (c : Hdr) (len : Nat) (image : FwImage) (b : BulkParams) :
    Out.Keeps s0 (execFwstage c len image b s) := by
  refine Out.keeps_next (State.bulkCommand_kept h _ _ _ fun s x h => ?_)
  split
  · exact h
  have ho := State.openBulk_kept h c x 0xFF (.firmware image) false 0 len b
  split
  next e =>
    rw [e] at ho
    exact State.setInactive_kept (kept_mk ho) ..
  next => exact ho

theorem execBegin_kept {s0 s : State} (h : s0.Kept s) (m : CkMsg) (seals : List Nat) : Out.Keeps s0 (execBegin m seals s) := by
  refine Out.keeps_next ?_
  split
  · exact h
  split
  · exact h
  next k s' hc =>
    have hd := State.dropIncoming_kept (State.copyQuire_kept h _ _ hc) k
    dsimp only
    split
    · exact h
    · exact State.updQuire_kept (kept_foldl _ _ (fun _ _ h => State.zeroRegion_kept h ..)
        (State.assignRegions_kept (State.assignRegions_kept hd ..) ..)) ..


theorem execRestore_kept {s0 s : State} (h : s0.Kept s) (c : Hdr) (p : RestoreReq) : Out.Keeps s0 (execRestore c p s) := by
  refine Out.keeps_next (State.hostWork_kept h _ _ _ fun s x h => ?_)
  generalize s.routeOf p.device.toNat = route
  split
  · exact h
  split
  · exact h
  · exact Res.keeps_pend (kept_mk h)

theorem execStageTiles_kept {s0 s : State} (h : s0.Kept s) (meshOk : Bool) (failed steps : List Nat) :
    Out.Keeps s0 (execStageTiles meshOk failed steps s) := by
  unfold execStageTiles
  dsimp only
  apply Out.keeps_next
  split
  · exact h
  split
  · exact State.stopBoot_kept h ..
  apply State.watchRisk_kept
  generalize hX : List.foldl _ _ allTiles = X
  have h' : s0.Kept X := by
    rw [← hX]
    refine kept_foldl _ _ (fun s t h => ?_) (kept_foldl _ _ (fun _ _ h => State.firstIsland_kept h ..) h)
    split
    · exact State.alarm_kept (State.updTile_kept h ..) ..
    · exact State.updTile_kept h ..
  exact ⟨h'.pending, h'.wf⟩

/-- Memory that lists nothing is in its canonical form. -/
theorem kept_memNil {s0 s t : State} (h : s0.Kept s) (hp : t.pending = s.pending) (hm : t.mem.bytes = []) : s0.Kept t :=
  ⟨hp.trans h.pending, fun _ => by rw [hm]; rfl⟩

/-- The channels that bring-up leaves out of service (15 R374). -/
def State.channelsOut (s : State) (failed : List Nat) : List Nat :=
  (List.range 640).filter fun c =>
    ((s.boot.record.map (·.chx)).getD []).contains c || s.flash.channels.contains c || failed.contains c

/-- The channels `cs` in service but for `out`, and the patrol of the stacks `ms` on. -/
def State.startChannels (s : State) (cs ms out : List Nat) : State :=
  ms.foldl (fun s m => s.setStack m { s.stackOf m with regs := [], patrolEn := true }) (cs.foldl (fun s c => s.setChan c
    { Chan.reset with state := if out.contains c then .mappedOut else .live, tempAt := (s.stackOf (c / 32)).temp }) s)

/-- Memory over `n` channels, empty, with the new failures recorded, the log key made, and the links beginning. -/
def State.startMemory (s : State) (n : Nat) (out failed : List Nat) : State :=
  let s : State := { s with
    mem := { Mem.reset with n := n, ctop := capacity n, removed := out
                            regions := (List.range 128).map fun i => (i, { Region.reset with state := .held }) }
    flash := { s.flash with channels := s.flash.channels ++ (failed.filter fun c => !s.flash.channels.contains c) } }
  let (f, s) := s.takeFree
  let s : State := { s with boot := { s.boot with keys := { s.boot.keys with log := Config.drbgKey f + 1 } } }
  let s := (s.setStage 5).beginLinks
  if s.boot.alone then s.alarm .spineFailover (natOf s.spine.primary) else s

theorem execStageMemory_eq (okTb : Bool) (failed : List Nat) (s : State) : execStageMemory okTb failed s =
    .next (if !s.atStage 4 || s.hbm.any (fun e => e.2.level == 0) then s
      else if !okTb || decide (640 - (s.channelsOut failed).length < 608) then s.stopBoot 6
      else (s.startChannels (List.range 640) (List.range 20) (s.channelsOut failed)).startMemory
        (640 - (s.channelsOut failed).length) (s.channelsOut failed) failed) := by
  unfold execStageMemory State.channelsOut State.startChannels State.startMemory
  with_reducible rfl

theorem State.startChannels_kept {s0 s : State} (h : s0.Kept s) (cs ms out : List Nat) : s0.Kept (s.startChannels cs ms out) :=
  kept_foldl _ _ (fun _ _ h => State.setStack_kept h ..) (kept_foldl _ _ (fun _ _ h => State.setChan_kept h ..) h)

theorem State.startMemory_kept {s0 s : State} (h : s0.Kept s) (n : Nat) (out failed : List Nat) : s0.Kept (s.startMemory n out failed) := by
  unfold State.startMemory
  dsimp only
  split
  · with_reducible apply State.alarm_kept
    with_reducible apply State.beginLinks_kept
    with_reducible apply State.setStage_kept
    exact kept_memNil h rfl rfl
  · with_reducible apply State.beginLinks_kept
    with_reducible apply State.setStage_kept
    exact kept_memNil h rfl rfl

theorem execStageMemory_kept {s0 s : State} (h : s0.Kept s) (okTb : Bool) (failed : List Nat) :
    Out.Keeps s0 (execStageMemory okTb failed s) := by
  rw [execStageMemory_eq]
  refine Out.keeps_next ?_
  split
  · exact h
  split
  · exact State.stopBoot_kept h ..
  · exact State.startMemory_kept (State.startChannels_kept h ..) ..

/-- Every command keeps the queue that it is given, and the canonical form of memory. -/
theorem exec_kept (i : Instr) (s : State) : Out.Keeps s (exec i s) := by
  have h := Kept.refl s
  cases i with
  | add | sub | and | or | xor | sll | srl | sra | slt | sltu | min | max | minu | maxu | mul | mulh | mulhu | div | divu | rem
    | remu => exact intR_kept h _ _ _
  | clz | ctz | popc => exact intU_kept h _ _ _
  | addi | andi | ori | xori | slti | sltiu => exact intI_kept h _ _ _
  | shi => exact execShi_kept h _ _
  | lui => exact State.issue32_kept h _ _ _ fun _ h => result_kept h ..
  | lb | lbu | lh | lhu | lw | lwu | ld => exact scalarLoad_kept h _ _ _ _
  | sb | sh | sw | sd => exact scalarStore_kept h _ _ _
  | amo => exact execAmo_kept h _ _ _
  | beq | bne | blt | bltu => exact branch_kept h _ _ _
  | bge => exact branch_kept h (fun x y => !x.slt y) _ _
  | bgeu => exact branch_kept h (fun x y => !x.ult y) _ _
  | j | jal => exact State.issueCtl_kept h _ _ _ fun _ h => toSlot_kept h ..
  | jr => exact execJr_kept h _ _ _
  | jalr => exact execJalr_kept h _ _ _
  | loop => exact execLoop_kept h _ _ _ _
  | fsync | park => exact sysCtl_kept h _ _ _ _ fun _ h => Act.keeps_done (State.updStrand_kept h ..)
  | icinv => exact execIcinv_kept h _ _
  | icinvAll | tlbinv | tlbinvAll | pfstop => exact sysOp_kept h _ _ _ _ fun _ h => Act.keeps_done (State.updTile_kept h ..)
  | rdbeat => exact sysOp_kept h _ _ _ _ fun _ h => result_kept (State.readBeats_kept h ..) ..
  | rdint => exact sysOp_kept h _ _ _ _ fun _ h => result_kept (State.readTicks_kept h ..) ..
  | rdcal | rdself | rdstat | rdcause | rdfault | rdxsp | rdevt | pfrd => exact sysOp_kept h _ _ _ _ fun _ h => result_kept h ..
  | storeBufferDrain => exact Out.keeps_next (State.drainSb_kept h ..)
  | loadReply => exact Out.keeps_next (State.loadStep_kept h ..)
  | icacheLineFill => exact execIcacheLineFill_kept h _
  | strandHalt | strandPcWrite | wxHiWrite => exact Out.keeps_next (State.updStrand_kept h ..)
  | strandHaltTake => exact Out.keeps_next (State.settleHalts_kept (State.takeHalt_kept h ..) ..)
  | strandRelease | arrayHold | arrayRun | marginLengthen => exact Out.keeps_next (State.updTile_kept h ..)
  | wmov => exact execWmov_kept h _ _
  | wclr => exact execWclr_kept h _ _
  | wbound | wright | wlow | wgrp | wdev => exact sysOp_kept h _ _ _ _ fun _ h => narrow_kept h ..
  | wget => exact execWget_kept h _ _
  | wsv => exact execWsv_kept h _ _
  | wld => exact execWld_kept h _ _
  | gcall => exact execGcall_kept h _ _
  | gret => exact execGret_kept h _ _
  | frameReadback => exact execFrameReadback_kept h _
  | esignal => exact execEsignal_kept h _ _
  | qfloor => exact execQfloor_kept h _ _
  | qfloorApplied => exact execQfloorApplied_kept h _
  | pageWalkRead => exact execPageWalkRead_kept h _ _
  | xret => exact execXret_kept h _ _
  | wrstat => exact execWrstat_kept h _ _
  | hushset | hushclr | evclr | wreven | wrcmp => exact sysOp_kept h _ _ _ _ fun _ h => Act.keeps_done (State.updStrand_kept h ..)
  | intervalCompareMatch => exact Out.keeps_next (State.updStrand_kept (State.setIsland_kept h ..) ..)
  | exceptionEntry => exact execExceptionEntry_kept h _
  | vadd | vsub | vrsub | vmul | vmin | vmax | vminu | vmaxu | vand | vor | vxor | vsll | vsrl | vsra | vmulh | vmulhu | vfma | vfms
    | vfnma | vdiv | vsqrt | vabs | vneg | vcmpeq | vcmpne | vcmplt | vcmple | vcmpltu | vcmpleu | vcmpun | vcvt | vmerge | vmv
    | vwadd | vwaddu | vwmul | vwmulu | vwfma | vdot2 | vdot4 | vdot8 | vsadd | vsaddu | vssub | vssubu | vsmul | vssra | vssrl
    | vnclip | vnclipu | vaadd | vmxq | vmxdq | vld | vlds | vldx | vst | vsts | vstx | vldm | vstm | vamox | mand | mor | mxor
    | mandn | mnot | mpopc | mfirst | vcompress | vexpand | vslideup | vslidedown | vperm | vmvxs | vmvsx | vredsum | vredmin
    | vredmax | vredminu | vredmaxu | vredand | vredor | vredxor | vwredsum | vscansum | vscanmin | vscanmax =>
    exact vectorIssue_kept h _ _ _
  | vectorElementReturn => exact Out.keeps_next (State.vecElement_kept h ..)
  | vectorOpComplete => exact execVectorOpComplete_kept h _ _
  | vsetvl => rw [exec_vsetvl]; exact vectorState_kept h _ _ _ _
  | vsetmode => rw [exec_vsetmode]; exact vectorState_kept h _ _ _ _
  | vrdst => rw [exec_vrdst]; exact vectorState_kept h _ _ _ _
  | vwrst => rw [exec_vwrst]; exact vectorState_kept h _ _ _ _
  | twld | tmma | tmmr | tham | tl1 | tminp | tmaxp | tld | tst | tacld | tacst | taczero => exact tileIssue_kept h _ _
  | tcfg => exact execTcfg_kept h _ _
  | tcfgrd | tfrd | tfltrd => exact tileCtl_kept h _ _ _ _ _ fun _ h => result_kept h ..
  | twait => exact execTwait_kept h _ _
  | tfclr | trpclr => exact tileCtl_kept h _ _ _ _ _ fun _ h => Act.keeps_done (State.updTile_kept h ..)
  | trpsv => exact execTrpsv_kept h _ _
  | trpld => exact execTrpld_kept h _ _
  | tileOpBegin => exact execTileOpBegin_kept h _ _
  | tileRowReturn => exact execTileRowReturn_kept h _ _
  | tileOpCommit => exact execTileOpCommit_kept h _ _
  | dummyRowFeed => exact execDummyRowFeed_kept h _ _
  | tileCfgStore => exact execTileCfgStore_kept h _ _
  | arrayDrainDone => exact execArrayDrainDone_kept h _
  | fence => exact execFence_kept h _ _
  | fenceLd => exact execFenceLd_kept h _ _
  | dcl | dci | dinv => exact upkeepOne_kept h _ _ _
  | dclr | dcir | dinvr => exact upkeepRange_kept h _ _ _
  | dclsw | dcisw | dinvsw => exact upkeepSetWay_kept h _ _ _
  | dclAll | dciAll | dinvAll => exact upkeepAll_kept h _ _ _
  | pfl => exact sysOp_kept h _ _ _ _ fun _ h => Act.keeps_done (State.prefetchLine_kept h ..)
  | pfs => exact execPfs_kept h _ _
  | streamPrefetchRequest => exact execStreamPrefetchRequest_kept h _ _
  | fillReturn => exact execFillReturn_kept h _ _ _ _
  | mergingBufferSend => exact execMergingBufferSend_kept h _ _
  | writebackRefused => exact execWritebackRefused_kept h _
  | meshPacketDeliver => exact execMeshPacketDeliver_kept h _ _ _
  | stackPortAccept => exact execStackPortAccept_kept h _
  | memoryRequest => exact execMemoryRequest_kept h _ _ _
  | regulatorRefill => exact Out.keeps_next (State.setStack_kept h ..)
  | hbmRefresh => exact Out.keeps_next h
  | stackTempRead =>
    exact Out.keeps_next (State.watchRisk_kept (State.driftDue_kept (State.pauseRestripe_kept (State.setStack_kept h ..) ..) ..) ..)
  | thermalStopBound => exact execThermalStopBound_kept h _
  | patrolScrub => exact execPatrolScrub_kept h _ _ _
  | retrainStart => exact execRetrainStart_kept h _ _
  | retrainQuiesceDone => exact execRetrainQuiesceDone_kept h _
  | retrainTrainDone => exact execRetrainTrainDone_kept h _ _
  | retrainResumeDone => exact execRetrainResumeDone_kept h _
  | lanePhaseTrack => exact Out.keeps_next (State.setChan_kept h ..)
  | restripeStart => exact execRestripeStart_kept h
  | restripeBatch => exact execRestripeBatch_kept h
  | channelDead => exact execChannelDead_kept h _
  | keySweepRegion => exact execKeySweepRegion_kept h _
  | fillRegion => exact execFillRegion_kept h _
  | frameSend => exact execFrameSend_kept h _
  | frameReceive => exact execFrameReceive_kept h _ _
  | retryTimeout => exact execRetryTimeout_kept h _
  | spliceKeyChange => exact execSpliceKeyChange_kept h _
  | remoteRequest => exact execRemoteRequest_kept h _
  | remoteWriteResponse => exact execRemoteWriteResponse_kept h _
  | eventSignalPacket => exact execEventSignalPacket_kept h _
  | portEnable => exact Out.keeps_next (State.enablePort_kept h ..)
  | laneAdaptationDone => exact execLaneAdaptationDone_kept h _ _ _
  | alignmentDone => exact execAlignmentDone_kept h _ _
  | keyExchangeDone => exact execKeyExchangeDone_kept h _ _
  | portRetrainRequest | adaptationLoss => exact Out.keeps_next (State.startLive_kept h ..)
  | liveRetrainDone => exact execLiveRetrainDone_kept h _ _
  | portDisable => exact Out.keeps_next (State.disablePort_kept h ..)
  | portDrainTimeout => exact execPortDrainTimeout_kept h _
  | cgset => exact execCgset_kept h _ _
  | cgget => exact execCgget_kept h _ _
  | cgclr => exact execCgclr_kept h _ _
  | ccol => exact execCcol_kept h _ _
  | xstart => exact execXstart_kept h _ _
  | collectivePacket => exact execCollectivePacket_kept h _
  | collectiveBoundExpiry => exact execCollectiveBoundExpiry_kept h _
  | collectiveEnd => exact Out.keeps_next (State.endColl_kept (State.advanceColl_kept h ..) ..)
  | transferPieceDone => exact execTransferPieceDone_kept h _
  | hello => exact Out.keeps_next (State.helloOn_kept h ..)
  | auth => exact execAuth_kept h _ _
  | close => exact execClose_kept h _
  | rekey => exact execRekey_kept h _ _
  | ping => exact execPing_kept h _ _
  | sessions | status | health | lostlist | alarms | qquery | certs | measlog | replayrec | portstat | planget | feeds | fwinfo
    | unknownOpcode => exact Out.keeps_next (State.command_kept h _ _ _ fun _ _ h => Res.keeps_done h)
  | evict => exact execEvict_kept h _ _
  | netcfg => exact execNetcfg_kept h _ _
  | netport => exact execNetport_kept h _ _ _
  | inventory => exact execInventory_kept h _
  | alarmack => exact Out.keeps_next (State.command_kept h _ _ _ fun _ _ h => Res.keeps_done (kept_mk h))
  | qcreate => exact execQcreate_kept h _ _
  | qmodify => exact execQmodify_kept h _ _
  | qdrain => exact Out.keeps_next (State.hostWork_kept h _ _ _ fun _ _ h => Res.keeps_pend (State.startDrain_kept h ..))
  | qrelease => exact execQrelease_kept h _
  | keyrotate => exact execKeyrotate_kept h _
  | load => exact execLoad_kept h _ _
  | read => exact execRead_kept h _ _ _
  | write => exact execWrite_kept h _ _ _
  | bulkopen => exact execBulkopen_kept h _ _
  | bulkstatus => exact execBulkstatus_kept h _ _
  | bulkcancel => exact execBulkcancel_kept h _ _
  | start => exact execStart_kept h _ _ _ _
  | halt => exact execHalt_kept h _ _ _
  | tilereset => exact execTilereset_kept h _ _
  | strands => exact execStrands_kept h _ _
  | signal => exact execSignal_kept h _ _ _ _
  | attest => exact execAttest_kept h _ _
  | partner => exact execPartner_kept h _ _
  | ckestimate => exact Out.keeps_next (State.command_kept h _ _ _ fun _ _ h => Res.keeps_done (State.takeFree_kept h ..))
  | checkpoint => exact execCheckpoint_kept h _ _
  | restore => exact execRestore_kept h _ _
  | recoverregion => exact execRecoverregion_kept h _ _
  | mapout => exact execMapout_kept h _ _
  | failover => exact execFailover_kept h _
  | geometry => exact execGeometry_kept h _ _
  | portcfg => exact execPortcfg_kept h _ _
  | porten => exact execPorten_kept h _ _ _
  | override => exact execOverride_kept h _ _
  | groupsave => exact Out.keeps_next (State.bulkCommand_kept h _ _ _ fun _ _ h => State.openBulk_kept h ..)
  | grouprestore => exact execGrouprestore_kept h _ _ _
  | planset => exact execPlanset_kept h _ _
  | reading => exact execReading_kept h _ _
  | subscribe => exact execSubscribe_kept h _ _ _
  | unsubscribe => exact execUnsubscribe_kept h _ _
  | logread => exact execLogread_kept h _ _ _
  | exportcfg => exact execExportcfg_kept h _ _
  | counters => exact execCounters_kept h _ _
  | fwstage => exact execFwstage_kept h _ _ _ _
  | fwverify => exact execFwverify_kept h _
  | fwactivate => exact execFwactivate_kept h _ _
  | messagePartTimeout | probeReply | mrstNRelease => exact Out.keeps_next (kept_mk h)
  | sessionIdleTimeout | sessionRekeyTimeout => exact Out.keeps_next (State.closeSession_kept h ..)
  | epochGraceExpiry => exact execEpochGraceExpiry_kept h _
  | bulkData => exact execBulkData_kept h _
  | bulkAcknowledgement => exact execBulkAcknowledgement_kept h _
  | bulkDone => exact execBulkDone_kept h _ _ _ _
  | bulkAbort => exact execBulkAbort_kept h _ _ _ _
  | bulkAckTimer => exact execBulkAckTimer_kept h _
  | bulkResendTimeout => exact Out.keeps_next (State.resendAll_kept h ..)
  | bulkPeerTimeout => exact execBulkPeerTimeout_kept h _
  | ethPortEnable => exact Out.keeps_next (State.enableEth_kept h ..)
  | ethPortDisable => exact Out.keeps_next (State.disableEth_kept h ..)
  | ethPortDrained => exact execEthPortDrained_kept h _
  | ethLinkDrop => exact execEthLinkDrop_kept h _
  | icmpEcho => exact execIcmpEcho_kept h _ _
  | arpRequest => exact execArpRequest_kept h _ _
  | neighbourDiscovery => exact execNeighbourDiscovery_kept h _ _
  | priorityFlowControl => exact execPriorityFlowControl_kept h _ _ _
  | qread => exact execQread_kept h _ _
  | qrekey => exact execQrekey_kept h _ _
  | discardRetry => exact execDiscardRetry_kept h _
  | grantRefill => exact execGrantRefill_kept h
  | energyPlan => exact execEnergyPlan_kept h _
  | feedFail => exact Out.keeps_next (State.feedFails_kept h ..)
  | feedGood => exact execFeedGood_kept h _
  | feedTransferDone => exact execFeedTransferDone_kept h _
  | mainGoodTimer => exact execMainGoodTimer_kept h
  | holdupExhausted => exact execHoldupExhausted_kept h
  | pmbusPoll => exact execPmbusPoll_kept h _ _
  | ringCalibration => exact Out.keeps_next (State.setIsland_kept (State.takeFree_kept h ..) ..)
  | powerUp => exact execPowerUp_kept h _ _ _
  | moduleReset => exact execModuleReset_kept h
  | stageRom => exact execStageRom_kept h _ _ _
  | stageFirmware => exact execStageFirmware_kept h _
  | stageKeys => exact execStageKeys_kept h _ _
  | stageRecord => exact execStageRecord_kept h _
  | stageMemory => exact execStageMemory_kept h _ _
  | stageLinks => exact execStageLinks_kept h
  | stageLinksTimeout => exact execStageLinksTimeout_kept h
  | stageTiles => exact execStageTiles_kept h _ _ _
  | delayLimit => exact execDelayLimit_kept h _
  | riskDecay => exact Out.keeps_next (State.watchRisk_kept (kept_mk h) ..)
  | qmark => exact execQmark_kept h _ _
  | qnorep => exact sysOp_kept h _ _ _ _ fun _ h => State.needs_kept _ _ _ _ _ _ fun _ => Act.keeps_done (State.spoilReplay_kept h ..)
  | qckpt => exact execQckpt_kept h _ _
  | hungTileDetect => exact Out.keeps_next (State.hungTile_kept h ..)
  | checkpointBoundExpiry => exact execCheckpointBoundExpiry_kept h
  | abort => exact execAbort_kept h _ _ _ _
  | goingDown | deviceLost => exact Out.keeps_next (State.lossMessage_kept h ..)
  | probe => exact Out.keeps_next (State.sendSpine_kept h ..)
  | feedTags => exact execFeedTags_kept h _ _ _
  | portLossTimer => exact execPortLossTimer_kept h _ _
  | probeTimeout => exact execProbeTimeout_kept h _ _
  | hold => exact execHold_kept h _
  | held => exact execHeld_kept h _
  | rejoin => exact execRejoin_kept h _
  | release => exact execRelease_kept h _
  | mismatch => exact execMismatch_kept h _
  | begin => exact execBegin_kept h _ _
  | committed => exact execCommitted_kept h _
  | checkpointAbandon => exact execCheckpointAbandon_kept h _
  | restoreRequest => exact execRestoreRequest_kept h _
  | restoreDone => exact execRestoreDone_kept h _
  | discard => exact execDiscard_kept h _
  | discarded => exact execDiscarded_kept h _
  | spineHeartbeatTimeout => exact execSpineHeartbeatTimeout_kept h
  | spineFaultReport => exact execSpineFaultReport_kept h
  | spineWatchdogExpiry => exact execSpineWatchdogExpiry_kept h
  | logRecordWrite => exact execLogRecordWrite_kept h
  | qdrainTileTimeout => exact execQdrainTileTimeout_kept h _
  | qdrainBoundExpiry => exact Out.keeps_next (State.boundExpires_kept h ..)
  | tileDrainRemoteTimeout => exact execTileDrainRemoteTimeout_kept h _
  | thermtrip => exact execThermtrip_kept h _ _
  | smbusStatusRead => exact execSmbusStatusRead_kept h _ _
  | smbusOtherCommand addr cmd => exact execSmbusOtherCommand_kept h addr cmd
  | registerWrite => exact Out.keeps_next (State.ctlWrite_kept h ..)
  | feedNotGood => exact execFeedNotGood_kept h _
  | spliceConnectorMated => exact execSpliceConnectorMated_kept h _
  | ethPortTrained => exact execEthPortTrained_kept h _ _
  | commandPacketDiscard => exact execCommandPacketDiscard_kept h _ _

/-- No command ends the machine. -/
theorem exec_next (i : Instr) (s : State) : ∃ t, exec i s = .next t := by
  cases i with
  | frameReadback a =>
    change ∃ t, execFrameReadback a s = .next t
    unfold execFrameReadback
    dsimp only
    split <;> exact ⟨_, rfl⟩
  | memoryRequest c u e =>
    change ∃ t, execMemoryRequest c u e s = .next t
    unfold execMemoryRequest
    generalize (if e = .ok then s else s.strike u e) = s
    dsimp only
    split <;> exact ⟨_, rfl⟩
  | qfloorApplied a =>
    change ∃ t, execQfloorApplied a s = .next t
    unfold execQfloorApplied
    split <;> exact ⟨_, rfl⟩
  | _ => exact ⟨_, rfl⟩

/-! ### A step -/

theorem step_nil {s : State} (h : s.pending = []) : step s = .next (s.spineWork true) := by
  unfold step
  rw [h]

theorem step_cons {s : State} {c : Instr} {rest : List Instr} (h : s.pending = c :: rest) :
    step s = exec c { s with pending := rest } := by
  unfold step
  rw [h]

/-- Every step answers a next state. -/
theorem step_next (s : State) : ∃ t, step s = .next t := by
  cases h : s.pending with
  | nil => exact ⟨_, step_nil h⟩
  | cons c rest => rw [step_cons h]; exact exec_next c _

/-- A step keeps what is behind the front command, and the canonical form of memory. -/
theorem step_kept {s t : State} (h : step s = .next t) : ({ s with pending := s.pending.tail } : State).Kept t := by
  cases hp : s.pending with
  | nil =>
    rw [step_nil hp] at h
    cases h
    have hk := State.spineWork_kept (Kept.refl s) true
    exact ⟨hk.pending.trans hp, hk.wf⟩
  | cons c rest =>
    rw [step_cons hp] at h
    exact exec_kept c _ t h

/-- Settles O1: a step on either shape of the queue. -/
theorem stepRunsTheFrontCommand : Obligations.StepRunsTheFrontCommand :=
  ⟨fun _ _ _ => step_cons rfl, fun _ => step_nil⟩

/-- Settles O2: a step keeps the canonical form of memory, by the form of every command. -/
theorem stepKeepsMemoryCanonical : Obligations.StepKeepsMemoryCanonical := fun _ _ hw h => (step_kept h).wf hw

/-- Settles O3: every command answers a next state and keeps the queue that it is given. -/
theorem stepTakesOneCommand : Obligations.StepTakesOneCommand := ⟨step_next, fun _ _ h => (step_kept h).pending⟩

end Sys2Proof.Machine
end

section
/-! The 64 bits of a queued tile instruction give it back, and the 64 bytes of a held entry the entry (07 Tables 07-3, 07-4, 07-11). -/

namespace Sys2Proof.Machine

/-! ### Fields of a number -/

@[simp] theorem natOf_false : natOf false = 0 := rfl
@[simp] theorem natOf_true : natOf true = 1 := rfl

theorem natOf_lt (b : Bool) : natOf b < 2 := by cases b <;> decide

/-- A field of a number that is the number of a word gives the word. -/
theorem ofNat_field {w n lo : Nat} {x : BitVec w} (h : n / 2 ^ lo % 2 ^ w = x.toNat) : BitVec.ofNat w (n / 2 ^ lo) = x :=
  BitVec.eq_of_toNat_eq (by rw [BitVec.toNat_ofNat, h])

theorem bitOf_field {n i : Nat} {b : Bool} (h : n / 2 ^ i % 2 = natOf b) : bitOf n i = b := by
  rw [bitOf, h]
  cases b <;> rfl

/-! ### The bits of a queued tile instruction (07 Tables 07-3, 07-4) -/

theorem MKind.op_lt (k : MKind) : k.op < 7 := by cases k <;> decide
theorem QKind.op_lt (k : QKind) : k.op < 5 := by cases k <;> decide
theorem mkindOf_op (k : MKind) : mkindOf k.op = some k := by cases k <;> rfl
theorem qkindOf_op (k : QKind) : qkindOf k.op = some k := by cases k <;> rfl

theorem tinstrOf_encode_mat (k : MKind) (f : MF) :
    (TInstr.mat k f).encode < 2 ^ 64 ∧ tinstrOf (TInstr.mat k f).encode = some (.mat k f) := by
  obtain ⟨ta, tb, row, arr, acc, nt, ch, fmt, uns, mx, boff, z47, mask⟩ := f
  generalize hn : (TInstr.mat k _).encode = n
  simp only [TInstr.encode] at hn
  have := k.op_lt
  have := natOf_lt nt; have := natOf_lt ch; have := natOf_lt uns; have := natOf_lt mx; have := natOf_lt z47
  have := ta.isLt; have := tb.isLt; have := row.isLt; have := arr.isLt; have := acc.isLt; have := fmt.isLt
  have := boff.isLt; have := mask.isLt
  have major : bitsOf n 26 6 = 0x3C := by unfold bitsOf; omega
  have op : bitsOf n 23 3 = k.op := by unfold bitsOf; omega
  refine ⟨by omega, ?_⟩
  unfold tinstrOf
  rw [if_pos major, op, mkindOf_op]
  simp only [Option.map_some, Option.some.injEq, TInstr.mat.injEq, MF.mk.injEq, true_and]
  refine ⟨ofNat_field ?_, ofNat_field ?_, ofNat_field ?_, ofNat_field ?_, ofNat_field ?_, bitOf_field ?_, bitOf_field ?_,
    ofNat_field ?_, bitOf_field ?_, bitOf_field ?_, ofNat_field ?_, bitOf_field ?_, ofNat_field ?_⟩ <;> omega

theorem tinstrOf_encode_mem (k : QKind) (f : QF) :
    (TInstr.mem k f).encode < 2 ^ 64 ∧ tinstrOf (TInstr.mem k f).encode = some (.mem k f) := by
  obtain ⟨ta, gt, gs, arr, acc, tosl, nt, z0, nrow, drow, rl, mode, fm, fo, pk, raw, z60⟩ := f
  generalize hn : (TInstr.mem k _).encode = n
  simp only [TInstr.encode] at hn
  have := k.op_lt
  have := natOf_lt tosl; have := natOf_lt nt; have := natOf_lt z0; have := natOf_lt pk; have := natOf_lt raw
  have := ta.isLt; have := gt.isLt; have := gs.isLt; have := arr.isLt; have := acc.isLt; have := nrow.isLt; have := drow.isLt
  have := rl.isLt; have := mode.isLt; have := fm.isLt; have := fo.isLt; have := z60.isLt
  have major : bitsOf n 26 6 = 0x3D := by unfold bitsOf; omega
  have op : bitsOf n 22 4 = k.op := by unfold bitsOf; omega
  refine ⟨by omega, ?_⟩
  unfold tinstrOf
  rw [if_neg (by rw [major]; decide), if_pos major, op, qkindOf_op]
  simp only [Option.map_some, Option.some.injEq, TInstr.mem.injEq, QF.mk.injEq, true_and]
  refine ⟨ofNat_field ?_, ofNat_field ?_, ofNat_field ?_, ofNat_field ?_, ofNat_field ?_, bitOf_field ?_, bitOf_field ?_,
    bitOf_field ?_, ofNat_field ?_, ofNat_field ?_, ofNat_field ?_, ofNat_field ?_, ofNat_field ?_, ofNat_field ?_, bitOf_field ?_,
    bitOf_field ?_, ofNat_field ?_⟩ <;> omega

theorem tinstrOf_encode (i : TInstr) : i.encode < 2 ^ 64 ∧ tinstrOf i.encode = some i := by
  cases i with
  | mat k f => exact tinstrOf_encode_mat k f
  | mem k f => exact tinstrOf_encode_mem k f

/-! ### Bytes -/

@[simp] theorem length_leBytes (n v : Nat) : (leBytes n v).length = n := by
  induction n generalizing v with
  | zero => rfl
  | succ n ih => exact congrArg Nat.succ (ih _)

theorem leNat_leBytes (n v : Nat) : leNat (leBytes n v) = v % 256 ^ n := by
  induction n generalizing v with
  | zero => simp [leBytes, leNat, Nat.mod_one]
  | succ n ih =>
    rw [leBytes, leNat, ih, BitVec.toNat_ofNat, pow_succ' 256 n, Nat.mod_mul (x := v) (a := 256)]

/-- Word `i` of the bytes that a list of words spells. -/
theorem leNat_word (ws : List Nat) (i : Nat) :
    leNat (((ws.flatMap (leBytes 8)).drop (8 * i)).take 8) = ws.getD i 0 % 2 ^ 64 := by
  induction ws generalizing i with
  | nil => simp [leNat]
  | cons w ws ih =>
    rw [List.flatMap_cons]
    cases i with
    | zero =>
      rw [List.drop_zero, List.take_append_of_le_length (by simp), List.take_of_length_le (by simp), leNat_leBytes]
      rfl
    | succ i =>
      rw [List.drop_append, List.drop_of_length_le (by simp), List.nil_append, length_leBytes,
        show 8 * (i + 1) - 8 = 8 * i by omega, ih]
      rfl

/-! ### A saved entry (07 Table 07-11) -/

theorem State.origin_lt (s : State) (t : TileId) : s.origin t < 2 ^ 60 := by
  have := t.isLt
  have := s.device.isLt
  have : s.incarnation % 2 ^ 32 < 2 ^ 32 := Nat.mod_lt _ (by decide)
  unfold State.origin
  omega

/-- The word of a saved entry that holds its address, its tag and its description. -/
def TOp.savedMark (o : TOp) : Nat :=
  o.ia.toNat % 2 ^ 48 + 2 ^ 48 * (match o.tag with | some d => d % 32 | none => 0) + 2 ^ 53 * natOf o.tag.isSome + 2 ^ 54 * natOf o.described

/-- What the mark of an entry gives back. -/
theorem TOp.savedMark_fields {o : TOp} (hia : o.ia.toNat < 2 ^ 48) (htag : ∀ d, o.tag = some d → d < 32) :
    o.savedMark < 2 ^ 55 ∧ word (o.savedMark % 2 ^ 48) = o.ia ∧
      (if bitOf o.savedMark 53 then some (bitsOf o.savedMark 48 5) else none) = o.tag ∧ bitOf o.savedMark 54 = o.described := by
  have hd := natOf_lt o.described
  have hia' (h : o.savedMark % 2 ^ 48 = o.ia.toNat) : word (o.savedMark % 2 ^ 48) = o.ia := by
    rw [h]; exact BitVec.ofNat_toNat ..
  cases ht : o.tag with
  | none =>
    have e : o.savedMark = o.ia.toNat + 2 ^ 54 * natOf o.described := by
      simp only [TOp.savedMark, ht, Option.isSome_none, natOf_false]; omega
    have h53 : bitOf o.savedMark 53 = false := bitOf_field (by rw [natOf_false]; omega)
    exact ⟨by omega, hia' (by omega), by rw [h53]; rfl, bitOf_field (by omega)⟩
  | some d =>
    have hlt := htag d ht
    have e : o.savedMark = o.ia.toNat + 2 ^ 48 * d + 2 ^ 53 + 2 ^ 54 * natOf o.described := by
      simp only [TOp.savedMark, ht, Option.isSome_some, natOf_true]; omega
    have h53 : bitOf o.savedMark 53 = true := bitOf_field (by rw [natOf_true]; omega)
    have h48 : bitsOf o.savedMark 48 5 = d := by unfold bitsOf; omega
    exact ⟨by omega, hia' (by omega), by rw [h53, h48]; rfl, bitOf_field (by omega)⟩

/-- Settles O37: the fields of the spelling do not overlap, and the eight words of a saved entry are read back one by one. -/
theorem tileInstructionRoundTrip : Obligations.TileInstructionRoundTrip := by
  refine ⟨tinstrOf_encode, fun s a o hh hheld hload hlegal hia htag hgen => ?_⟩
  obtain ⟨henc, hdec⟩ := tinstrOf_encode o.instr
  obtain ⟨hmark, hpc, htags, hdesc⟩ := TOp.savedMark_fields hia htag
  have horg := s.origin_lt a.t
  have w (i : Nat) : leNat (((o.saved (s.origin a.t)).drop (8 * i)).take 8) =
      [o.instr.encode, o.savedMark, o.gs.toNat, o.gt.toNat, o.cfg.toNat, o.gen, s.origin a.t, 0].getD i 0 % 2 ^ 64 := leNat_word ..
  have toWord (x : Word) : word (x.toNat % 2 ^ 64) = x := by rw [Nat.mod_eq_of_lt x.isLt]; exact BitVec.ofNat_toNat ..
  unfold State.savedEntry
  simp only [w, List.getD_cons_zero, List.getD_cons_succ, Nat.mod_eq_of_lt henc, Nat.mod_eq_of_lt (show o.savedMark < 2 ^ 64 by omega),
    Nat.mod_eq_of_lt hgen, Nat.mod_eq_of_lt (show s.origin a.t < 2 ^ 64 by omega), toWord, Nat.zero_mod]
  rw [if_neg (by simp only [ne_eq, not_true_eq_false, or_false, not_or, not_not]; omega), hdec, Option.bind_some,
    if_neg (by simp [hload, hlegal]), if_pos trivial, hpc, htags, hdesc, hh, hheld]

end Sys2Proof.Machine
end

section
/-! Reset, the general registers, the integer and branch instructions, the hardware loop, and how an instruction completes (02). -/

namespace Sys2Proof.Machine

/-! ### Reset -/

/-- Settles O4: the reset state lists no tile, so each tile and strand reads its own reset value. -/
theorem resetState : Obligations.ResetState :=
  ⟨rfl, rfl, rfl, fun _ => ⟨rfl, rfl, rfl, rfl, rfl, rfl, rfl, rfl, rfl, rfl⟩, fun _ => ⟨rfl, rfl, rfl⟩⟩

/-! ### General registers -/

theorem State.getG_updStrand (s : State) (a b : At) (f : Strand → Strand) (j : BitVec 5) :
    (s.updStrand a f).getG b j = if b = a then (f (s.strand a)).g j else s.getG b j := by
  unfold State.getG
  by_cases h : b = a
  · rw [if_pos h, h, State.strand_updStrand]
  · rw [if_neg h, State.strand_updStrand_ne _ _ h]

/-- Settles O8: a write of a register is read back at its strand and its number. -/
theorem generalRegisterFile : Obligations.GeneralRegisterFile := by
  refine fun s a b i j v => ⟨rfl, ?_⟩
  unfold State.putG
  rw [State.getG_updStrand, Strand.g_setG]
  by_cases h : b = a
  · simp [h, State.getG]
  · simp [h]

/-! ### Integer instructions -/

section
variable {a : At} {s : State}

/-- An instruction that is ready and gives a result writes it and completes. -/
theorem State.issue32_result {uses : List (BitVec 5)} {eff : State → Act} {rd : BitVec 5} {v : Word} (h : s.ready a 4 true uses = true)
    (e : eff s = result s a rd v) : s.issue32 a uses eff = .next ((s.putG a rd v).completed a 4) :=
  congrArg Host.Outcome.next (State.issue_done h e)

/-- One that is ready and finds its encoding illegal takes the illegal-instruction fault. -/
theorem State.issue32_illegal {uses : List (BitVec 5)} {eff : State → Act} (h : s.ready a 4 true uses = true)
    (e : eff s = illegal s a) : s.issue32 a uses eff = .next (s.raise a cIllegal 0 0 (s.strand a).pc) :=
  congrArg Host.Outcome.next (State.issue_fault h e)

theorem intU_ready (op : Word → Word) {f : RF} (h : s.ready a 4 true [f.rd, f.rs1] = true) (hz : f.rs2 = 0) :
    intU op a f s = .next ((s.putG a f.rd (op (s.getG a f.rs1))).completed a 4) :=
  State.issue32_result h (if_neg (by simp [hz]))

theorem intU_illegal (op : Word → Word) {f : RF} (h : s.ready a 4 true [f.rd, f.rs1] = true) (hz : f.rs2 ≠ 0) :
    intU op a f s = .next (s.raise a cIllegal 0 0 (s.strand a).pc) :=
  State.issue32_illegal h (if_pos hz)

theorem intI_ready (op : Word → Word → Word) {f : IF} (h : s.ready a 4 true [f.rd, f.rs1] = true) :
    intI op a f s = .next ((s.putG a f.rd (op (s.getG a f.rs1) (f.imm.signExtend 64))).completed a 4) :=
  State.issue32_result h rfl

theorem lui_ready {rd : BitVec 5} {imm : BitVec 21} (h : s.ready a 4 true [rd] = true) :
    exec (.lui a rd imm) s = .next ((s.putG a rd (imm.signExtend 64 <<< 16)).completed a 4) :=
  State.issue32_result h rfl

/-- The shift that the kind in imm16[7:6] selects; none for a reserved kind (02 Table 02-4, R37). -/
def shiftOf (k : Nat) (x : Word) (n : Nat) : Option Word :=
  if k = 0 then some (x <<< n) else if k = 1 then some (x >>> n) else if k = 2 then some (x.sshiftRight n) else none

theorem exec_shi (f : IF) : exec (.shi a f) s = s.issue32 a [f.rd, f.rs1] fun s =>
    match shiftOf (f.imm.toNat / 64) ((s.strand a).g f.rs1) (f.imm.toNat % 64) with
    | some v => result s a f.rd v
    | none => illegal s a := by
  change execShi a f s = _
  unfold execShi shiftOf
  congr 1
  funext s
  dsimp only
  split_ifs <;> rfl

theorem shi_shifts {f : IF} {v : Word} (h : s.ready a 4 true [f.rd, f.rs1] = true)
    (e : shiftOf (f.imm.toNat / 64) (s.getG a f.rs1) (f.imm.toNat % 64) = some v) :
    exec (.shi a f) s = .next ((s.putG a f.rd v).completed a 4) := by
  rw [exec_shi]
  refine State.issue32_result h ?_
  change (match shiftOf _ (s.getG a f.rs1) _ with | some v => result s a f.rd v | none => illegal s a) = _
  rw [e]

theorem shi_illegal {f : IF} (h : s.ready a 4 true [f.rd, f.rs1] = true)
    (e : shiftOf (f.imm.toNat / 64) (s.getG a f.rs1) (f.imm.toNat % 64) = none) :
    exec (.shi a f) s = .next (s.raise a cIllegal 0 0 (s.strand a).pc) := by
  rw [exec_shi]
  refine State.issue32_illegal h ?_
  change (match shiftOf _ (s.getG a f.rs1) _ with | some v => result s a f.rd v | none => illegal s a) = _
  rw [e]

end

/-- Settles O5: each row of the table is a register form, or a unary form that its rs2 field decides. -/
theorem integerRegisterResult : Obligations.IntegerRegisterResult := by
  refine ⟨fun e he a f s h => ?_, fun e he a f s h => ⟨fun hz => ?_, fun hz => ?_⟩⟩
  · rw [intRegisterOps_run e he, intR_ready e.2 h]
  · rw [intUnaryOps_run e he, intU_ready e.2 h hz]
  · rw [intUnaryOps_run e he, intU_illegal e.2 h hz]

/-- Settles O6: each row of the table is an immediate form, and the kind of shi selects its shift. -/
theorem integerImmediateResult : Obligations.IntegerImmediateResult := by
  refine ⟨fun e he a f s h => ?_, fun a f s h => ⟨fun hk => ?_, fun hk => ?_, fun hk => ?_, fun hk => ?_⟩, fun a rd imm s h => lui_ready h⟩
  · rw [intImmediateOps_run e he, intI_ready e.2 h]
  · refine shi_shifts h ?_
    rw [show f.imm.toNat / 64 = 0 by omega, show f.imm.toNat % 64 = f.imm.toNat by omega]
    rfl
  · refine shi_shifts h ?_
    rw [show f.imm.toNat / 64 = 1 by omega, show f.imm.toNat % 64 = f.imm.toNat - 64 by omega]
    rfl
  · refine shi_shifts h ?_
    rw [show f.imm.toNat / 64 = 2 by omega, show f.imm.toNat % 64 = f.imm.toNat - 128 by omega]
    rfl
  · refine shi_illegal h ?_
    unfold shiftOf
    rw [if_neg (by omega), if_neg (by omega), if_neg (by omega)]

/-! ### Branches, jumps and the loop instruction -/

section
variable {a : At} {s : State} {uses : List (BitVec 5)} {eff : State → Act}

theorem State.issueCtl_toSlot {next : Word} {link : Option (BitVec 5 × Word)} (h : s.ready a 4 false uses = true)
    (e : eff s = toSlot s a next link) : s.issueCtl a uses eff = .next (s.toSlotOf a next link) :=
  congrArg Host.Outcome.next (State.issue_go h e)

theorem State.issueCtl_go {t : State} (h : s.ready a 4 false uses = true) (e : eff s = .go t) :
    s.issueCtl a uses eff = .next (t.issued a) :=
  congrArg Host.Outcome.next (State.issue_go h e)

theorem State.issueCtl_illegal (h : s.ready a 4 false uses = true) (e : eff s = illegal s a) :
    s.issueCtl a uses eff = .next (s.raise a cIllegal 0 0 (s.strand a).pc) :=
  congrArg Host.Outcome.next (State.issue_fault h e)

end

theorem branch_ready (cond : Word → Word → Bool) {a : At} {f : BF} {s : State} (h : s.ready a 4 false [f.rs1, f.rs2] = true) :
    branch cond a f s = .next (s.toSlotOf a (if cond (s.getG a f.rs1) (s.getG a f.rs2) then offsetTarget (s.strand a).pc f.off
      else (s.strand a).pc + 8) none) :=
  State.issueCtl_toSlot h rfl

/-- Settles O11: each goes to its delay slot with its continuation and its link, or is illegal by its unused fields. -/
theorem branchAndJumpResult : Obligations.BranchAndJumpResult := by
  refine ⟨fun e he a f s h => ?_, fun a off s h => State.issueCtl_toSlot h rfl, fun a off s h => State.issueCtl_toSlot h rfl,
    fun a f fn s h => ⟨fun hz => ?_, fun hz => ?_⟩, fun a f fn s h => ⟨fun hz => ?_, fun hz => ?_⟩⟩
  · rw [branchOps_run e he, branch_ready e.2 h]
    rfl
  · exact State.issueCtl_toSlot h (if_neg (by simp [hz]))
  · exact State.issueCtl_illegal h (if_pos (by simpa only [not_and_or] using hz))
  · exact State.issueCtl_toSlot h (if_neg (by simp [hz]))
  · exact State.issueCtl_illegal h (if_pos (by simpa only [not_and_or] using hz))

/-- The loop count is the low half of its register. -/
theorem toNat_loopCount (v : Word) : v.toNat % 2 ^ 32 = (v.setWidth 32 : BitVec 32).toNat := (BitVec.toNat_setWidth ..).symm

/-- Settles O12: the count decides whether the body is skipped, and outside a loop the first level starts. -/
theorem loopResult : Obligations.LoopResult := by
  intro a rs1 n s h hn
  have hcount : ((s.strand a).g rs1).toNat % 2 ^ 32 = ((s.getG a rs1).setWidth 32 : BitVec 32).toNat := toNat_loopCount _
  refine ⟨fun hc => ?_, fun hc hl => ?_⟩
  · refine State.issueCtl_go h ?_
    dsimp only
    rw [if_neg (by simpa using hn), hcount, hc]
    exact if_pos rfl
  · refine State.issueCtl_go (t := s.updStrand a fun r => { r with
      lstart := r.pc + 4, lend := r.pc + word (4 * n.toNat), lcount := ((s.getG a rs1).setWidth 32 : BitVec 32).setWidth 64,
      status := { r.status with loop := 1 }, pc := r.pc + 4 }) h ?_
    have hne : ((s.getG a rs1).setWidth 32 : BitVec 32).toNat ≠ 0 := fun e => hc (BitVec.eq_of_toNat_eq e)
    have hword : word ((s.getG a rs1).setWidth 32 : BitVec 32).toNat = ((s.getG a rs1).setWidth 32 : BitVec 32).setWidth 64 :=
      BitVec.eq_of_toNat_eq (by simp [word])
    dsimp only
    rw [if_neg (by simpa using hn), hcount, if_neg hne]
    unfold Strand.startLoop
    rw [hl, if_pos rfl, hword]
    rfl

/-! ### Completion -/

/-- Replacing the low half of a word. -/
theorem setWidth_lowHalf (v : Word) (c : BitVec 32) : ((v >>> 32 <<< 32) ||| c.setWidth 64).setWidth 32 = c := by
  refine BitVec.eq_of_getLsbD_eq fun i hi => ?_
  simp [hi]

/-- The strand with the count of its inner level lowered by one. -/
def Strand.counted (r : Strand) : Strand :=
  { r with lcount := (r.lcount >>> 32 <<< 32) ||| (r.lcount.setWidth 32 - 1).setWidth 64 }

theorem Strand.countDown_eq (r : Strand) : r.countDown = if r.lcount.setWidth 32 - 1 ≠ (0 : BitVec 32)
    then (false, { r.counted with pc := (r.lstart.setWidth 48).setWidth 64 }) else (true, r.counted) := rfl

section
variable {r : Strand} {n : Nat} (hs : r.slot = none) (hl : r.atLend = true)
include hs hl

theorem Strand.advance_atLend : r.advance n = r.loopEnd := by
  unfold Strand.advance
  rw [hs]
  exact if_pos hl

theorem Strand.advance_repeats (hc : r.lcount.setWidth 32 - 1 ≠ (0 : BitVec 32)) :
    r.advance n = { r.counted with pc := (r.lstart.setWidth 48).setWidth 64 } := by
  rw [Strand.advance_atLend hs hl, Strand.loopEnd, Strand.countDown_eq, if_pos hc]

theorem Strand.advance_leavesLoop (hc : r.lcount.setWidth 32 = (1 : BitVec 32)) (h1 : r.status.loop = 1) :
    r.advance n = { r.counted with status := { r.status with loop := 0 }, pc := r.pc + 4 } := by
  rw [Strand.advance_atLend hs hl, Strand.loopEnd, Strand.countDown_eq, hc, if_neg (by decide)]
  dsimp only
  rw [if_neg (by rw [show r.counted.status.loop = 1 from h1]; decide)]
  rfl

end

/-- Settles O10: by the slot, else by the end of the loop and what its count becomes. -/
theorem completionMovesControl : Obligations.CompletionMovesControl := by
  refine fun r n => ⟨fun b hb hlink => ?_, fun b g v hb hlink => ?_, fun hs hl => ?_, fun hs hl hc => ?_, fun hs hl hc h1 => ?_⟩
  · simp only [Strand.advance, hb, hlink]
  · simp only [Strand.advance, hb, hlink]
  · simp [Strand.advance, hs, hl]
  · rw [Strand.advance_repeats hs hl hc]
    exact ⟨rfl, setWidth_lowHalf .., rfl⟩
  · rw [Strand.advance_leavesLoop hs hl hc h1]
    exact ⟨rfl, rfl⟩

end Sys2Proof.Machine
end

section
/-! System operations; the frame of the scalar instructions (02 Tables 02-4, 02-5); and what comes before an instruction issues (02 R46, R55), which a fault in the second line of an instruction refutes. -/

namespace Sys2Proof.Machine

/-! ### System operations -/

section
variable {a : At} {s : State} {zero uses : List (BitVec 5)} {eff : State → Act}

theorem sysOp_result {rd : BitVec 5} {v : Word} (hz : ∀ i ∈ zero, i = 0) (h : s.ready a 4 true uses = true)
    (e : eff s = result s a rd v) : sysOp a zero uses eff s = .next ((s.putG a rd v).completed a 4) :=
  sysOp_done hz h e

theorem sysOp_wait (hz : ∀ i ∈ zero, i = 0) (h : s.ready a 4 true uses = true) (e : eff s = .wait) :
    sysOp a zero uses eff s = .next s := by
  rw [sysOp_of_zero hz, State.issue32, State.issue_wait h e]

theorem sysOp_later {t : State} (hz : ∀ i ∈ zero, i = 0) (h : s.ready a 4 true uses = true) (e : eff s = .later t) :
    sysOp a zero uses eff s = .next t := by
  rw [sysOp_of_zero hz, State.issue32, State.issue_later h e]

theorem sysOp_illegal (hz : ¬ ∀ i ∈ zero, i = 0) (h : s.ready a 4 true uses = true) :
    sysOp a zero uses eff s = .next (s.raise a cIllegal 0 0 (s.strand a).pc) :=
  State.issue32_illegal h (if_neg fun hall => hz fun i hi => of_decide_eq_true (List.all_eq_true.mp hall i hi))

theorem sysCtl_done {t : State} (hz : ∀ i ∈ zero, i = 0) (h : s.ready a 4 false uses = true) (e : eff s = .done t) :
    sysCtl a zero uses eff s = .next (t.completed a 4) := by
  rw [sysCtl_of_zero hz, State.issueCtl, State.issue_done h e]

end

theorem readOps_ready {e : (At → RF → Instr) × (State → At → Word)} (he : e ∈ readOps) {a : At} {f : RF} {s : State}
    (h : s.ready a 4 true [f.rd] = true) (h1 : f.rs1 = 0) (h2 : f.rs2 = 0) :
    exec (e.1 a f) s = .next ((s.putG a f.rd (e.2 s a)).completed a 4) := by
  rw [readOps_run e he]
  exact sysOp_result (by simp [h1, h2]) h rfl

/-! ### The frame of a scalar instruction -/

namespace State.onlyStrand

variable {s t u : State} {a : At}

theorem trans (h : s.onlyStrand t a) (k : t.onlyStrand u a) : s.onlyStrand u a where
  rest := k.rest.trans (congrArg (fun v : State => { v with tiles := u.tiles, counts := u.counts }) h.rest)
  tiles v hv := (k.tiles v hv).trans (h.tiles v hv)
  tile := k.tile.trans
    (congrArg (fun x : Tile => { x with strands := (u.tile a.t).strands, beats := (u.tile a.t).beats }) h.tile)
  strands b hb := (k.strands b hb).trans (h.strands b hb)

theorem of_updStrand (s : State) (a : At) (f : Strand → Strand) : s.onlyStrand (s.updStrand a f) a where
  rest := rfl
  tiles _ hv := State.tile_setTile_ne _ _ hv
  tile := by
    unfold State.updStrand State.setStrand
    rw [State.tile_setTile]
    rfl
  strands _ hb := State.strand_updStrand_ne _ _ hb

theorem of_beat (s : State) (a : At) : s.onlyStrand (s.beat a.t) a where
  rest := rfl
  tiles _ hv := State.tile_updTile_ne _ _ hv
  tile := by
    unfold State.beat
    rw [State.tile_updTile]
  strands b _ := by
    unfold State.strand State.beat
    by_cases hb : b.t = a.t
    · rw [hb, State.tile_updTile]
      rfl
    · rw [State.tile_updTile_ne _ _ hb]

theorem of_countTile (s : State) (a : At) (k n : Nat) : s.onlyStrand (s.countTile a.t k n) a where
  rest := by
    obtain ⟨c, h⟩ := s.countTile_eq a.t k n
    rw [h]
  tiles _ _ := State.tile_countTile ..
  tile := by rw [State.tile_countTile]
  strands _ _ := State.strand_countTile ..

theorem of_issued (s : State) (a : At) : s.onlyStrand (s.issued a) a := (of_beat s a).trans (of_countTile _ a 0 1)

theorem of_completed (s : State) (a : At) (n : Nat) : s.onlyStrand (s.completed a n) a :=
  (of_issued s a).trans (of_updStrand _ a _)

end State.onlyStrand

@[simp] theorem State.strand_beat (s : State) (a : At) : (s.beat a.t).strand a = s.strand a := by
  unfold State.strand State.beat
  rw [State.tile_updTile]
  rfl

@[simp] theorem State.strand_issued (s : State) (a : At) : (s.issued a).strand a = s.strand a := by
  rw [State.issued, State.strand_countTile, State.strand_beat]

@[simp] theorem State.strand_completed (s : State) (a : At) (n : Nat) : (s.completed a n).strand a = (s.strand a).advance n := by
  change ((s.issued a).updStrand a fun r => r.advance n).strand a = _
  rw [State.strand_updStrand, State.strand_issued]

/-- `q` is `r` but for registers, the pc, the slot and the hardware loop. -/
def Strand.Moved (r q : Strand) : Prop :=
  q = { r with
    regs := q.regs, pc := q.pc, slot := q.slot, lstart := q.lstart, lend := q.lend, lcount := q.lcount
    status := { r.status with loop := q.status.loop } }

theorem Strand.Moved.trans {r q p : Strand} (h : r.Moved q) (k : q.Moved p) : r.Moved p :=
  Eq.trans k (congrArg (fun x : Strand => { x with
    regs := p.regs, pc := p.pc, slot := p.slot, lstart := p.lstart, lend := p.lend, lcount := p.lcount
    status := { x.status with loop := p.status.loop } }) h)

theorem Strand.moved_setG (r : Strand) (i : BitVec 5) (v : Word) : r.Moved (r.setG i v) := by
  unfold Strand.setG
  split <;> rfl

theorem Strand.moved_countDown (r : Strand) : r.Moved r.countDown.2 := by
  rw [Strand.countDown_eq]
  split <;> rfl

theorem Strand.moved_loopEnd (r : Strand) : r.Moved r.loopEnd := by
  have h := r.moved_countDown
  unfold Strand.loopEnd
  split
  · rename_i q e; rw [e] at h; exact h
  · rename_i q e
    rw [e] at h
    split
    · refine h.trans ?_
      dsimp only
      split
      · refine Strand.Moved.trans (q := q.unpackLoop) rfl ?_
        have k := q.unpackLoop.moved_countDown
        split
        · rename_i p e'; rw [e'] at k; exact k
        · rename_i p e'; rw [e'] at k; exact k.trans rfl
      · rfl
    · exact h.trans rfl

theorem Strand.moved_advance (r : Strand) (n : Nat) : r.Moved (r.advance n) := by
  unfold Strand.advance
  split
  · dsimp only
    split
    · exact (r.moved_setG _ _).trans rfl
    · rfl
  · split
    · exact r.moved_loopEnd
    · rfl

theorem Strand.regs_countDown (r : Strand) : r.countDown.2.regs = r.regs := by
  rw [Strand.countDown_eq]
  split <;> rfl

theorem Strand.regs_loopEnd (r : Strand) : r.loopEnd.regs = r.regs := by
  have h := r.regs_countDown
  unfold Strand.loopEnd
  split
  · rename_i q e; rw [e] at h; exact h
  · rename_i q e
    rw [e] at h
    split
    · dsimp only
      split
      · have k := q.unpackLoop.regs_countDown
        split
        · rename_i p e'; rw [e'] at k; exact k.trans h
        · rename_i p e'; rw [e'] at k; exact k.trans h
      · exact h
    · exact h

/-- Completion writes no register but the link of the branch in whose slot the instruction stands. -/
theorem Strand.g_advance (r : Strand) (n : Nat) {j : BitVec 5} (h : (r.slot.bind (·.link)).map (·.1) ≠ some j) :
    (r.advance n).g j = r.g j := by
  have of_regs {q : Strand} (e : q.regs = r.regs) : q.g j = r.g j := by unfold Strand.g; rw [e]
  unfold Strand.advance
  cases hs : r.slot with
  | none =>
    dsimp only
    split
    · exact of_regs r.regs_loopEnd
    · rfl
  | some b =>
    dsimp only
    rw [hs, Option.bind_some] at h
    cases hl : b.link with
    | none => rfl
    | some l =>
      obtain ⟨i, v⟩ := l
      have hj : j ≠ i := fun e => h (by rw [hl, e]; rfl)
      exact (Strand.g_setG r i j v).trans (if_neg fun c => hj c.1)

theorem Strand.slot_setG (r : Strand) (i : BitVec 5) (v : Word) : (r.setG i v).slot = r.slot := by
  unfold Strand.setG
  split <;> rfl

theorem State.framed_putG_completed (s : State) (a : At) (rd : BitVec 5) (v : Word) (n : Nat) :
    s.framed ((s.putG a rd v).completed a n) a [rd] where
  only := (State.onlyStrand.of_updStrand s a _).trans (State.onlyStrand.of_completed _ a n)
  strand := by
    rw [State.strand_completed, State.putG, State.strand_updStrand]
    exact (Strand.moved_setG ..).trans (Strand.moved_advance ..)
  regs j hj hlink := by
    have hne : j ≠ rd := by simpa using hj
    unfold State.getG
    rw [State.strand_completed, State.putG, State.strand_updStrand, Strand.g_advance _ _ (by rwa [Strand.slot_setG]), Strand.g_setG,
      if_neg fun c => hne c.1]

theorem State.framed_toSlotOf (s : State) (a : At) (next : Word) (link : Option (BitVec 5 × Word)) :
    s.framed (s.toSlotOf a next link) a [] where
  only := (State.onlyStrand.of_updStrand s a _).trans (State.onlyStrand.of_issued _ a)
  strand := by
    rw [State.toSlotOf, State.strand_issued, State.strand_updStrand]
  regs j _ _ := by
    rw [State.getG, State.toSlotOf, State.strand_issued, State.strand_updStrand]
    rfl

/-- Settles O9: every row of the tables writes one register and completes, or goes to its delay slot. -/
theorem scalarFrame : Obligations.ScalarFrame := by
  intro a s t
  have written {o : Out} {rd : BitVec 5} {v : Word} (e : o = .next ((s.putG a rd v).completed a 4)) (h : o = .next t) :
      s.framed t a [rd] := by
    obtain rfl := Host.Outcome.next.inj (e.symm.trans h)
    exact State.framed_putG_completed ..
  have toSlot {o : Out} {next : Word} {link : Option (BitVec 5 × Word)} (e : o = .next (s.toSlotOf a next link)) (h : o = .next t) :
      s.framed t a [] := by
    obtain rfl := Host.Outcome.next.inj (e.symm.trans h)
    exact State.framed_toSlotOf ..
  refine ⟨fun e he f h => written ((intRegisterOps_run e he a f s).trans (intR_ready e.2 h)),
    fun e he f h hz => written ((intUnaryOps_run e he a f s).trans (intU_ready e.2 h hz)),
    fun e he f h => written ((intImmediateOps_run e he a f s).trans (intI_ready e.2 h)), fun f h hi => ?_,
    fun rd imm h => written (lui_ready h), fun e he f h h1 h2 => written (readOps_ready he h h1 h2),
    fun e he f h => toSlot ((branchOps_run e he a f s).trans (branch_ready e.2 h)),
    fun off h => toSlot (State.issueCtl_toSlot h rfl)⟩
  obtain ⟨v, hv⟩ : ∃ v, shiftOf (f.imm.toNat / 64) (s.getG a f.rs1) (f.imm.toNat % 64) = some v := by
    unfold shiftOf
    split_ifs
    iterate 3 exact ⟨_, rfl⟩
    omega
  exact written (shi_shifts h hv)

/-! ### What comes before an instruction issues -/

/-- A strand whose instruction's first two bytes end the addresses below 2^48, in a backstop region that its warrant in w15 lets it fetch,
and whose other two bytes no strand may fetch; a frame is being read back, so that the fault waits (03 R77). -/
def lastHalfword : State :=
  State.reset.setTile 0 ({ Tile.reset with assigned := true, bsBase := 2 ^ 48 - 2 ^ 14 }.setStrand 0 { Strand.reset with
    run := .running, pc := 2 ^ 48 - 2, readback := true
    wregs := [(15, BitVec.ofNat 128 (1 + 2 ^ 26 + 40 * 2 ^ 32 + 2 ^ 20 * 2 ^ 38))] })

/-- The line in the line buffer of a strand after a step. -/
def lineAfter (a : At) (o : Out) : Option Nat := match o with | .next t => (t.strand a).lineBuf | _ => none

/-- Refutes O13, in its second part: where the second line of the instruction faults and the entry has to wait, the strand is left as the
fetch found it, so that the line that the instruction cache gave for its first half is not in the line buffer. -/
theorem not_fetchBeforeIssue : ¬ Obligations.FetchBeforeIssue := by
  intro h
  let a : At := ⟨0, 0⟩
  let f : RF := ⟨0, 0, 0⟩
  let fetched : State := lastHalfword.updStrand a fun r => { r with lineBuf := some (lineOf r.pc), lineNext := none }
  have same : exec (.add a f) lastHalfword = exec (.add a f) fetched :=
    (h.2 a f lastHalfword { target := .memory, addr := 2 ^ 14 - 2, policy := .writeBack, isSeal := false, backstop := true }
      (by decide) (by decide) (by decide) (by decide) (by decide) (by decide) (by decide)).1 (.inl rfl)
  exact absurd (congrArg (lineAfter a) same) (by decide)

end Sys2Proof.Machine
end

section
/-! The special registers (02 Table 02-6, 03 Tables 03-8, 03-12), fetch control, park and event lines (02 R57, 03 R80). -/

namespace Sys2Proof.Machine

/-! ### Counters and the status word -/

theorem State.readBeats_advances (s : State) (t : TileId) :
    ((s.tile t).beats < 2 ^ 64 - 1 → (s.tile t).beats < ((s.readBeats t).2.tile t).beats) ∧
    (s.readBeats t).1 = word ((s.readBeats t).2.tile t).beats ∧ ((s.readBeats t).2.tile t).beats < 2 ^ 64 := by
  have hb : ((s.readBeats t).2.tile t).beats = min ((s.tile t).beats + 1 + Config.elapsedBeats s.free) (2 ^ 64 - 1) := by
    change ((State.updTile { s with free := s.free + 1 } t _).tile t).beats = _
    rw [State.tile_updTile]
    rfl
  rw [hb]
  exact ⟨fun h => by omega, rfl, by omega⟩

theorem State.readTicks_advances (s : State) (t : TileId) :
    ((s.island (islandOf t)).ticks < 2 ^ 64 → (s.island (islandOf t)).ticks ≤ ((s.readTicks t).2.island (islandOf t)).ticks) ∧
    (s.readTicks t).1 = word ((s.readTicks t).2.island (islandOf t)).ticks ∧ ((s.readTicks t).2.island (islandOf t)).ticks < 2 ^ 64 := by
  have hb : ((s.readTicks t).2.island (islandOf t)).ticks =
      min ((s.island (islandOf t)).ticks + Config.elapsedTicks s.free) (2 ^ 64 - 1) := by
    change (Sparse.get Island.reset (Sparse.set Island.reset s.islands (islandOf t) _) (islandOf t)).ticks = _
    rw [Sparse.get_set_self]
    rfl
  rw [hb]
  exact ⟨fun h => by omega, rfl, by omega⟩

theorem getLsbD_word {n i : Nat} {b : Bool} (hi : i < 64) (h : n / 2 ^ i % 2 = natOf b) : (word n).getLsbD i = b := by
  rw [word, BitVec.getLsbD_ofNat, decide_eq_true hi, Bool.true_and, Nat.testBit_eq_decide_div_mod_eq, h]
  cases b <;> rfl

theorem extractLsb'_word {n lo w : Nat} {v : BitVec w} (hlo : lo + w ≤ 64) (h : n / 2 ^ lo % 2 ^ w = v.toNat) :
    (word n).extractLsb' lo w = v := by
  refine BitVec.eq_of_toNat_eq ?_
  have h64 : (2 : Nat) ^ 64 = 2 ^ lo * 2 ^ (64 - lo) := by rw [← pow_add]; congr 1; omega
  rw [word, BitVec.extractLsb'_toNat, BitVec.toNat_ofNat, Nat.shiftRight_eq_div_pow, h64, Nat.mod_mul_right_div_self,
    Nat.mod_mod_of_dvd _ (pow_dvd_pow 2 (by omega)), h]

/-- The fields of the status word stand where Table 03-8 puts them. -/
theorem Status.word_fields (st : Status) :
    st.word.getLsbD 0 = st.hush ∧ st.word.getLsbD 1 = st.precise ∧ st.word.extractLsb' 2 2 = st.loop ∧
    st.word.extractLsb' 4 5 = st.gdepth ∧ st.word.getLsbD 9 = st.bs ∧ st.word.getLsbD 10 = false ∧ st.word.extractLsb' 11 5 = st.aten ∧
    st.word.extractLsb' 16 48 = (0 : BitVec 48) := by
  have hh := natOf_lt st.hush
  have hp := natOf_lt st.precise
  have hb := natOf_lt st.bs
  have hl := st.loop.isLt
  have hg := st.gdepth.isLt
  have ha := st.aten.isLt
  unfold Status.word
  refine ⟨getLsbD_word (by decide) ?_, getLsbD_word (by decide) ?_, extractLsb'_word (by decide) ?_, extractLsb'_word (by decide) ?_,
    getLsbD_word (by decide) ?_, getLsbD_word (by decide) ?_, extractLsb'_word (by decide) ?_, extractLsb'_word (by decide) ?_⟩
  case refine_6 => rw [natOf_false]; omega
  case refine_8 => rw [show (0 : BitVec 48).toNat = 0 from rfl]; omega
  all_goals omega

/-- Settles O16: each form is a system operation with its source fields zero; the counters are read after free counts have passed. -/
theorem specialRegisterReads : Obligations.SpecialRegisterReads := by
  refine ⟨fun e he a f s h => ⟨fun hz => readOps_ready he h hz.1 hz.2, fun hz => ?_⟩, fun a f s h hz => ?_,
    fun s t => ?_, Status.word_fields⟩
  · rw [readOps_run e he]
    exact sysOp_illegal (fun hall => hz ⟨hall _ (by simp), hall _ (by simp)⟩) h
  · have hzero : ∀ i ∈ [f.rs1, f.rs2], i = 0 := by simp [hz]
    exact ⟨sysOp_done hzero h rfl, sysOp_done hzero h rfl⟩
  · obtain ⟨h1, h2, h3⟩ := s.readBeats_advances t
    obtain ⟨h4, h5, h6⟩ := s.readTicks_advances t
    exact ⟨h1, h2, h3, h4, h5, h6⟩

/-- Settles O17: wrstat is decided by the precise bit that it sets and the strand's vector instructions; the others always complete. -/
theorem specialRegisterWrites : Obligations.SpecialRegisterWrites := by
  intro a f s
  refine ⟨fun h hd h2 => ?_, fun h h1 h2 => sysOp_done (by simp [h1, h2]) h rfl, fun h hd h1 h2 => sysOp_done (by simp [hd, h1, h2]) h rfl⟩
  have hz : ∀ i ∈ [f.rd, f.rs2], i = 0 := by simp [hd, h2]
  refine ⟨fun hw => sysOp_done hz h ?_, fun hv hq => sysOp_wait hz h ?_, ?_, sysOp_done hz h rfl, sysOp_done hz h rfl⟩
  · exact if_neg (by rw [Bool.and_eq_true]; exact hw)
  · exact if_pos (by rw [Bool.and_eq_true]; exact ⟨hv, hq⟩)
  · refine sysOp_done hz h ?_
    have hbit : ((s.getG a f.rs1).setWidth 32 : BitVec 32).getLsbD 4 = (s.getG a f.rs1).getLsbD 4 := by simp
    change Act.done (s.updStrand a fun r => { r with
      evtPend := r.evtPend &&& ~~~ (r.g f.rs1).setWidth 32
      line4 := if ((r.g f.rs1).setWidth 32 : BitVec 32).getLsbD 4 then none else r.line4 }) = _
    unfold State.updStrand
    dsimp only
    rw [show ((s.strand a).g f.rs1) = s.getG a f.rs1 from rfl, hbit]

/-! ### Fetch control, park and event lines -/

section
variable {a : At} {f : RF} {s : State}

theorem Strand.wake_of_event {r : Strand} (hp : r.run = .parked) (he : r.event ≠ 0) : r.wake = { r with run := .running } :=
  if_pos (by rw [hp, decide_eq_true he]; rfl)

theorem Strand.wake_of_not {r : Strand} (h : ¬ (r.run = .parked ∧ r.event ≠ 0)) : r.wake = r :=
  if_neg (by simpa using h)

/-- Waking changes at most whether the strand runs. -/
theorem Strand.wake_eq (r : Strand) : r.wake = { r with run := if r.run = .parked ∧ r.event ≠ 0 then .running else r.run } := by
  by_cases h : r.run = .parked ∧ r.event ≠ 0
  · rw [Strand.wake_of_event h.1 h.2, if_pos h]
  · rw [Strand.wake_of_not h, if_neg h]

theorem Tile.dropCode_here {x : Tile} {dev va : Nat} {e : TlbEntry} (h : bitsOf (e.physOf va) 44 20 = dev) :
    x.dropCode dev va e = { x with icache := x.icache.filter (· ≠ bitsOf (e.physOf va) 0 44 / 128) } := if_pos h

theorem Tile.dropCode_elsewhere {x : Tile} {dev va : Nat} {e : TlbEntry} (h : bitsOf (e.physOf va) 44 20 ≠ dev) :
    x.dropCode dev va e = x := if_neg h

/-- What icinv does with what the look-up of its page gives (02 R57). -/
def State.icinvAct (s : State) (a : At) (va : Nat) : Look → Act
  | .miss => .later (s.startWalk a.t { page := va / 2 ^ 16, who := .strand a.h })
  | .fail _ _ none => .done (s.updTile a.t fun x => x.forget (.strand a.h))
  | .fail _ _ (some e) => .done (s.updTile a.t fun x => (x.dropCode s.device.toNat va e).forget (.strand a.h))
  | .hit e => .done (s.updTile a.t fun x => x.dropCode s.device.toNat va e)

variable (h : s.ready a 4 true [f.rs1] = true) (hd : f.rd = 0) (h2 : f.rs2 = 0)
include h hd h2

/-- icinv of an address that has no translation of its own (02 R57). -/
theorem icinv_untranslated (hva : inControl (s.getG a f.rs1).toNat = true ∨ 2 ^ 56 ≤ (s.getG a f.rs1).toNat ∨
    inBackstop (s.tile a.t) (s.getG a f.rs1).toNat 1 = true) : exec (.icinv a f) s = .next (s.completed a 4) := by
  refine sysOp_done (by simp [hd, h2]) h ?_
  change (if inControl (s.getG a f.rs1).toNat = true ∨ (s.getG a f.rs1).toNat ≥ 2 ^ 56 then Act.done s
    else if inBackstop (s.tile a.t) (s.getG a f.rs1).toNat 1 = true then Act.done s else _) = Act.done s
  by_cases h1 : inControl (s.getG a f.rs1).toNat = true ∨ (s.getG a f.rs1).toNat ≥ 2 ^ 56
  · exact if_pos h1
  · rw [if_neg h1, if_pos]
    rcases hva with hv | hv | hv
    · exact absurd (.inl hv) h1
    · exact absurd (.inr hv) h1
    · exact hv

/-- icinv of any other address does what the look-up of its page says. -/
theorem icinv_translated (hc : inControl (s.getG a f.rs1).toNat = false) (hr : (s.getG a f.rs1).toNat < 2 ^ 56)
    (hb : inBackstop (s.tile a.t) (s.getG a f.rs1).toNat 1 = false) {look : Look}
    (e : lookTlb (s.tile a.t) (.strand a.h) ((s.getG a f.rs1).toNat / 2 ^ 16) = look) :
    exec (.icinv a f) s = .next (s.issue a 4 true [f.rs1] fun _ => s.icinvAct a (s.getG a f.rs1).toNat look) := by
  have hz : ∀ i ∈ [f.rd, f.rs2], i = 0 := by simp [hd, h2]
  change sysOp a [f.rd, f.rs2] [f.rs1] _ s = _
  rw [sysOp_of_zero hz, State.issue32, State.issue_ready _ h, State.issue_ready _ h, ← e]
  dsimp only
  rw [if_neg (by rw [show (s.strand a).g f.rs1 = s.getG a f.rs1 from rfl, hc]; simpa using hr),
    if_neg (by rw [show (s.strand a).g f.rs1 = s.getG a f.rs1 from rfl, hb]; simp)]
  rfl

theorem icinv_done (hc : inControl (s.getG a f.rs1).toNat = false) (hr : (s.getG a f.rs1).toNat < 2 ^ 56)
    (hb : inBackstop (s.tile a.t) (s.getG a f.rs1).toNat 1 = false) {look : Look} {t : State}
    (e : lookTlb (s.tile a.t) (.strand a.h) ((s.getG a f.rs1).toNat / 2 ^ 16) = look)
    (ht : s.icinvAct a (s.getG a f.rs1).toNat look = .done t) : exec (.icinv a f) s = .next (t.completed a 4) := by
  rw [icinv_translated h hd h2 hc hr hb e]
  exact congrArg Host.Outcome.next (State.issue_done h ht)

end

/-- Settles O18: icinv by what the look-up of its page gives; the others always complete; a line wakes a parked strand. -/
theorem fetchControlAndPark : Obligations.FetchControlAndPark := by
  refine ⟨fun a f s => ⟨fun h hd h1 h2 => ?_, fun h hd h1 h2 => sysOp_done (by simp [hd, h1, h2]) h rfl, fun h hd h2 => ?_⟩, fun r lines => ?_⟩
  · have hz : ∀ i ∈ [f.rd, f.rs1, f.rs2], i = 0 := by simp [hd, h1, h2]
    refine ⟨sysCtl_done hz h rfl, fun he => sysCtl_done hz h ?_, fun he => sysCtl_done hz h ?_⟩
    · change Act.done (s.setStrand a (if (s.strand a).event ≠ 0 then _ else _)) = _
      rw [if_neg (by simpa using he)]
      rfl
    · change Act.done (s.setStrand a (if (s.strand a).event ≠ 0 then _ else _)) = _
      rw [if_pos he]
      rfl
  · refine ⟨fun hva => icinv_untranslated h hd h2 hva, fun hc hr hb => ⟨fun e he hdev => ?_, fun e he hdev => ?_, fun c k he => ?_,
      fun c k e he hdev => ?_, fun he => ?_⟩⟩
    · exact icinv_done h hd h2 hc hr hb he (congrArg (fun g => Act.done (s.updTile a.t g)) (funext fun x => Tile.dropCode_here hdev))
    · exact icinv_done h hd h2 hc hr hb he (congrArg (fun g => Act.done (s.updTile a.t g)) (funext fun x => Tile.dropCode_elsewhere hdev))
    · exact icinv_done h hd h2 hc hr hb he rfl
    · exact icinv_done h hd h2 hc hr hb he (congrArg (fun g => Act.done (s.updTile a.t g))
        (funext fun x => congrArg (Tile.forget · _) (Tile.dropCode_here hdev)))
    · rw [icinv_translated h hd h2 hc hr hb he]
      exact congrArg Host.Outcome.next (State.issue_later h rfl)
  · rw [Strand.pend, Strand.wake_eq]
    refine ⟨rfl, rfl, rfl, rfl, rfl, rfl, fun a s hp he => ?_⟩
    rw [State.strand_updStrand, Strand.wake_of_event hp he]

end Sys2Proof.Machine
end

section
/-! Scalar accesses (02 R47 to R54), strand control (02 R59, R60), events and returns at a boundary (03 R79, R84), and atomics (09 R249 to R253). -/

namespace Sys2Proof.Machine

/-! ### Scalar loads and stores -/

section
variable {a : At} {s : State} {n : Nat}

theorem scalarLoad_issues {signed : Bool} {f : IF} {ps : List (Word × Nat × Xlate)} (h : s.ready a 4 true [f.rd, f.rs1] = true)
    (hp : s.checkHalves a .load (s.getG a f.rs1 + f.imm.signExtend 64) n = .ok ps) (hc : s.hasCredit a.t false (partsOf ps) = true) :
    scalarLoad n signed a f s = .next ((s.startLoad a (.reg signed) f.rd n false (partsOf ps)).completed a 4) := by
  refine congrArg Host.Outcome.next (State.issue_done h ?_)
  rw [show (s.strand a).g f.rs1 = s.getG a f.rs1 from rfl, hp]
  exact if_pos hc

theorem scalarLoad_waits {signed : Bool} {f : IF} {ps : List (Word × Nat × Xlate)} (h : s.ready a 4 true [f.rd, f.rs1] = true)
    (hp : s.checkHalves a .load (s.getG a f.rs1 + f.imm.signExtend 64) n = .ok ps) (hc : s.hasCredit a.t false (partsOf ps) = false) :
    scalarLoad n signed a f s = .next s := by
  refine congrArg Host.Outcome.next (State.issue_wait h ?_)
  rw [show (s.strand a).g f.rs1 = s.getG a f.rs1 from rfl, hp]
  exact if_neg (by simp [hc])

theorem scalarLoad_faults {signed : Bool} {f : IF} {c k w : Nat} {v : Word} (h : s.ready a 4 true [f.rd, f.rs1] = true)
    (hp : s.checkHalves a .load (s.getG a f.rs1 + f.imm.signExtend 64) n = .fail c k w v) :
    scalarLoad n signed a f s = .next (s.raise a c k w v) := by
  refine congrArg Host.Outcome.next (State.issue_fault h ?_)
  rw [show (s.strand a).g f.rs1 = s.getG a f.rs1 from rfl, hp]

/-- A store of the strand with its entries in the store buffer (02 R47, R52). -/
theorem State.enterStore_room {ps : List (Word × Nat × Xlate)} (bs : List Byte) (h : s.sbRoom a ps.length = true) :
    s.enterStore a ps bs = .done (s.updStrand a fun r => { r with sb := r.sb ++ entriesOf r.seq ps bs, seq := r.seq + 1 }) :=
  if_neg (by simp [h])

theorem scalarStore_enters {f : SF} {ps : List (Word × Nat × Xlate)} (h : s.ready a 4 true [f.rs1, f.rs2] = true)
    (hp : s.checkHalves a .store (s.getG a f.rs1 + f.imm.signExtend 64) n = .ok ps) (hr : s.sbRoom a ps.length = true) :
    scalarStore n a f s = .next ((s.updStrand a fun r => { r with
      sb := r.sb ++ entriesOf r.seq ps (leBytes n (s.getG a f.rs2).toNat), seq := r.seq + 1 }).completed a 4) := by
  refine congrArg Host.Outcome.next (State.issue_done h ?_)
  rw [show (s.strand a).g f.rs1 = s.getG a f.rs1 from rfl, hp]
  exact State.enterStore_room _ hr

end

/-- Settles O14: by what the checks of the halves answer, and the credit that an uncached load needs. -/
theorem scalarAccessIssues : Obligations.ScalarAccessIssues := by
  refine ⟨fun e he a f s ps h hp => ⟨fun hc => ?_, fun hc => ?_⟩, fun e he a f s ps h hp hr => ?_, fun e he a f s c k w v h hp => ?_⟩
  · rw [scalarLoads_run e he, scalarLoad_issues h hp hc]
  · rw [scalarLoads_run e he, scalarLoad_waits h hp hc]
  · rw [scalarStores_run e he, scalarStore_enters h hp hr]
  · rw [scalarLoads_run e he, scalarLoad_faults h hp]

/-! ### A load that the tile store serves -/

/-- Touching a line changes no strand. -/
theorem Tile.strands_touch (x : Tile) (n : Nat) : (x.touch n).strands = x.strands := by
  unfold Tile.touch Tile.useWay Tile.setLine
  split
  · rfl
  · split
    · dsimp only
      split <;> rfl
    · rfl

theorem State.strand_touch (s : State) (t : TileId) (n : Nat) (b : At) :
    (s.updTile t fun x => x.touch n).strand b = s.strand b := by
  unfold State.strand Tile.strand
  by_cases hb : b.t = t
  · rw [hb, State.tile_updTile, Tile.strands_touch]
  · rw [State.tile_updTile_ne _ _ hb]

/-- A cached part of a load of this device's memory, which is not in the backstop region. -/
structure LoadPart.Cached (p : LoadPart) : Prop where
  waiting : p.state = .waiting
  target : p.target = .memory
  policy : p.policy = .writeBack
  backstop : p.backstop = false

/-- Nothing older is in the way of a load: no store buffer holds an entry, and no load is pending. -/
structure State.Idle (s : State) : Prop where
  sb : ∀ b : At, (s.strand b).sb = []
  loads : ∀ b : At, (s.strand b).loads = []

/-- With nothing older, a part whose bytes the tile store holds without an error takes them (02 R48). -/
theorem State.tryPart_hit {s : State} {a : At} {ld : PendingLoad} {p : LoadPart} {signed : Bool} {ctl : Option (Nat → Word)}
    (hk : ld.kind = .reg signed) (hp : p.Cached) (hs : s.Idle) (hin : (s.tile a.t).present p.addr p.len = true)
    (hok : (s.tile a.t).hurt p.addr (wordsMet (p.addr % 256) p.len) = false) :
    s.tryPart a ld p ctl = (.got ((s.tile a.t).readLine p.addr p.len), s.updTile a.t fun x => x.touch p.addr) := by
  have holder : (s.strand a).older ld.seq p = [] := by simp [Strand.older, hs.sb]
  have hothers : (allStrands.any fun h => h ≠ a.h && ((s.tile a.t).strand h).sb.any (·.meets p)) = false := by
    rw [List.any_eq_false]
    intro h _
    rw [show ((s.tile a.t).strand h).sb = [] from hs.sb ⟨a.t, h⟩]
    simp
  have hamo : (s.tile a.t).amoWaiting (some (a.h, ld.seq)) p.addr p.len = false := by
    rw [Tile.amoWaiting, List.any_eq_false]
    intro h _
    rw [show ((s.tile a.t).strand h).loads = [] from hs.loads ⟨a.t, h⟩]
    simp
  unfold State.tryPart
  dsimp only
  rw [hp.waiting, hk]
  dsimp only
  rw [hp.target]
  dsimp only
  rw [hp.policy, if_neg (by decide), holder, hothers, hamo, hp.backstop, hok, hin]
  rfl

/-- The pending load that an instruction starts. -/
def State.newLoad (s : State) (a : At) (kind : LoadKind) (rd : BitVec 5) (n : Nat) (isSeal : Bool) (parts : List LoadPart) : PendingLoad :=
  { kind := kind, rd := rd, len := n, seq := (s.strand a).seq, isSeal := isSeal, parts := parts }

/-- A load of one part that is served at once is finished with its bytes. -/
theorem State.startLoad_served {s u : State} {a : At} {kind : LoadKind} {rd : BitVec 5} {n : Nat} {isSeal : Bool} {p : LoadPart}
    {bs : List Byte}
    (h : (s.updStrand a fun r => { r with seq := r.seq + 1 }).tryPart a (s.newLoad a kind rd n isSeal [p]) p none = (.got bs, u)) :
    s.startLoad a kind rd n isSeal [p] = u.finishLoad a (s.newLoad a kind rd n isSeal [{ p with state := .got bs }]) bs := by
  unfold State.startLoad
  dsimp only
  unfold State.tryParts
  rw [show (PendingLoad.mk kind rd n (s.strand a).seq isSeal [p]) = s.newLoad a kind rd n isSeal [p] from rfl, h]
  simp [State.tryParts, PendingLoad.ready, LoadPart.bytes?, State.newLoad]

theorem Strand.busy_setBoard_false (r : Strand) (i : BitVec 5) (h : i ≠ 0) : (r.setBoard i false).busy i = false := by
  have hi := i.isLt
  unfold Strand.setBoard Strand.busy
  rw [if_neg h]
  simp

theorem Strand.busy_setBoard_zero (r : Strand) (b : Bool) (j : BitVec 5) : (r.setBoard 0 b).busy j = r.busy j := rfl

theorem Strand.regs_setBoard (r : Strand) (i : BitVec 5) (b : Bool) : (r.setBoard i b).regs = r.regs := by
  unfold Strand.setBoard
  split <;> rfl

theorem Strand.loads_setBoard (r : Strand) (i : BitVec 5) (b : Bool) : (r.setBoard i b).loads = r.loads := by
  unfold Strand.setBoard
  split <;> rfl

theorem Strand.board_setG (r : Strand) (i : BitVec 5) (v : Word) : (r.setG i v).board = r.board := by
  unfold Strand.setG
  split <;> rfl

theorem Strand.loads_setG (r : Strand) (i : BitVec 5) (v : Word) : (r.setG i v).loads = r.loads := by
  unfold Strand.setG
  split <;> rfl

theorem Strand.busy_setBoard_self {r : Strand} {i : BitVec 5} (h : r.busy i = false) : (r.setBoard i false).busy i = false := by
  by_cases hi : i = 0
  · subst hi
    exact h
  · exact r.busy_setBoard_false i hi

theorem Strand.busy_setG (r : Strand) (i j : BitVec 5) (v : Word) : (r.setG i v).busy j = r.busy j := by
  unfold Strand.busy
  rw [Strand.board_setG]

theorem Strand.g_setBoard (r : Strand) (i j : BitVec 5) (b : Bool) : (r.setBoard i b).g j = r.g j := by
  unfold Strand.g
  rw [Strand.regs_setBoard]

/-- The state after a load has been served with the value `v`: the strand has numbered it, the line of `n` is touched, and `rd` is written. -/
def State.loaded (s : State) (a : At) (rd : BitVec 5) (n : Nat) (v : Word) : State :=
  ((s.updStrand a fun r => { r with seq := r.seq + 1 }).updTile a.t fun x => x.touch n).updStrand a fun r =>
    (r.setG rd v).setBoard rd false

section
variable (s : State) (a : At) (rd : BitVec 5) (n : Nat) (v : Word)

theorem State.strand_loaded : (s.loaded a rd n v).strand a =
    (Strand.setG { s.strand a with seq := (s.strand a).seq + 1 } rd v).setBoard rd false := by
  rw [State.loaded, State.strand_updStrand, State.strand_touch, State.strand_updStrand]

theorem State.strand_loaded_ne {b : At} (hb : b ≠ a) : (s.loaded a rd n v).strand b = s.strand b := by
  rw [State.loaded, State.strand_updStrand_ne _ _ hb, State.strand_touch, State.strand_updStrand_ne _ _ hb]

theorem State.mem_loaded : (s.loaded a rd n v).mem = s.mem := by
  rw [State.loaded, State.updStrand_mem, State.updTile_mem, State.updStrand_mem]

theorem State.getG_loaded (j : BitVec 5) : (s.loaded a rd n v).getG a j = if j = rd ∧ rd ≠ 0 then v else s.getG a j := by
  rw [State.getG, State.strand_loaded, Strand.g_setBoard, Strand.g_setG]
  rfl

theorem State.loads_loaded : ((s.loaded a rd n v).strand a).loads = (s.strand a).loads := by
  rw [State.strand_loaded, Strand.loads_setBoard, Strand.loads_setG]

theorem State.busy_loaded (h : (s.strand a).busy rd = false) : ((s.loaded a rd n v).strand a).busy rd = false := by
  rw [State.strand_loaded]
  exact Strand.busy_setBoard_self ((Strand.busy_setG ..).trans h)

end

/-- A load that hits is served in the step that starts it. -/
theorem State.startLoad_hit {s : State} {a : At} {rd : BitVec 5} {n : Nat} {signed : Bool} {p : LoadPart} (hp : p.Cached) (hs : s.Idle)
    (hin : (s.tile a.t).present p.addr p.len = true)
    (hok : (s.tile a.t).hurt p.addr (wordsMet (p.addr % 256) p.len) = false) :
    s.startLoad a (.reg signed) rd n false [p] =
      s.loaded a rd p.addr (loadValue (.reg signed) n ((s.tile a.t).readLine p.addr p.len)) := by
  have seqOnly (b : At) : ∃ k, (s.updStrand a fun r => { r with seq := r.seq + 1 }).strand b = { s.strand b with seq := k } := by
    by_cases hb : b = a
    · exact ⟨_, by rw [hb, State.strand_updStrand]⟩
    · exact ⟨_, State.strand_updStrand_ne _ _ hb⟩
  have hidle : (s.updStrand a fun r => { r with seq := r.seq + 1 }).Idle := by
    constructor <;> intro b <;> obtain ⟨k, hk⟩ := seqOnly b
    · rw [hk]; exact hs.sb b
    · rw [hk]; exact hs.loads b
  have htile : (s.updStrand a fun r => { r with seq := r.seq + 1 }).tile a.t =
      (s.tile a.t).setStrand a.h { s.strand a with seq := (s.strand a).seq + 1 } := State.tile_setTile ..
  have hhit := State.tryPart_hit (ld := s.newLoad a (.reg signed) rd n false [p]) (ctl := none) rfl hp hidle
    (by rw [htile]; exact hin) (by rw [htile]; exact hok)
  rw [State.startLoad_served hhit, htile]
  rfl

/-- Settles O15: the load's one part hits, so that the load is finished in the step that issues it. -/
theorem loadFromTileStore : Obligations.LoadFromTileStore := by
  intro e he a f s l h hp htgt hpol hbs hsb hloads hin hok
  generalize hva : s.getG a f.rs1 + f.imm.signExtend 64 = va at hp
  have hparts : partsOf [(va, e.2.1, l)] = [⟨va, l.addr, e.2.1, l.target, l.policy, l.backstop, .waiting⟩] := by
    simp [partsOf, hpol]
  have hcredit : s.hasCredit a.t false (partsOf [(va, e.2.1, l)]) = true := by
    simp [hparts, State.hasCredit, hpol]
  have hbusy : (s.strand a).busy f.rd = false := by
    have huses := (State.ready_iff.mp h).2.2.2.2
    rw [List.any_cons, Bool.or_eq_false_iff] at huses
    exact huses.1
  have hload := State.startLoad_hit (a := a) (rd := f.rd) (n := e.2.1) (signed := e.2.2)
    (p := ⟨va, l.addr, e.2.1, l.target, l.policy, l.backstop, .waiting⟩) ⟨rfl, htgt, hpol, hbs⟩ ⟨hsb, hloads⟩ hin hok
  have hvalue : loadValue (.reg e.2.2) e.2.1 ((s.tile a.t).readLine l.addr e.2.1) =
      if e.2.2 then sext (8 * e.2.1) (leNat ((s.tile a.t).readLine l.addr e.2.1))
      else word (leNat ((s.tile a.t).readLine l.addr e.2.1)) := by
    cases e.2.2 <;> rfl
  have hexec := (scalarLoads_run e he a f s).trans (scalarLoad_issues h (hva ▸ hp) hcredit)
  rw [hparts, hload, hvalue] at hexec
  exact ⟨_, hexec, fun j => State.getG_loaded .., fun b hb => State.strand_loaded_ne _ _ _ _ _ hb,
    fun u n => congrArg (fun m : Mem => Sparse.getList 0 m.bytes u n) (State.mem_loaded ..),
    (State.loads_loaded ..).trans (hloads a), State.busy_loaded _ _ _ _ _ hbusy⟩

/-! ### Strand control, events and returns -/

/-- Settles O19: each command is one update of its strand, decided by whether the strand runs or is halted. -/
theorem strandControlCommands : Obligations.StrandControlCommands := by
  intro a v s r
  refine ⟨fun hr => ?_, fun hq hh hb => ?_, fun hu hr => ?_, fun hr => ?_, fun hr => ?_, rfl, rfl⟩
  · exact congrArg (fun q => Host.Outcome.next (s.setStrand a q)) (if_pos hr)
  · refine congrArg (fun t : State => Host.Outcome.next t.settleHalts) ?_
    unfold State.takeHalt
    dsimp only
    rw [if_neg (by rw [show (s.strand a).haltReq = true from hq]; decide), show (s.strand a).hold = none from hh]
    exact if_pos hb
  · refine congrArg (fun x => Host.Outcome.next (s.setTile a.t x)) ?_
    have hrel : (s.tile a.t).release a.h = (s.tile a.t).updStrand a.h Strand.start := if_pos hu
    exact hrel.trans (congrArg ((s.tile a.t).setStrand a.h) (if_pos hr))
  · exact congrArg (fun q => Host.Outcome.next (s.setStrand a q)) (if_pos hr)
  · exact congrArg (fun q => Host.Outcome.next (s.setStrand a q)) (if_neg hr)

/-- Settles O21: nothing else is taken at the boundary, and the lowest enabled pending line is found first. -/
theorem eventEntryTaken : Obligations.EventEntryTaken := by
  intro a s i r hrun hhold hb hhalt hrecur hlate hhush hbs hread hboard hi hline hlower
  have hfind : (List.range 32).find? (fun j => r.event.getLsbD j) = some i := by
    rw [List.find?_range_eq_some]
    exact ⟨hline, by simpa using hi, fun j hj => by simp [hlower j hj]⟩
  have hclear : r.frameClear [] = true := by
    rw [Strand.frameClear, List.all_eq_true]
    intro g hg
    simp [hboard g hg]
  refine congrArg Host.Outcome.next ?_
  change (if (r.run ≠ .running || r.hold.isSome || !r.atBoundary || r.haltReq) = true then s else _) = _
  rw [if_neg (by simp [hrun, hhold, hb, hhalt]), hrecur, hlate]
  dsimp only
  rw [if_pos (by rw [show (s.strand a).status.hush = false from hhush, show (s.strand a).status.bs = false from hbs]; rfl)]
  unfold State.takeEvent
  dsimp only
  rw [show (List.range 32).find? (fun j => (s.strand a).event.getLsbD j) = some i from hfind]
  dsimp only
  exact if_neg (by simp [show (s.strand a).frameClear [] = true from hclear, show (s.strand a).readback = false from hread])

/-- Settles O24: by bs, and by the newest entry frame and the checks of the exception frame. -/
theorem exceptionReturnIssues : Obligations.ExceptionReturnIssues := by
  intro a f s h hd h1 h2
  have hz : ∀ i ∈ [f.rd, f.rs1, f.rs2], i = 0 := by simp [hd, h1, h2]
  refine ⟨fun hbs hsb => sysCtl_go hz h ?_, fun fr ps hbs hread hfr hexc hdepth hps => sysCtl_go hz h ?_,
    fun fr hbs hread hfr hexc => sysCtl_fault hz h ?_⟩
  · dsimp only
    rw [if_pos hbs, hsb]
    rfl
  · obtain ⟨older, hframes⟩ := List.head?_eq_some_iff.mp hfr
    dsimp only
    rw [if_neg (by simp [hbs]), if_neg (by simp [hread]), hframes]
    dsimp only
    rw [if_neg (by rw [hexc, decide_eq_false hdepth]; decide), hps]
  · obtain ⟨older, hframes⟩ := List.head?_eq_some_iff.mp hfr
    dsimp only
    rw [if_neg (by simp [hbs]), if_neg (by simp [hread]), hframes]
    dsimp only
    rw [if_pos (by simp [hexc])]

/-! ### Atomics -/

/-- The encoding of an amo is legal (09 R249, Table 09-7). -/
def amoLegal (code : Nat) (v : Word) : Prop := code < 256 ∧ amoOk code = true ∧ (10 ≤ code / 16 → v.toNat % 8 ≤ 4)

theorem amoLegal_iff {code : Nat} {v : Word} :
    amoLegal code v ↔ (decide (code ≥ 256) || !amoOk code || (decide (code / 16 ≥ 10) && decide (v.toNat % 8 > 4))) = false := by
  simp only [amoLegal, Bool.or_eq_false_iff, Bool.and_eq_false_iff, decide_eq_false_iff_not, Bool.not_eq_false', not_le, not_lt, and_assoc]
  refine and_congr_right fun _ => and_congr_right fun _ => ?_
  omega

section
variable {a : At} {f : RF} {fn : BitVec 11} {s : State} (h : s.ready a 4 true [f.rd, f.rs1, f.rs2] = true)
include h

theorem amo_illegal (hok : ¬ amoLegal fn.toNat (s.getG a f.rs2)) :
    exec (.amo a f fn) s = .next (s.raise a cIllegal 0 0 (s.strand a).pc) :=
  State.issue32_illegal h (if_pos (eq_true_of_ne_false (mt amoLegal_iff.mpr hok)))

variable (hok : amoLegal fn.toNat (s.getG a f.rs2))
include hok

theorem amo_unaligned (hal : (s.getG a f.rs1).toNat % amoSize fn.toNat ≠ 0) :
    exec (.amo a f fn) s = .next (s.raise a cAlign 0 0 (s.getG a f.rs1)) := by
  refine congrArg Host.Outcome.next (State.issue_fault h ?_)
  exact (if_neg (ne_true_of_eq_false (amoLegal_iff.mp hok))).trans (if_pos hal)

variable {l : Xlate} (hal : (s.getG a f.rs1).toNat % amoSize fn.toNat = 0)
  (hl : s.check a.t (s.auth a) .atomic (s.getG a f.rs1).toNat (amoSize fn.toNat) true = .ok l)
include hal hl

theorem amo_waits (hc : s.hasCredit a.t true [⟨s.getG a f.rs1, l.addr, amoSize fn.toNat, l.target, l.policy, l.backstop, .waiting⟩] = false) :
    exec (.amo a f fn) s = .next s := by
  refine congrArg Host.Outcome.next (State.issue_wait h ?_)
  refine (if_neg (ne_true_of_eq_false (amoLegal_iff.mp hok))).trans ((if_neg (not_not.mpr hal)).trans ?_)
  rw [show s.check a.t (s.auth a) .atomic ((s.strand a).g f.rs1).toNat (amoSize fn.toNat) true = .ok l from hl]
  exact if_pos (by rw [Bool.not_eq_true']; exact hc)

theorem amo_issues (hc : s.hasCredit a.t true [⟨s.getG a f.rs1, l.addr, amoSize fn.toNat, l.target, l.policy, l.backstop, .waiting⟩] = true) :
    exec (.amo a f fn) s = .next (((if fn.toNat ∈ [0x17, 0x18, 0x19] then s.spoilReplay a 1 else s).startLoad a
      (.amo fn.toNat (s.getG a f.rs2) (s.getG a f.rd)) f.rd (widthOf (fn.toNat % 16) / 8) false
      [⟨s.getG a f.rs1, l.addr, amoSize fn.toNat, l.target, l.policy, l.backstop, .waiting⟩]).completed a 4) := by
  refine congrArg Host.Outcome.next (State.issue_done h ?_)
  refine (if_neg (ne_true_of_eq_false (amoLegal_iff.mp hok))).trans ((if_neg (not_not.mpr hal)).trans ?_)
  rw [show s.check a.t (s.auth a) .atomic ((s.strand a).g f.rs1).toNat (amoSize fn.toNat) true = .ok l from hl]
  refine (if_neg (by rw [Bool.not_eq_true', Bool.not_eq_false]; exact hc)).trans ?_
  simp only [List.contains_iff_mem]
  rfl

end

/-- Settles O31: by the encoding, the alignment, the check of the access, and the credit. -/
theorem atomicIssues : Obligations.AtomicIssues := fun _ _ _ _ h =>
  ⟨amo_illegal h, amo_unaligned h, fun _ hok hal hl => ⟨amo_issues h hok hal hl, amo_waits h hok hal hl⟩⟩

end Sys2Proof.Machine
end

section
/-! Fields of a warrant; warrant moves, narrowings, loads and stores (03 R64 to R66). -/

namespace Sys2Proof.Machine

/-! ### Fields of a warrant -/

theorem testBit_setBits (n lo w v i : Nat) :
    (setBits n lo w v).testBit i = if lo ≤ i ∧ i < lo + w then v.testBit (i - lo) else n.testBit i := by
  have hshape : setBits n lo w v = 2 ^ lo * (2 ^ w * (n / 2 ^ (lo + w)) + v % 2 ^ w) + n % 2 ^ lo := by
    unfold setBits
    rw [pow_add]
    ring
  have hlow : n % 2 ^ lo < 2 ^ lo := Nat.mod_lt _ (by positivity)
  have hmid : v % 2 ^ w < 2 ^ w := Nat.mod_lt _ (by positivity)
  rw [hshape, Nat.testBit_two_pow_mul_add _ hlow, Nat.testBit_two_pow_mul_add _ hmid]
  by_cases h1 : i < lo
  · rw [if_pos h1, if_neg (by omega), Nat.testBit_mod_two_pow]
    simp [h1]
  · rw [if_neg h1]
    by_cases h2 : i < lo + w
    · rw [if_pos (by omega), if_pos (by omega), Nat.testBit_mod_two_pow]
      simp [show i - lo < w by omega]
    · rw [if_neg (by omega), if_neg (by omega), Nat.testBit_div_two_pow, show i - lo - w + (lo + w) = i by omega]

theorem Warrant.getLsbD_with (w : Warrant) (lo n v : Nat) {i : Nat} (hi : i < 128) :
    (w.with lo n v).getLsbD i = if lo ≤ i ∧ i < lo + n then v.testBit (i - lo) else w.getLsbD i := by
  rw [Warrant.with, BitVec.getLsbD_ofNat, decide_eq_true hi, Bool.true_and, testBit_setBits]
  rfl

theorem testBit_bitsOf (n lo w i : Nat) : (bitsOf n lo w).testBit i = (decide (i < w) && n.testBit (i + lo)) := by
  rw [bitsOf, Nat.testBit_mod_two_pow, Nat.testBit_div_two_pow]

/-- wright keeps of the header's rights those that the register has (03 R65). -/
theorem Warrant.with_rights (w : Warrant) (x : Word) :
    w.with 24 8 (w.field 24 8 &&& bitsOf x.toNat 24 8) = w &&& (x.setWidth 128 ||| ~~~ (0xFF000000 : BitVec 128)) := by
  refine BitVec.eq_of_getLsbD_eq fun i hi => ?_
  rw [Warrant.getLsbD_with _ _ _ _ hi, BitVec.getLsbD_and, BitVec.getLsbD_or, BitVec.getLsbD_not, BitVec.getLsbD_setWidth]
  have hmask : (0xFF000000 : BitVec 128).getLsbD i = decide (24 ≤ i ∧ i < 24 + 8) := by
    rw [show (0xFF000000 : BitVec 128) = (0 : Warrant).with 24 8 (2 ^ 8 - 1) by decide, Warrant.getLsbD_with _ _ _ _ hi,
      Nat.testBit_two_pow_sub_one]
    by_cases h : 24 ≤ i ∧ i < 24 + 8
    · rw [if_pos h, decide_eq_true h]
      exact decide_eq_true (by omega)
    · rw [if_neg h, decide_eq_false h]
      exact BitVec.getLsbD_zero
  rw [hmask, decide_eq_true hi]
  by_cases h : 24 ≤ i ∧ i < 24 + 8
  · rw [if_pos h, Nat.testBit_and, Warrant.field, testBit_bitsOf, testBit_bitsOf, Nat.sub_add_cancel h.1, decide_eq_true h,
      decide_eq_true (show i - 24 < 8 by omega)]
    simp only [Bool.true_and, Bool.not_true, Bool.or_false]
    rfl
  · rw [if_neg h, decide_eq_false h]
    simp

theorem word_field_low (w : Warrant) : word (w.field 0 64) = w.setWidth 64 := by
  refine BitVec.eq_of_toNat_eq ?_
  rw [word, Warrant.field, bitsOf, BitVec.toNat_ofNat, BitVec.toNat_setWidth, pow_zero, Nat.div_one, Nat.mod_mod]

theorem word_field_high (w : Warrant) : word (w.field 64 64) = (w >>> 64).setWidth 64 := by
  refine BitVec.eq_of_toNat_eq ?_
  rw [word, Warrant.field, bitsOf, BitVec.toNat_ofNat, BitVec.toNat_setWidth, BitVec.toNat_ushiftRight, Nat.shiftRight_eq_div_pow, Nat.mod_mod]

/-! ### Warrant moves and narrowings -/

section
variable {s : State} {a : At} {i : BitVec 5} {w : Warrant}

theorem State.mayWriteW_iff : s.mayWriteW a i = true ↔
    wregOk i = true ∧ (∃ v, (s.tile a.t).seen (s.strand a) i.toNat = some v) ∧ (s.strand a).status.bs = false := by
  simp only [State.mayWriteW, Bool.and_eq_true, Option.isSome_iff_exists, Bool.not_eq_true', and_assoc]

theorem State.target_of_mayWriteW (h : s.mayWriteW a i = true) (k : Act) : s.target a i k = k := by
  obtain ⟨hi, ⟨v, hv⟩, hbs⟩ := State.mayWriteW_iff.mp h
  unfold State.target
  rw [State.source_of_seen hi hv, hbs]
  rfl

theorem Warrant.kind_of_valid {q floor : Nat} (h : w.valid q floor = true) : w.kind ∈ anyKind := by
  simp only [Warrant.valid, Bool.and_eq_true, decide_eq_true_eq] at h
  obtain ⟨⟨⟨⟨h1, h6⟩, -⟩, -⟩, -⟩ := h
  generalize w.kind = k at h1 h6
  interval_cases k <;> decide

theorem State.kind_of_holdsWarrant (h : s.holdsWarrant a i w = true) : w.kind ∈ anyKind := by
  obtain ⟨-, -, hok⟩ := State.holdsWarrant_iff.mp h
  exact Warrant.kind_of_valid (Bool.and_eq_true_iff.mp hok).2

/-- A valid warrant of a right kind passes where no header bit is asked for. -/
theorem State.needs_of_kind {kinds : List Nat} (h : s.holdsWarrant a i w = true) (hk : w.kind ∈ kinds) (k : Warrant → Act) :
    s.needs a i kinds none k = k w := by
  obtain ⟨hi, hseen, hok⟩ := State.holdsWarrant_iff.mp h
  unfold State.needs
  rw [State.source_of_seen hi hseen]
  simp [hk, hok]

theorem State.needs_of_missing_bit {kinds : List Nat} {b : Nat} (h : s.holdsWarrant a i w = true) (hk : w.kind ∈ kinds) (hb : w.bit b = false)
    (k : Warrant → Act) : s.needs a i kinds (some b) k = wfault i 3 := by
  obtain ⟨hi, hseen, hok⟩ := State.holdsWarrant_iff.mp h
  unfold State.needs
  rw [State.source_of_seen hi hseen]
  simp [hk, hok, hb]

section
variable {kinds : List Nat} {change : Warrant → Except Nat Warrant} (h : s.holdsWarrant a i w = true) (hw : s.mayWriteW a i = true)
  (hk : w.kind ∈ kinds)
include h hw hk

theorem narrow_ok {v : Warrant} (e : change w = .ok v) : narrow kinds change a i s = .done (s.setW a i v) := by
  rw [narrow, State.target_of_mayWriteW hw, State.needs_of_kind h hk, e]

theorem narrow_error {c : Nat} (e : change w = .error c) : narrow kinds change a i s = wfault i c := by
  rw [narrow, State.target_of_mayWriteW hw, State.needs_of_kind h hk, e]

end
end

/-- The low half word of a register, as wlow and qfloor read it. -/
theorem bitsOf_low (n w : Nat) : bitsOf n 0 w = n % 2 ^ w := by
  rw [bitsOf, pow_zero, Nat.div_one]

/-- Settles O26: a source passes its checks, a destination may be written, and the narrowing answers a warrant or the check that failed. -/
theorem warrantMovesAndNarrowings : Obligations.WarrantMovesAndNarrowings := by
  refine ⟨fun a f s => ⟨fun w h h2 hw hd => ⟨fun hb => ?_, fun hb => ?_⟩, fun h h1 h2 hd => ?_, fun w h hi hseen => ?_⟩,
    fun a f s w v hw hd => ⟨fun h h2 => ⟨?_, fun hle hfl => ?_, fun hbad => ?_⟩, fun h => ⟨fun hk e => ?_, fun hk hbad => ?_, fun hk h1 h2 => ?_,
      fun hk h1 h2 => ?_⟩⟩⟩
  · refine sysOp_done (by simp [h2]) h ?_
    rw [State.needs_of_holdsWarrant hw (State.kind_of_holdsWarrant hw) hb, State.target_of_mayWriteW hd]
  · refine sysOp_fault (by simp [h2]) h ?_
    rw [State.needs_of_missing_bit hw (State.kind_of_holdsWarrant hw) hb]
    rfl
  · refine sysOp_done (by simp [h1, h2]) h ?_
    rw [State.target_of_mayWriteW hd]
  · refine ⟨fun h2 => sysOp_result (by simp) h ?_, fun h2 => sysOp_result (by simp) h ?_, fun h2 => sysOp_result (by simp) h ?_,
      fun h2 => ?_⟩
    · rw [if_neg (by rw [h2]; decide), State.source_of_seen hi hseen, if_pos h2, word_field_low]
    · rw [if_neg (by rw [h2]; decide), State.source_of_seen hi hseen, if_neg (by rw [h2]; decide), if_pos h2, word_field_high]
    · rw [if_neg (by rw [h2]; decide), State.source_of_seen hi hseen, if_neg (by rw [h2]; decide), if_neg (by rw [h2]; decide)]
    · exact sysOp_fault (by simp) h (if_pos h2)
  · refine sysOp_done (by simp [h2]) h (narrow_ok hw hd (State.kind_of_holdsWarrant hw) ?_)
    exact congrArg Except.ok (Warrant.with_rights w (s.getG a f.rs1))
  · refine sysOp_done (by simp [h2]) h (narrow_ok hw hd (State.kind_of_holdsWarrant hw) ?_)
    rw [bitsOf_low]
    exact if_neg (by rw [not_or]; exact ⟨Nat.not_lt.mpr hle, Nat.not_lt.mpr hfl⟩)
  · refine sysOp_fault (by simp [h2]) h (narrow_error hw hd (State.kind_of_holdsWarrant hw) ?_)
    rw [bitsOf_low]
    exact if_pos hbad
  · exact sysOp_done (by simp) h (narrow_ok hw hd (by simpa using hk) e)
  · exact sysOp_fault (by simp) h (narrow_error hw hd (by simpa using hk) (if_pos (by
      rcases hbad with hy | hy | hy
      · exact .inl (by rw [show (s.strand a).g f.rs2 = 0 from hy]; rfl)
      · exact .inr (.inl hy)
      · exact .inr (.inr hy))))
  · exact sysOp_done (by simp) h (narrow_ok hw hd (by simpa using hk) (if_neg (by
      rw [not_or]
      exact ⟨Nat.not_lt.mpr h1, Nat.not_lt.mpr h2⟩)))
  · exact sysOp_done (by simp) h (narrow_ok hw hd (by simpa using hk) (if_neg (by
      rw [not_or]
      exact ⟨Nat.not_lt.mpr h1, Nat.not_lt.mpr h2⟩)))

/-! ### Warrants to seal memory and back -/

/-- Settles O28: by the alignment of the address, the check of the access, and the room or the credit that it needs. -/
theorem warrantLoadsAndStores : Obligations.WarrantLoadsAndStores := by
  intro a f s h h2
  have hz : ∀ i ∈ [f.rs2], i = 0 := by simp [h2]
  refine ⟨fun w l hw hb => ⟨fun hal => sysOp_fault hz h ?_, fun hal hl hroom => sysOp_done hz h ?_⟩,
    fun l hd => ⟨fun hal => sysOp_fault hz h ?_, fun hal hl => ⟨fun hc => ?_, fun hc => sysOp_wait hz h ?_⟩⟩⟩
  · rw [State.needs_of_holdsWarrant hw (State.kind_of_holdsWarrant hw) hb]
    exact if_pos hal
  · rw [State.needs_of_holdsWarrant hw (State.kind_of_holdsWarrant hw) hb]
    refine (if_neg (not_not.mpr hal)).trans ?_
    rw [show s.check a.t (s.auth a) .sealStore ((s.strand a).g f.rs1).toNat 16 true = .ok l from hl]
    exact State.enterStore_room _ hroom
  · rw [State.target_of_mayWriteW hd]
    exact if_pos hal
  · refine (sysOp_of_zero hz a [f.rs1] _ s).trans (congrArg Host.Outcome.next (State.issue_go h ?_))
    rw [State.target_of_mayWriteW hd]
    refine (if_neg (not_not.mpr hal)).trans ?_
    rw [show s.check a.t (s.auth a) .sealLoad ((s.strand a).g f.rs1).toNat 16 true = .ok l from hl]
    exact if_pos hc
  · rw [State.target_of_mayWriteW hd]
    refine (if_neg (not_not.mpr hal)).trans ?_
    rw [show s.check a.t (s.auth a) .sealLoad ((s.strand a).g f.rs1).toNat 16 true = .ok l from hl]
    exact if_neg (ne_true_of_eq_false hc)

end Sys2Proof.Machine
end

section
/-! Exception frames and entry frames (03 Tables 03-7, 03-14), the floor and the translation buffer (03 R67, R68, R72). -/

namespace Sys2Proof.Machine

/-! ### Exception frames and entry frames -/

/-- Word `i` of a frame. -/
def frameWord (bs : List Byte) (i : Nat) : Word := word (leNat ((bs.drop (8 * i)).take 8))

/-- The sixteen words of an exception frame (03 Table 03-14). -/
def Strand.frameWords (r : Strand) (pc cause addr : Word) : List Word :=
  [pc, r.status.word, cause, addr, r.lstart, r.lend, r.lcount, r.vresume.setWidth 64] ++ frameRegs.map r.g

theorem frameWord_frameBytes (r : Strand) (pc cause addr : Word) (i : Nat) :
    frameWord (frameBytes r pc cause addr) i = (r.frameWords pc cause addr).getD i 0 := by
  have hbytes : frameBytes r pc cause addr = ((r.frameWords pc cause addr).map BitVec.toNat).flatMap (leBytes 8) := by
    rw [List.flatMap_map]
    rfl
  rw [frameWord, hbytes, leNat_word, List.getD_eq_getElem?_getD, List.getElem?_map, List.getD_eq_getElem?_getD]
  cases (r.frameWords pc cause addr)[i]? with
  | none => rfl
  | some v => exact BitVec.eq_of_toNat_eq (by simpa [word] using v.isLt)

theorem length_frameBytes (r : Strand) (pc cause addr : Word) : (frameBytes r pc cause addr).length = 128 := by
  simp [frameBytes, frameRegs]

theorem Strand.setG_eq (r : Strand) (i : BitVec 5) (v : Word) : r.setG i v = { r with regs := (r.setG i v).regs } := by
  unfold Strand.setG
  split <;> rfl

/-- The registers of a frame are written back. -/
def Strand.setFrameRegs (r : Strand) (w : Nat → Word) : Strand := frameRegs.zipIdx.foldl (fun r (g, i) => r.setG g (w (8 + i))) r

theorem Strand.foldl_setG_eq (w : Nat → Word) (l : List (BitVec 5 × Nat)) (r : Strand) :
    l.foldl (fun r (g, i) => r.setG g (w (8 + i))) r = { r with regs := (l.foldl (fun r (g, i) => r.setG g (w (8 + i))) r).regs } := by
  induction l generalizing r with
  | nil => rfl
  | cons e l ih =>
    obtain ⟨g, i⟩ := e
    rw [List.foldl_cons, ih]
    dsimp only
    rw [Strand.setG_eq]

theorem Strand.g_setFrameRegs (r : Strand) (w : Nat → Word) (j : BitVec 5) : (r.setFrameRegs w).g j =
    if j = 9 then w 15 else if j = 8 then w 14 else if j = 7 then w 13 else if j = 6 then w 12 else if j = 5 then w 11
    else if j = 4 then w 10 else if j = 3 then w 9 else if j = 1 then w 8 else r.g j := by
  simp [Strand.setFrameRegs, frameRegs, List.zipIdx, Strand.g_setG]

/-- What the return restores, word by word (03 R84). -/
theorem Strand.restore_eq (r : Strand) (bs : List Byte) : r.restore bs =
    { r with
      regs := (r.setFrameRegs (frameWord bs)).regs
      pc := frameWord bs 0, slot := none, lineBuf := none, lineNext := none, lstart := frameWord bs 4, lend := frameWord bs 5,
      lcount := frameWord bs 6, vresume := (frameWord bs 7).setWidth 16,
      status := { r.status with
        hush := (frameWord bs 1).getLsbD 0, precise := (frameWord bs 1).getLsbD 1, loop := (frameWord bs 1).extractLsb' 2 2,
        aten := (frameWord bs 1).extractLsb' 11 5 } } := by
  have h : r.setFrameRegs (frameWord bs) = { r with regs := (r.setFrameRegs (frameWord bs)).regs } := Strand.foldl_setG_eq ..
  change ({ r.setFrameRegs (frameWord bs) with
      pc := frameWord bs 0, slot := none, lineBuf := none, lineNext := none, lstart := frameWord bs 4, lend := frameWord bs 5,
      lcount := frameWord bs 6, vresume := (frameWord bs 7).setWidth 16,
      status := { (r.setFrameRegs (frameWord bs)).status with
        hush := (frameWord bs 1).getLsbD 0, precise := (frameWord bs 1).getLsbD 1, loop := (frameWord bs 1).extractLsb' 2 2,
        aten := (frameWord bs 1).extractLsb' 11 5 } } : Strand) = _
  rw [h]

theorem Strand.g_restore (r : Strand) (bs : List Byte) (j : BitVec 5) : (r.restore bs).g j = (r.setFrameRegs (frameWord bs)).g j := by
  rw [Strand.restore_eq]
  rfl

theorem EntryFrame.length_bytes (f : EntryFrame) : f.bytes.length = 64 := by
  simp [EntryFrame.bytes]

/-- The second word of a spilled entry frame: the return address, the visibility, and the mark of an exception (03 Table 03-7). -/
theorem EntryFrame.ofBytes_bytes (f : EntryFrame) : EntryFrame.ofBytes f.bytes = f := by
  obtain ⟨w15, ret, vis, exc⟩ := f
  have hw := w15.isLt
  have hret := ret.isLt
  have hvis := vis.isLt
  have hexc := natOf_lt exc
  have hfirst : leNat (EntryFrame.bytes ⟨w15, ret, vis, exc⟩ |>.take 16) = w15.toNat := by
    unfold EntryFrame.bytes
    rw [List.append_assoc, List.take_append_of_le_length (by simp), List.take_of_length_le (by simp), leNat_leBytes]
    dsimp only
    omega
  have hsecond : leNat ((EntryFrame.bytes ⟨w15, ret, vis, exc⟩ |>.drop 16).take 8) =
      ret.toNat + 2 ^ 48 * vis.toNat + 2 ^ 63 * natOf exc := by
    unfold EntryFrame.bytes
    rw [List.append_assoc, List.drop_append, List.drop_of_length_le (by simp), List.nil_append, length_leBytes, Nat.sub_self,
      List.drop_zero, List.take_append_of_le_length (by simp), List.take_of_length_le (by simp), leNat_leBytes]
    dsimp only
    omega
  unfold EntryFrame.ofBytes
  rw [hfirst, hsecond]
  simp only [EntryFrame.mk.injEq]
  refine ⟨BitVec.eq_of_toNat_eq ?_, BitVec.eq_of_toNat_eq ?_, BitVec.eq_of_toNat_eq ?_, bitOf_field ?_⟩
  · rw [BitVec.toNat_ofNat]; omega
  · rw [BitVec.toNat_ofNat]; omega
  · rw [BitVec.toNat_ofNat]; omega
  · omega

/-- Settles O25: each word of the frame that the return reads is the word that the entry wrote, and the slot of an entry frame spells it. -/
theorem frameRoundTrip : Obligations.FrameRoundTrip := by
  refine ⟨fun r q pc cause addr => ?_, fun f => ⟨EntryFrame.length_bytes f, EntryFrame.ofBytes_bytes f⟩, fun a s h => ?_⟩
  · obtain ⟨hhush, hprecise, hloop, -, -, -, haten, -⟩ := r.status.word_fields
    have hw := frameWord_frameBytes r pc cause addr
    have hst : frameWord (frameBytes r pc cause addr) 1 = r.status.word := hw 1
    have hg (j : BitVec 5) : (q.restore (frameBytes r pc cause addr)).g j =
        if j = 9 then r.g 9 else if j = 8 then r.g 8 else if j = 7 then r.g 7 else if j = 6 then r.g 6 else if j = 5 then r.g 5
        else if j = 4 then r.g 4 else if j = 3 then r.g 3 else if j = 1 then r.g 1 else q.g j := by
      rw [Strand.g_restore, Strand.g_setFrameRegs, hw, hw, hw, hw, hw, hw, hw, hw]
      rfl
    refine ⟨?_, ?_, ?_, ?_, ?_, ?_, fun g hmem => ?_, fun g hmem => ?_, ?_, ?_, ?_⟩
    case refine_7 =>
      rw [hg]
      simp only [frameRegs, List.mem_cons, List.not_mem_nil, or_false] at hmem
      rcases hmem with rfl | rfl | rfl | rfl | rfl | rfl | rfl | rfl <;> rfl
    case refine_8 =>
      rw [hg]
      simp only [frameRegs, List.mem_cons, List.not_mem_nil, or_false, not_or] at hmem
      obtain ⟨h1, h3, h4, h5, h6, h7, h8, h9⟩ := hmem
      rw [if_neg h9, if_neg h8, if_neg h7, if_neg h6, if_neg h5, if_neg h4, if_neg h3, if_neg h1]
    all_goals rw [Strand.restore_eq]
    · exact hw 0
    · exact hw 4
    · exact hw 5
    · exact hw 6
    · dsimp only
      rw [show frameWord (frameBytes r pc cause addr) 7 = r.vresume.setWidth 64 from hw 7]
      simp
    · dsimp only
      rw [hst, hhush, hprecise, hloop, haten]
  · exact if_neg (show ¬ (!(s.strand a).readback) = true by rw [h]; decide)

/-! ### The floor and the translation buffer -/

theorem State.floor_updStrand (s : State) (a : At) (f : Strand → Strand) (u : TileId) :
    ((s.updStrand a f).tile u).floor = (s.tile u).floor := by
  by_cases hu : u = a.t
  · rw [hu, State.updStrand, State.setStrand, State.tile_setTile]
    rfl
  · rw [State.updStrand, State.setStrand, State.tile_setTile_ne _ _ hu]

/-- The floor of a tile does not fall, and becomes at least `v` (03 R67, R68). -/
def Tile.raiseFloor (v : BitVec 16) (x : Tile) : Tile := if x.floor.toNat < v.toNat then { x with floor := v } else x

theorem Tile.floor_raiseFloor (v : BitVec 16) (x : Tile) : (x.raiseFloor v).floor.toNat = max x.floor.toNat v.toNat := by
  unfold Tile.raiseFloor
  split
  · dsimp only
    omega
  · omega

/-- The floors after a fold that raises those of a list of tiles. -/
theorem State.floor_foldl_raiseFloor (v : BitVec 16) (ts : List TileId) (s : State) (u : TileId) :
    ((ts.foldl (fun s t => s.updTile t (Tile.raiseFloor v)) s).tile u).floor.toNat =
      if u ∈ ts then max (s.tile u).floor.toNat v.toNat else (s.tile u).floor.toNat := by
  induction ts generalizing s with
  | nil => rfl
  | cons t ts ih =>
    rw [List.foldl_cons, ih]
    by_cases hut : u = t
    · subst hut
      rw [State.tile_updTile, Tile.floor_raiseFloor]
      simp
    · rw [State.tile_updTile_ne _ _ hut]
      simp [hut]

section
variable {a : At} {f : RF} {s : State} {w : Warrant} (h : s.ready a 4 true [f.rs1] = true) (h2 : f.rs2 = 0)
  (hw : s.holdsWarrant a f.rd w = true) (hk : w.kind = 6) (hb : w.bit 24 = true)
include h h2 hw hk hb

theorem qfloor_holds (hf : (s.tile a.t).floor.toNat < (s.getG a f.rs1).toNat % 2 ^ 16) (he : (s.getG a f.rs1).toNat % 2 ^ 16 ≤ w.epoch) :
    exec (.qfloor a f) s = .next ((s.updStrand a fun r =>
      { r with hold := some (.quireFloor (BitVec.ofNat 16 ((s.getG a f.rs1).toNat % 2 ^ 16))) }).completed a 4) := by
  refine sysOp_done (by simp [h2]) h ?_
  rw [State.needs_of_holdsWarrant hw (by simp [hk]) hb, bitsOf_low]
  exact if_neg (by rw [not_or]; exact ⟨Nat.not_le.mpr hf, Nat.not_lt.mpr he⟩)

theorem qfloor_faults (hbad : (s.getG a f.rs1).toNat % 2 ^ 16 ≤ (s.tile a.t).floor.toNat ∨ w.epoch < (s.getG a f.rs1).toNat % 2 ^ 16) :
    exec (.qfloor a f) s = .next (s.raise a cWarrant 5 f.rd.toNat 0) := by
  refine sysOp_fault (by simp [h2]) h ?_
  rw [State.needs_of_holdsWarrant hw (by simp [hk]) hb, bitsOf_low]
  exact if_pos hbad

end

/-- What tlbinv leaves of the walks: one of an invalidated page starts again from the root, unless it had failed (03 R72). -/
theorem Tile.walks_invalidate {x : Tile} {p : Nat → Nat → Bool} {w : Walk} (hw : w ∈ (x.invalidate p).walks) (hp : p w.page 1 = true) :
    w.failed = none ∧ w.level = 1 ∧ w.wait = none ∧ w.table = rootOf x := by
  obtain ⟨v, -, hv⟩ := List.mem_filterMap.mp hw
  split at hv
  · next hnot =>
    obtain rfl := Option.some.inj hv
    rw [hp] at hnot
    exact absurd hnot (by decide)
  · split at hv
    · exact absurd hv (by simp)
    · next hfail =>
      obtain rfl := Option.some.inj hv
      exact ⟨by simpa using hfail, rfl, rfl, rfl⟩

/-- Settles O30: qfloor by the floor and the warrant's epoch; the fold over the quire's tiles raises each floor; and the buffer is filtered. -/
theorem floorAndTranslation : Obligations.FloorAndTranslation := by
  intro a f s
  refine ⟨fun w h h2 hw hk hb => ⟨qfloor_holds h h2 hw hk hb, qfloor_faults h h2 hw hk hb⟩, fun v hv => ?_, fun h hd h2 => ?_,
    fun h hd h1 h2 => ?_⟩
  · have hexec : exec (.qfloorApplied a) s = .next (((s.tilesOf (s.tile a.t).quire.toNat).foldl
        (fun s t => s.updTile t (Tile.raiseFloor v)) s).updStrand a fun r => { r with hold := none }) := by
      change execQfloorApplied a s = _
      unfold execQfloorApplied
      rw [hv]
      rfl
    have hfloor (u : TileId) := State.floor_foldl_raiseFloor v (s.tilesOf (s.tile a.t).quire.toNat) s u
    refine ⟨_, hexec, by rw [State.strand_updStrand], fun u => ?_, fun u hu => ?_, fun u hu => BitVec.eq_of_toNat_eq ?_⟩
    all_goals rw [State.floor_updStrand, hfloor u]
    · split
      · exact Nat.le_max_left ..
      · exact le_rfl
    · rw [if_pos hu]
      exact Nat.le_max_right ..
    · rw [if_neg hu]
  · refine ⟨_, sysOp_done (by simp [hd, h2]) h rfl, rfl, fun w hw hp => Tile.walks_invalidate hw ?_⟩
    simp [hp, State.getG]
  · refine ⟨_, sysOp_done (by simp [hd, h1, h2]) h rfl, ?_, fun w hw => Tile.walks_invalidate hw rfl⟩
    simp [Tile.invalidate]

end Sys2Proof.Machine
end

section
/-! What reports, requests and the tile store leave of every strand. -/

namespace Sys2Proof.Machine

/-! ### What may change of a strand beside its own instructions -/

/-- `q` is `r` but for pending lines, the wake from park, and the first failed address of line 4. -/
def Strand.Notified (r q : Strand) : Prop := q = { r with run := q.run, evtPend := q.evtPend, line4 := q.line4 }

theorem Strand.Notified.refl (r : Strand) : r.Notified r := rfl

theorem Strand.Notified.trans {r q p : Strand} (h : r.Notified q) (k : q.Notified p) : r.Notified p :=
  Eq.trans k (congrArg (fun x : Strand => { x with run := p.run, evtPend := p.evtPend, line4 := p.line4 }) h)

theorem Strand.notified_pend (r : Strand) (lines : BitVec 32) : r.Notified (r.pend lines) := by
  unfold Strand.pend
  rw [Strand.wake_eq]
  rfl

theorem Strand.notified_raiseLine4 (r : Strand) (va : Word) : r.Notified (raiseLine4 r va) :=
  (r.notified_pend 0x10).trans rfl

/-- Every strand of a tile is as it was, but for what it is notified of. -/
structure Tile.Calm (x y : Tile) : Prop where
  strand : ∀ h, (x.strand h).Notified (y.strand h)

theorem Tile.calm_of_strands {x y : Tile} (h : y.strands = x.strands) : x.Calm y where
  strand k := by
    unfold Tile.strand
    rw [h]
    rfl

theorem Tile.Calm.refl (x : Tile) : x.Calm x := ⟨fun _ => Strand.Notified.refl _⟩

theorem Tile.Calm.trans {x y z : Tile} (h : x.Calm y) (k : y.Calm z) : x.Calm z := ⟨fun i => (h.strand i).trans (k.strand i)⟩

theorem Tile.calm_updStrand {x : Tile} {h : StrandId} {f : Strand → Strand} (hf : (x.strand h).Notified (f (x.strand h))) :
    x.Calm (x.updStrand h f) where
  strand k := by
    unfold Tile.updStrand
    by_cases hk : k = h
    · subst hk
      rw [Tile.strand_setStrand]
      exact hf
    · rw [Tile.strand_setStrand_ne _ _ hk]
      exact Strand.Notified.refl _

/-- The same for every tile. -/
structure State.Calm (s t : State) : Prop where
  tile : ∀ u, (s.tile u).Calm (t.tile u)

theorem State.Calm.strand {s t : State} (h : s.Calm t) (a : At) : (s.strand a).Notified (t.strand a) := (h.tile a.t).strand a.h

namespace State.Calm

theorem of_tiles {s t : State} (h : t.tiles = s.tiles) : s.Calm t where
  tile u := by
    unfold State.tile
    rw [h]
    exact Tile.Calm.refl _

theorem refl (s : State) : s.Calm s := of_tiles rfl

theorem trans {s t u : State} (h : s.Calm t) (k : t.Calm u) : s.Calm u := ⟨fun i => (h.tile i).trans (k.tile i)⟩

theorem setTile {s : State} {t : TileId} {x : Tile} (h : (s.tile t).Calm x) : s.Calm (s.setTile t x) where
  tile u := by
    by_cases hu : u = t
    · subst hu
      rw [State.tile_setTile]
      exact h
    · rw [State.tile_setTile_ne _ _ hu]
      exact Tile.Calm.refl _

/-- A change of a tile that leaves its strands. -/
theorem updTile {s : State} {t : TileId} {f : Tile → Tile} (h : ∀ x, (f x).strands = x.strands) : s.Calm (s.updTile t f) :=
  setTile (Tile.calm_of_strands (h _))

theorem foldl {α : Type} {f : State → α → State} (h : ∀ (s : State) (x : α), s.Calm (f s x)) (l : List α) (s : State) : s.Calm (l.foldl f s) := by
  induction l generalizing s with
  | nil => exact refl s
  | cons x l ih => exact (h s x).trans (ih _)

end State.Calm

/-! ### Reports leave the tiles -/

theorem State.tiles_foldl {α : Type} {f : State → α → State} (h : ∀ (s : State) (x : α), (f s x).tiles = s.tiles) (l : List α) (s : State) :
    (l.foldl f s).tiles = s.tiles := by
  induction l generalizing s with
  | nil => rfl
  | cons x l ih => exact (ih _).trans (h s x)

@[simp] theorem State.tiles_sendNotice (s : State) (n : Notice) (b : Sub) : (s.sendNotice n b).tiles = s.tiles := by
  unfold State.sendNotice
  split
  · rfl
  · split <;> rfl

@[simp] theorem State.tiles_deliver (s : State) (n : Notice) : (s.deliver n).tiles = s.tiles := by
  unfold State.deliver
  dsimp only
  generalize (if n.cls = 2 then _ else n) = m
  have sent := State.tiles_foldl (f := fun s b => s.sendNotice m b) (fun s b => State.tiles_sendNotice s m b)
    (s.net.subs.filter fun b => s.takes b m) s
  split
  · exact sent
  · exact sent

@[simp] theorem State.tiles_exportNow (s : State) : s.exportNow.tiles = s.tiles := by
  unfold State.exportNow
  split
  · rfl
  · exact State.tiles_foldl State.tiles_deliver _ _

@[simp] theorem State.tiles_notify (s : State) (n : Notice) : (s.notify n).tiles = s.tiles := by
  unfold State.notify
  split
  · exact State.tiles_exportNow _
  · rfl

@[simp] theorem State.tiles_log (s : State) (k : AlarmKind) (n : Nat) : (s.log k n).tiles = s.tiles := by
  unfold State.log
  split <;> rfl

@[simp] theorem State.tiles_alarm (s : State) (k : AlarmKind) (n : Nat) : (s.alarm k n).tiles = s.tiles := by
  unfold State.alarm
  split
  · rfl
  · exact (State.tiles_notify ..).trans (State.tiles_log ..)

@[simp] theorem State.strand_alarm (s : State) (k : AlarmKind) (n : Nat) (a : At) : (s.alarm k n).strand a = s.strand a := by
  unfold State.strand State.tile
  rw [State.tiles_alarm]

/-! ### Notices on tiles, and lost regions -/

theorem Tile.calm_post (x : Tile) (kind risk : Nat) (group : Option Nat) : x.Calm (x.post kind risk group) := by
  have step (l : List StrandId) (y : Tile) : y.Calm (l.foldl (fun y h => y.updStrand h fun r => r.pend 2) y) := by
    induction l generalizing y with
    | nil => exact Tile.Calm.refl y
    | cons h l ih => exact (Tile.calm_updStrand (Strand.notified_pend _ 2)).trans (ih _)
  unfold Tile.post
  dsimp only
  refine .trans ?_ (step _ _)
  apply Tile.calm_of_strands
  rfl

theorem State.calm_post (s : State) (q kind : Nat) (group : Option Nat) : s.Calm (s.post q kind group) := by
  unfold State.post
  split
  · exact .refl s
  · exact (State.Calm.foldl (fun s t => State.Calm.setTile (Tile.calm_post ..)) _ _).trans (.of_tiles (State.tiles_notify ..))

theorem State.calm_posts (k : Nat) (l : List Nat) (s : State) : s.Calm (l.foldl (fun s q => s.post q k none) s) :=
  State.Calm.foldl (fun s q => State.calm_post s q k none) l s

theorem State.calm_survive (s : State) (v : Survive) : s.Calm { s with survive := v } := by
  apply State.Calm.of_tiles
  rfl

theorem State.calm_watchRisk (s : State) : s.Calm s.watchRisk := by
  unfold State.watchRisk
  dsimp only
  generalize (decide (96 ≤ s.riskNow) && !s.survive.posted0) = up0
  generalize (decide (192 ≤ s.riskNow) && !s.survive.posted1) = up1
  have first (v : Survive) : s.Calm (if up0 = true then
      ({ s with survive := v } : State).runningQuires.foldl (fun s q => s.post q 0 none) { s with survive := v }
      else { s with survive := v }) := by
    split
    · exact (s.calm_survive v).trans (State.calm_posts 0 _ _)
    · exact s.calm_survive v
  split
  · refine .trans ?_ (.of_tiles (State.tiles_alarm ..))
    refine .trans ?_ (State.calm_posts 1 _ _)
    exact first _
  · exact first _

theorem State.calm_loseRegion (s : State) (i : Nat) : s.Calm (s.loseRegion i) := by
  unfold State.loseRegion
  dsimp only
  split
  · exact .refl s
  · refine State.Calm.trans ?_ (State.calm_post ..)
    refine State.Calm.trans (?_ : s.Calm _) (.of_tiles (State.tiles_alarm ..))
    exact State.Calm.trans (t := { s.setRegion i { s.region i with state := .lost } with lost := s.lost ++ [i], score := _ })
      (.of_tiles rfl) (State.calm_watchRisk _)

/-! ### Requests that leave a tile -/

theorem State.calm_inject (s : State) (t : TileId) (m : StackId) (p : MPacket) : s.Calm (s.inject t m p) := by
  unfold State.inject
  dsimp only
  split
  · exact .setTile (Tile.calm_of_strands rfl)
  · refine .trans (t := s.setTile t { s.tile t with credits := _ }) ?_ (.of_tiles rfl)
    exact .setTile (Tile.calm_of_strands rfl)

theorem State.calm_ask (s : State) (t : TileId) (h : StrandId) (k : AskKind) (va : Word) (n : Nat) (b : Bool) (body : Body) :
    s.Calm (s.ask t h k va n b body).2 := by
  unfold State.ask State.takeTag
  dsimp only
  refine .trans ?_ (State.calm_inject ..)
  refine .trans (t := { s with nextTag := s.nextTag + 1 }) (.of_tiles rfl) ?_
  apply State.Calm.updTile
  intro x
  rfl

theorem Tile.calm_answer (x : Tile) (tag : Nat) (p : MPacket) : x.Calm (x.answer tag p) := by
  unfold Tile.answer
  split
  · exact .refl x
  · dsimp only
    have done : x.Calm { x with asks := x.asks.filter (·.tag ≠ tag) } := Tile.calm_of_strands rfl
    split
    case h_1 | h_2 | h_3 => exact done.trans (Tile.calm_updStrand (Strand.notified_raiseLine4 ..))
    case h_9 => exact Tile.calm_of_strands rfl
    all_goals exact done

theorem State.calm_answerRemote (s : State) (p : SPacket) : s.Calm (s.answerRemote p) := by
  unfold State.answerRemote
  split
  · dsimp only
    split
    · exact .refl s
    · exact .setTile (Tile.calm_answer ..)
  · exact .refl s

theorem State.calm_originate (s : State) (p : SPacket) : s.Calm (s.originate p) := by
  have paid (n : Nat) : s.Calm ((s.count p.squire.toNat 5 n).payEnergy p.squire.toNat (36 * n)) := .of_tiles rfl
  unfold State.originate
  dsimp only
  generalize (if (decide (0x3C ≤ p.type.toNat) || bitOf p.word3.toNat 0) = true then 0 else p.payload.length) = n
  split
  · exact (paid n).trans (State.calm_answerRemote ..)
  · split
    · exact (paid n).trans (.of_tiles rfl)
    · split
      · refine .trans ?_ (State.calm_answerRemote ..)
        refine (paid n).trans ?_
        apply State.Calm.of_tiles
        rfl
      · exact (paid n).trans (.of_tiles rfl)

theorem State.calm_askRemote (s : State) (t : TileId) (h : StrandId) (k : AskKind) (va : Word) (n : Nat) (body : Body) :
    s.Calm (s.askRemote t h k va n body).2 := by
  unfold State.askRemote State.takeTag
  dsimp only
  refine .trans ?_ (State.calm_originate ..)
  refine .trans (t := { s with nextTag := s.nextTag + 1 }) (.of_tiles rfl) ?_
  apply State.Calm.updTile
  intro x
  rfl

theorem State.calm_sendStore (s : State) (t : TileId) (h : StrandId) (k : AskKind) (va : Word) (x : Xlate) (bs : List Byte) :
    s.Calm (s.sendStore t h k va x bs) := by
  unfold State.sendStore
  split
  · exact State.calm_askRemote ..
  · exact State.Calm.foldl (fun s u => State.calm_ask ..) _ _

/-! ### The tile store -/

theorem State.calm_mendLine (s : State) (t : TileId) (k w : Nat) (ws : BitVec 32) : s.Calm (s.mendLine t k w ws) := by
  unfold State.mendLine
  split
  · exact .refl s
  · refine .trans ?_ (State.Calm.foldl (fun s i => ?_) _ _)
    · apply State.Calm.updTile
      intro x
      rfl
    · refine .trans ?_ (State.calm_loseRegion ..)
      apply State.Calm.updTile
      intro x
      rfl

theorem State.calm_mend (s : State) (t : TileId) (n : Nat) (ws : BitVec 32) : s.Calm (s.mend t n ws) := by
  unfold State.mend
  split
  · exact .refl s
  · exact State.calm_mendLine ..

/-- The write-back of one dirty sector of a line (08 R202). -/
def State.askWriteback (s : State) (t : TileId) (who : Option StrandId) (mask : BitVec 4) (l : Line) (i : Nat) : State :=
  if l.dirty.getLsbD i && mask.getLsbD i then
    (s.ask t (who.getD 0) (.writeback who) 0 (l.tag * 256 + 64 * i) l.isSeal
      (.write (l.tag * 256 + 64 * i) (BitVec.allOnes 64) (l.bytesAt (64 * i) 64))).2
  else s

theorem State.calm_askWriteback (s : State) (t : TileId) (who : Option StrandId) (mask : BitVec 4) (l : Line) (i : Nat) :
    s.Calm (s.askWriteback t who mask l i) := by
  unfold State.askWriteback
  split
  · exact State.calm_ask ..
  · exact .refl s

theorem State.calm_cleanLine (s : State) (t : TileId) (k w : Nat) (who : Option StrandId) (mask : BitVec 4) :
    s.Calm (s.cleanLine t k w who mask) := by
  unfold State.cleanLine
  dsimp only
  have sent (u : State) (l : Line) : u.Calm (((List.range 4).foldl (fun s i => s.askWriteback t who mask l i) u).updTile t fun x =>
      x.setLine k w (some { l with dirty := l.dirty &&& ~~~ mask })) := by
    refine .trans (State.Calm.foldl (fun s i => State.calm_askWriteback s t who mask l i) (List.range 4) u) ?_
    apply State.Calm.updTile
    intro x
    rfl
  cases hl : (s.tile t).lineAt k w with
  | none =>
    dsimp only
    rw [hl]
    exact .refl s
  | some l =>
    dsimp only
    have mended := s.calm_mendLine t k w (wordsOf (l.dirty &&& mask))
    split
    · exact mended
    · exact mended.trans (sent _ _)

theorem State.calm_allocLine {s u : State} {t : TileId} {n w : Nat} {b c : Bool} (h : s.allocLine t n b c = some (w, u)) : s.Calm u := by
  unfold State.allocLine at h
  dsimp only at h
  split at h
  · cases h
    exact .updTile fun _ => rfl
  · split at h
    · cases h
      exact .setTile (Tile.calm_of_strands rfl)
    · split at h
      · cases h
      · cases h
        exact State.Calm.trans (State.Calm.trans (t := s.takeFree.2) (.of_tiles rfl) (State.calm_cleanLine ..)) (.updTile fun _ => rfl)

theorem Tile.strands_writeLine (x : Tile) (n : Nat) (bs : List Byte) (d : Bool) : (x.writeLine n bs d).strands = x.strands := by
  unfold Tile.writeLine
  split
  · rfl
  · split <;> rfl

theorem Tile.strands_fillSector (x : Tile) (w n : Nat) (bs : List Byte) (d u : Bool) : (x.fillSector w n bs d u).strands = x.strands := by
  unfold Tile.fillSector
  split <;> rfl

theorem State.calm_sendMerge (s : State) (t : TileId) (e : MergeEntry) : s.Calm (s.sendMerge t e) := by
  unfold State.sendMerge
  dsimp only
  refine .trans ?_ (State.calm_ask ..)
  apply State.Calm.updTile
  intro x
  rfl

theorem State.calm_touch (s : State) (t : TileId) (n : Nat) : s.Calm (s.updTile t fun x => x.touch n) :=
  .updTile fun _ => Tile.strands_touch ..

theorem State.calm_requestLine (s : State) (t : TileId) (h : StrandId) (va : Word) (n : Nat) (b : Bool) (st : Option Nat) (d : Bool) :
    s.Calm (s.requestLine t h va n b st d).2 := by
  unfold State.requestLine
  dsimp only
  split
  · split
    · exact State.calm_touch ..
    · exact .refl s
  · have sent := State.Calm.foldl (fun s e => State.calm_sendMerge s t e) ((s.tile t).mbuf.filter (fun e => e.addr / 256 == n / 256)) s
    split
    · exact sent
    · next heq =>
      have alloc := sent.trans (State.calm_allocLine heq)
      generalize (List.filter _ (List.map _ (List.range 4))) = want
      split
      · exact alloc
      · exact alloc.trans (State.calm_ask ..)

theorem State.calm_countTile (s : State) (t : TileId) (k n : Nat) : s.Calm (s.countTile t k n) where
  tile u := by
    rw [State.tile_countTile]
    exact Tile.Calm.refl _

theorem State.calm_missLine (s : State) (t : TileId) (h : StrandId) (va : Word) (n : Nat) (b : Bool) : s.Calm (s.missLine t h va n b).2 := by
  unfold State.missLine
  dsimp only
  have counted : s.Calm (if fillingLine (s.tile t) (n / 256) = true then s else s.countTile t 3 1) := by
    split
    · exact .refl s
    · exact State.calm_countTile ..
  generalize (if fillingLine (s.tile t) (n / 256) = true then s else s.countTile t 3 1) = u at counted ⊢
  split
  · exact (counted.trans (State.calm_requestLine ..)).trans (State.calm_requestLine ..)
  · exact counted.trans (State.calm_requestLine ..)

theorem State.calm_mergeIn {s u : State} {t : TileId} {who : StoreBy} {n : Nat} {b : Bool} {bs : List Byte}
    (h : s.mergeIn t who n b bs = some u) : s.Calm u := by
  have finish (c : Bool) (v : State) (e : MergeEntry) (hv : s.Calm v) : s.Calm (if c = true then v.sendMerge t e else v) := by
    split
    · exact hv.trans (State.calm_sendMerge ..)
    · exact hv
  unfold State.mergeIn at h
  dsimp only at h
  split at h
  · cases h
    exact finish _ _ _ (.setTile (Tile.calm_of_strands rfl))
  · split at h
    · cases h
      exact finish _ _ _ (.setTile (Tile.calm_of_strands rfl))
    · split at h
      · cases h
      · cases h
        exact finish _ _ _ ((State.calm_sendMerge ..).trans (.updTile fun _ => rfl))

theorem State.calm_putSlice (s : State) (t : TileId) (who : StoreBy) (va : Word) (p : Policy) (n : Nat) (b : Bool) (bs : List Byte) :
    s.Calm (s.putSlice t who va p n b bs).2 := by
  unfold State.putSlice
  dsimp only
  split
  · exact State.calm_mend ..
  · cases p with
    | uncached => exact .refl s
    | writeBack =>
      dsimp only
      split
      · exact .updTile fun _ => Tile.strands_writeLine ..
      · split
        · exact .refl s
        · split
          · split
            · exact .refl s
            · next heq => exact (State.calm_allocLine heq).trans (.updTile fun _ => Tile.strands_fillSector ..)
          · exact State.calm_missLine ..
    | writeThrough =>
      dsimp only
      split
      · exact .refl s
      · split
        · exact .refl s
        · next heq =>
          refine (State.calm_mergeIn heq).trans ?_
          dsimp only
          apply State.Calm.updTile
          intro x
          split
          · exact Tile.strands_writeLine ..
          · rfl

end Sys2Proof.Machine
end

section
/-! Exception entry, escalation and stop (03 R83 to R87). -/

namespace Sys2Proof.Machine

/-! ### The walks of an entry, and what it cancels -/

/-- Of a tile, a walk made at once changes only the translation buffer. -/
theorem State.tile_walkNow (s : State) (t : TileId) (au : Auth) (need : Need) (n k : Nat) (u : TileId) :
    ∃ e, (s.walkNow t au need n k).tile u = { s.tile u with tlb := e } := by
  unfold State.walkNow
  dsimp only
  split
  · split
    · next m e _ _ =>
      by_cases hu : u = t
      · subst hu
        exact ⟨_, by rw [State.tile_updTile]; rfl⟩
      · exact ⟨(s.tile u).tlb, by rw [State.tile_updTile_ne _ _ hu]; rfl⟩
    · exact ⟨(s.tile u).tlb, rfl⟩
  · exact ⟨(s.tile u).tlb, rfl⟩

theorem State.tile_walkEntry (s : State) (a : At) (code : Nat) (u : TileId) :
    ∃ e, (s.walkEntry a code).tile u = { s.tile u with tlb := e } := by
  unfold State.walkEntry
  dsimp only
  obtain ⟨e1, h1⟩ := s.tile_walkNow a.t (s.entryAuth a) .store (s.strand a).frameAt 64 u
  obtain ⟨e2, h2⟩ := (s.walkNow a.t (s.entryAuth a) .store (s.strand a).frameAt 64).tile_walkNow a.t (s.entryAuth a) .store
    ((s.strand a).frameAt + 64) 64 u
  obtain ⟨e3, h3⟩ := ((s.walkNow a.t (s.entryAuth a) .store (s.strand a).frameAt 64).walkNow a.t (s.entryAuth a) .store
    ((s.strand a).frameAt + 64) 64).tile_walkNow a.t (s.entryAuth a) .fetch ((s.strand a).handler code).toNat 16 u
  exact ⟨e3, by rw [h3, h2, h1]⟩

theorem State.strand_walkEntry (s : State) (a : At) (code : Nat) (b : At) : (s.walkEntry a code).strand b = s.strand b := by
  obtain ⟨e, h⟩ := s.tile_walkEntry a code b.t
  unfold State.strand
  rw [h]
  rfl

theorem Tile.strands_foldl_forget (l : List TOp) (x : Tile) : (l.foldl (fun x o => x.forget (.op o.id)) x).strands = x.strands := by
  induction l generalizing x with
  | nil => rfl
  | cons o l ih => exact ih _

theorem Tile.bsBase_foldl_forget (l : List TOp) (x : Tile) : (l.foldl (fun x o => x.forget (.op o.id)) x).bsBase = x.bsBase := by
  induction l generalizing x with
  | nil => rfl
  | cons o l ih => exact ih _

theorem State.strand_of_strands {s : State} {t : TileId} {f : Tile → Tile} (h : (f (s.tile t)).strands = (s.tile t).strands) (b : At) :
    (s.updTile t f).strand b = s.strand b := by
  unfold State.strand Tile.strand
  by_cases hb : b.t = t
  · rw [hb, State.tile_updTile, h]
  · rw [State.tile_updTile_ne _ _ hb]

theorem State.strand_enterTile (s : State) (a b : At) : (s.enterTile a).strand b = s.strand b :=
  State.strand_of_strands (Tile.strands_foldl_forget ..) b

theorem State.bsBase_enterTile (s : State) (a : At) : ((s.enterTile a).tile a.t).bsBase = (s.tile a.t).bsBase := by
  unfold State.enterTile
  rw [State.tile_updTile]
  exact Tile.bsBase_foldl_forget ..

/-! ### The frame is written -/

theorem State.calm_putSector {v t : State} {a : At} {va : Nat} {x : Xlate} {bs : List Byte} (h : v.putSector a va x bs = some t) :
    v.Calm t := by
  unfold State.putSector at h
  split at h
  · cases h
    exact .updTile fun _ => rfl
  · split at h
    · split at h
      · cases h
        exact State.calm_sendStore ..
      · cases h
    · split at h
      · cases h
        exact State.calm_sendStore ..
      · split at h
        · next u heq =>
          have hput := State.calm_putSlice v a.t (.strand a.h) (word va) x.policy x.addr x.isSeal bs
          rw [heq] at hput
          cases h
          exact hput
        · cases h

theorem State.calm_putFrame {a : At} {au : Auth} {lo : Nat} {bs : List Byte} (ks : List Nat) {s t : State}
    (h : s.putFrame a au lo bs ks = some t) : s.Calm t := by
  induction ks generalizing s with
  | nil =>
    cases h
    exact .refl _
  | cons k ks ih =>
    unfold State.putFrame at h
    split at h
    · obtain ⟨u, hu, hrest⟩ := Option.bind_eq_some_iff.mp h
      exact (State.calm_putSector hu).trans (ih hrest)
    · exact ih h

theorem State.strand_pushFrame (s : State) (a : At) (f : EntryFrame) : (s.pushFrame a f).strand a =
    { s.strand a with
      frames := f :: (s.strand a).frames.take 1
      status := { (s.strand a).status with gdepth := (s.strand a).status.gdepth + 1 } } := by
  unfold State.pushFrame
  dsimp only
  split
  · rw [State.strand_updStrand, State.strand_writeBytes]
  · rw [State.strand_updStrand]

/-! ### An entry by its outcome -/

section
variable {s : State} {a : At} {c : Cause} {addr pc : Word} (hbs : (s.strand a).status.bs = false)
include hbs

theorem State.enter_waits (hclear : (s.strand a).entryClear = false) : s.enter a c addr pc = s := by
  unfold State.enter
  dsimp only
  rw [if_neg (by simp [hbs]), if_pos (by simp [hclear])]

variable (hclear : (s.strand a).entryClear = true)
include hclear

theorem State.enter_handler (hf : (s.walkEntry a c.code).entryFailure a c.code = none) :
    s.enter a c addr pc = (s.walkEntry a c.code).enterHandler a c.code c.word addr pc := by
  unfold State.enter
  dsimp only
  rw [if_neg (by simp [hbs]), if_neg (by simp [hclear]), hf]

theorem State.enter_escalates {f : Nat × Nat × Nat} (hf : (s.walkEntry a c.code).entryFailure a c.code = some f) :
    s.enter a c addr pc =
      if c.imp then ((s.walkEntry a c.code).escalate a f c.word addr pc).updStrand a fun r => { r with recur := some (c, addr) }
      else (s.walkEntry a c.code).escalate a f c.word addr pc := by
  unfold State.enter
  dsimp only
  rw [if_neg (by simp [hbs]), if_neg (by simp [hclear]), hf]

end

/-- The entry frame that an exception pushes (03 Table 03-13). -/
def Strand.entryFrame (r : Strand) : EntryFrame := { savedw15 := Sparse.get 0 r.wregs 15, retpc := 0, savedvis := r.vis, exc := true }

theorem State.strand_enterHandler {w t : State} {a : At} {code : Nat} {cause addr pc : Word}
    (h : ((w.countTile a.t 7 1).enterTile a).putFrame a (w.entryAuth a) (w.strand a).frameAt (frameBytes (w.strand a) pc cause addr) [0, 64] =
      some t) :
    (w.enterHandler a code cause addr pc).strand a =
      { w.strand a with
        frames := (w.strand a).entryFrame :: (w.strand a).frames.take 1
        status := { (w.strand a).status with gdepth := (w.strand a).status.gdepth + 1, hush := true, loop := 0 }
        wregs := Sparse.set 0 (w.strand a).wregs 15 (w.strand a).wx, vis := 0, vresume := 0,
        cause := cause, faultaddr := addr, xsp := (w.strand a).xsp - 128, pc := (w.strand a).handler code,
        slot := none, hold := none, lineBuf := none, lineNext := none, fetchFail := none, run := .running
        evtPend := (t.strand a).evtPend, line4 := (t.strand a).line4 } := by
  have hcalm : (w.strand a).Notified (t.strand a) := by
    have := (State.calm_putFrame _ h).strand a
    rwa [State.strand_enterTile, State.strand_countTile] at this
  unfold State.enterHandler
  dsimp only
  rw [h]
  dsimp only
  rw [State.strand_updStrand, State.strand_pushFrame, hcalm]
  rfl

/-- Settles O22: the handler's strand is the strand before it with Table 03-13 applied; writing the frame changes nothing of it. -/
theorem exceptionEntrySaves : Obligations.ExceptionEntrySaves := by
  intro a c addr pc s r w hbs
  have hw : w.strand a = r := State.strand_walkEntry ..
  refine ⟨State.enter_waits hbs, fun hclear hf hput => ?_, fun hclear hf hput => ?_⟩
  · obtain ⟨t, ht⟩ := Option.isSome_iff_exists.mp hput
    rw [← hw] at ht
    have hq := State.strand_enterHandler (code := c.code) ht
    rw [hw] at hq
    rw [State.enter_handler hbs hclear hf, hq]
    exact ⟨rfl, rfl, rfl, rfl, rfl, rfl, rfl, hbs, rfl, rfl, rfl, rfl, rfl, Sparse.get_set_self .., rfl, rfl, rfl, rfl, rfl, rfl, rfl⟩
  · rw [State.enter_handler hbs hclear hf]
    rw [← hw] at hput
    unfold State.enterHandler
    dsimp only
    rw [hput]

/-! ### Escalation and stop -/

theorem Sparse.getList_eq {α : Type} (d : α) (m : Sparse α) (k n : Nat) :
    Sparse.getList d m k n = (List.range n).map fun i => Sparse.get d m (k + i) := by
  induction n generalizing k with
  | zero => rfl
  | succ n ih =>
    rw [Sparse.getList, ih, List.range_succ_eq_map, List.map_cons, List.map_map]
    exact congrArg₂ List.cons rfl (List.map_congr_left fun i _ => by simp [Nat.add_assoc, Nat.add_comm 1])

/-- What a run of numbers was set to is what it reads as. -/
theorem Sparse.getList_setList {α : Type} [DecidableEq α] (d : α) (m : Sparse α) (k : Nat) (vs : List α) :
    Sparse.getList d (Sparse.setList d m k vs) k vs.length = vs := by
  rw [Sparse.getList_eq]
  refine List.ext_getElem (by simp) fun i h1 h2 => ?_
  rw [List.getElem_map, List.getElem_range, Sparse.get_setList, if_pos (by simp at h1; omega), Nat.add_sub_cancel_left,
    List.getD_eq_getElem?_getD, List.getElem?_eq_getElem h2]
  rfl

theorem Tile.backstopRead_backstopWrite (x : Tile) (off : Nat) (bs : List Byte) :
    (x.backstopWrite off bs).backstopRead off bs.length = bs := Sparse.getList_setList ..

theorem Tile.backstopRead_setStrand (x : Tile) (h : StrandId) (r : Strand) (off n : Nat) :
    (x.setStrand h r).backstopRead off n = x.backstopRead off n := rfl

theorem State.strand_stopStrand (s : State) (a : At) :
    (s.stopStrand a).strand a = { s.strand a with run := .stopped, slot := none, hold := none } := by
  unfold State.stopStrand
  rw [State.strand_alarm, State.strand_of_strands rfl, State.strand_updStrand]

/-- A strand that escalates (03 R86). -/
theorem State.strand_escalate (s : State) (a : At) (f : Nat × Nat × Nat) (cause addr pc : Word) :
    (s.escalate a f cause addr pc).strand a = { s.strand a with
      bsCause := BitVec.ofNat 11 (f.1 + 256 * f.2.1), bsAddr := causeAddr f.1 (word f.2.2), bsCount := (s.strand a).bsCount + 1,
      status := { (s.strand a).status with bs := true, hush := true, loop := 0 }, vresume := 0,
      slot := none, hold := none, lineBuf := none, lineNext := none, fetchFail := none, pc := (s.tile a.t).bsBase, run := .running } := by
  unfold State.escalate
  dsimp only
  rw [State.strand_updStrand, State.strand_of_strands rfl, State.strand_enterTile, State.strand_countTile, State.bsBase_enterTile,
    State.tile_countTile]

theorem State.backstop_escalate (s : State) (a : At) (f : Nat × Nat × Nat) (cause addr pc : Word) :
    ((s.escalate a f cause addr pc).tile a.t).backstopRead (backstopFrame a.h) 128 = frameBytes (s.strand a) pc cause addr := by
  unfold State.escalate
  dsimp only
  rw [State.updStrand, State.setStrand, State.tile_setTile, Tile.backstopRead_setStrand, State.tile_updTile,
    ← length_frameBytes (s.strand a) pc cause addr, Tile.backstopRead_backstopWrite]

/-- Settles O23: by bs, by the escalation's updates of the strand and of the backstop frame, and by what recurs. -/
theorem escalationAndStop : Obligations.EscalationAndStop := by
  intro a c addr pc s r u q
  refine ⟨fun hbs => ?_, fun code check va hbs hclear hf => ?_, fun k v hrecur hrun hhold hb hhalt hbs hclear => ?_⟩
  · have hu : u = s.stopStrand a := if_pos hbs
    change u.strand a = _
    rw [hu, State.strand_stopStrand]
  · have hu := State.enter_escalates (addr := addr) (pc := pc) hbs hclear hf
    have hesc := (s.walkEntry a c.code).strand_escalate a (code, check, va) c.word addr pc
    have hback := (s.walkEntry a c.code).backstop_escalate a (code, check, va) c.word addr pc
    obtain ⟨e, htile⟩ := s.tile_walkEntry a c.code a.t
    rw [State.strand_walkEntry, htile] at hesc
    rw [State.strand_walkEntry] at hback
    have hq : q = { (((s.walkEntry a c.code).escalate a (code, check, va) c.word addr pc).strand a) with
        recur := if c.imp then some (c, addr) else r.recur } := by
      change u.strand a = _
      rw [show u = _ from hu]
      split
      · rw [State.strand_updStrand]
      · rw [hesc]
    refine ⟨?_, ?_, ?_, ?_, ?_, ?_, ?_, ?_, ?_, ?_, ?_, ?_, ?_, ?_, ?_, ?_, ?_⟩
    case refine_17 =>
      rw [show u = _ from hu]
      split
      · rw [State.updStrand, State.setStrand, State.tile_setTile, Tile.backstopRead_setStrand]
        exact hback
      · exact hback
    case refine_16 => rw [hq]
    all_goals rw [hq, hesc]
  · refine congrArg Host.Outcome.next ?_
    change (if (r.run ≠ .running || r.hold.isSome || !r.atBoundary || r.haltReq) = true then s else _) = _
    rw [if_neg (by simp [hrun, hhold, hb, hhalt]), hrecur, hbs]
    unfold State.takeRecur
    exact if_neg (by rw [show (s.strand a).entryClear = true from hclear]; decide)

end Sys2Proof.Machine
end

section
/-! Vector instructions and pipes (04), and the issue of queued tile instructions (07). -/

namespace Sys2Proof.Machine

/-! ### Vector instructions -/

section
variable {k : VKind} {a : At} {f : VF} {s : State} (h : s.ready a 8 false (vecRegs k f) = true)
include h

theorem vectorIssue_trap (ht : (s.strand a).trap ≠ none) : vectorIssue k a f s = .next s := by
  refine congrArg Host.Outcome.next (State.issue_wait h ?_)
  exact if_pos (Option.isSome_iff_ne_none.mpr ht)

variable (ht : (s.strand a).trap = none)
include ht

theorem vectorIssue_illegal (hl : (s.captureVec a k f).legal = false) :
    vectorIssue k a f s = .next (s.raise a cIllegal 0 0 (s.strand a).pc) := by
  refine congrArg Host.Outcome.next (State.issue_fault h (c := cIllegal) (k := 0) (w := 0) (v := (s.strand a).pc) ?_)
  refine (if_neg (by simp [ht])).trans ?_
  exact if_pos (by simp [hl])

variable (hl : (s.captureVec a k f).legal = true)
include hl

theorem vectorIssue_waits (hw : 8 ≤ (if k.isMem then (s.tile a.t).mq else (s.tile a.t).aq).length ∨
    (s.captureVec a k f).unmarked (s.tile a.t) = false) : vectorIssue k a f s = .next s := by
  refine congrArg Host.Outcome.next (State.issue_wait h ?_)
  refine (if_neg (by simp [ht])).trans ((if_neg (by simp [hl])).trans ?_)
  exact if_pos (by simpa using hw)

variable (hr : (if k.isMem then (s.tile a.t).mq else (s.tile a.t).aq).length < 8)
  (hu : (s.captureVec a k f).unmarked (s.tile a.t) = true)
include hr hu

theorem vectorIssue_starves (hg : (s.tile a.t).grants a.h.val (s.captureVec a k f).charge = false) :
    vectorIssue k a f s = .next (s.updTile a.t fun x => x.starve a.h.val) := by
  refine congrArg Host.Outcome.next (State.issue_later h ?_)
  refine (if_neg (by simp [ht])).trans ((if_neg (by simp [hl])).trans ((if_neg (by simpa [hu] using hr)).trans ?_))
  exact if_pos (by simp [hg])

theorem vectorIssue_captured (hg : (s.tile a.t).grants a.h.val (s.captureVec a k f).charge = true) :
    vectorIssue k a f s = .next ((s.enqueueVec a (s.captureVec a k f)).completed a 8) := by
  refine congrArg Host.Outcome.next (State.issue_done h ?_)
  refine (if_neg (by simp [ht])).trans ((if_neg (by simp [hl])).trans ((if_neg (by simpa [hu] using hr)).trans ?_))
  exact if_neg (by simp [hg])

end

@[simp] theorem State.tile_payTile (s : State) (t : TileId) (n : Nat) (u : TileId) : (s.payTile t n).tile u = s.tile u := by
  unfold State.payTile
  split <;> rfl

/-- What an issued vector instruction leaves of its tile and its strand. -/
theorem State.enqueueVec_leaves (s : State) (a : At) (o : VOp) :
    ((s.enqueueVec a o).tile a.t).mq = (if o.kind.isMem then (s.tile a.t).mq ++ [o] else (s.tile a.t).mq) ∧
    ((s.enqueueVec a o).tile a.t).aq = (if o.kind.isMem then (s.tile a.t).aq else (s.tile a.t).aq ++ [o]) ∧
    ((s.enqueueVec a o).strand a).vresume = 0 ∧
    ((s.enqueueVec a o).strand a).hold = (if o.holds then some (.vector o.id) else none) := by
  unfold State.enqueueVec
  dsimp only
  generalize hv : (s.payTile a.t o.charge).updTile a.t _ = v
  have htile : ((v.updStrand a fun r => { r with vresume := 0, hold := if o.holds then some (.vector o.id) else none }).tile a.t).mq =
      (if o.kind.isMem then (s.tile a.t).mq ++ [o] else (s.tile a.t).mq) ∧
      ((v.updStrand a fun r => { r with vresume := 0, hold := if o.holds then some (.vector o.id) else none }).tile a.t).aq =
      (if o.kind.isMem then (s.tile a.t).aq else (s.tile a.t).aq ++ [o]) := by
    rw [State.updStrand, State.setStrand, State.tile_setTile, ← hv, State.tile_updTile, State.tile_payTile]
    cases o.kind.isMem <;> exact ⟨rfl, rfl⟩
  split
  · rw [State.tile_spoilReplay, State.strand_spoilReplay, State.strand_updStrand]
    exact ⟨htile.1, htile.2, rfl, rfl⟩
  · rw [State.strand_updStrand]
    exact ⟨htile.1, htile.2, rfl, rfl⟩

/-- Settles O32: by the pending trap, the legality, the pipe's room and marks, and the grant. -/
theorem vectorInstructionIssue : Obligations.VectorInstructionIssue := by
  intro e he a f s h
  dsimp only
  rw [vectorOps_run e he]
  refine ⟨vectorIssue_trap h, vectorIssue_illegal h, fun ht hl hw => vectorIssue_waits h ht hl hw,
    fun ht hl hr hu hg => vectorIssue_starves h ht hl hr hu hg, fun ht hl hr hu hg => ?_⟩
  obtain ⟨hmq, haq, hresume, hhold⟩ := s.enqueueVec_leaves a (s.captureVec a e.2 f)
  exact ⟨_, vectorIssue_captured h ht hl hr hu hg, rfl, hmq, haq, hresume, hhold, rfl, rfl, rfl⟩

/-! ### The pipes of the vector unit -/

theorem Strand.vecDone_vflags (r : Strand) (o : VOp) (f : Flags) : (r.vecDone o f none).vflags = r.vflags ||| BitVec.ofNat 7 f := by
  unfold Strand.vecDone Strand.addTrap
  dsimp only
  split
  · split <;> rfl
  · rfl

theorem Strand.vecDone_hold (r : Strand) (o : VOp) (f : Flags) :
    (r.vecDone o f none).hold = if r.hold = some (.vector o.id) then none else r.hold := by
  unfold Strand.vecDone Strand.addTrap
  dsimp only
  split
  · split <;> rfl
  · rfl

theorem Strand.vecDone_trap {r : Strand} {o : VOp} {f : Flags} (h : f &&& o.aten.toNat = 0) : (r.vecDone o f none).trap = r.trap := by
  unfold Strand.vecDone
  rw [if_neg (not_not.mpr h)]

section
variable {t : TileId} {o : VOp} {rest : List VOp} {s : State}

/-- The instruction at the head of the memory pipe, waiting for nothing, makes its next access. -/
theorem State.vecElement_access {u : Nat} (hq : (s.tile t).mq = o :: rest) (hsb : ((s.tile t).strand o.h).sb = [])
    (hu : o.nextUnit (s.tile t) = some u) (hbad : o.bad = none) (hwait : o.wait = none) : s.vecElement t = s.vecAccess t o u := by
  unfold State.vecElement
  dsimp only
  rw [hq]
  dsimp only
  rw [if_neg (by simp [hsb]), hu]
  dsimp only
  rw [hbad, hwait]
  rfl

theorem State.vecAccess_load {u : Nat} {l : Xlate} (hload : o.kind.isLoad = true) (hamo : o.kind ≠ .amox)
    (hal : (o.addrOf (s.tile t) u).toNat % o.size = 0)
    (hl : s.check t o.auth .load (o.addrOf (s.tile t) u).toNat o.size false = .ok l) :
    s.vecAccess t o u = s.vecLoad t o u (o.addrOf (s.tile t) u) l := by
  have hneed : o.need = .load := by rw [VOp.need, if_neg hamo, if_pos hload]
  unfold State.vecAccess
  dsimp only
  rw [if_neg (not_not.mpr hal), hneed, hl]
  dsimp only
  rw [if_neg hamo, if_pos hload]

theorem State.vecLoad_hit {u : Nat} {va : Word} {l : Xlate} (hb : l.backstop = false) (htgt : l.target = .memory)
    (hpol : l.policy ≠ .uncached) (ha : (s.tile t).amoWaiting none l.addr o.size = false)
    (hh : (s.tile t).hurt l.addr (wordsMet (l.addr % 256) o.size) = false) (hp : (s.tile t).present l.addr o.size = true) :
    s.vecLoad t o u va l =
      (s.setTile t ((o.loadUnit (s.tile t) u ((s.tile t).readLine l.addr o.size)).touch l.addr)).passUnit t o u 1 := by
  unfold State.vecLoad
  dsimp only
  rw [if_neg (by simp [hb]), if_neg (by simp [htgt]), if_neg hpol, if_neg (by simp [ha]), if_neg (by simp [hh]), if_pos hp]

end

/-- Settles O34: a load element that hits; the head of each pipe when it is done; and what completion does to the strand. -/
theorem vectorPipesComplete : Obligations.VectorPipesComplete := by
  intro t o rest s
  refine ⟨fun u l hq hsb hu hbad hwait hload hamo hal hl hb htgt hpol ha hh hp => congrArg Host.Outcome.next ?_,
    fun y f hq hw hrun => ⟨_, congrArg Host.Outcome.next ?_, rfl⟩, fun hq hn => congrArg Host.Outcome.next ?_,
    fun r f => ⟨Strand.vecDone_vflags .., fun hold => ?_, Strand.vecDone_trap⟩⟩
  · rw [State.vecElement_access hq hsb hu hbad hwait, State.vecAccess_load hload hamo hal hl, State.vecLoad_hit hb htgt hpol ha hh hp]
  · change s.arithDone t = _
    unfold State.arithDone
    dsimp only
    rw [hq]
    dsimp only
    rw [if_neg (by simp [hw]), hrun]
  · change s.memDone t = _
    unfold State.memDone
    dsimp only
    rw [hq]
    dsimp only
    rw [if_neg (by simp [hn])]
  · rw [Strand.vecDone_hold, if_pos hold]

/-! ### Queued tile instructions -/

section
variable {i : TInstr} {a : At} {s : State} (h : s.ready a 8 false i.regs = true) (ht : (s.strand a).tfault.getLsbD 24 = false)
include h ht

theorem tileIssue_illegal (hl : (s.strand a).status.bs = true ∨ i.legal s.grade768 = false) :
    tileIssue i a s = .next (s.raise a cIllegal 0 0 (s.strand a).pc) := by
  unfold tileIssue
  rw [State.issueTile_ready _ h ht]
  dsimp only
  rw [if_pos (by simpa using hl)]
  rfl

variable (hbs : (s.strand a).status.bs = false) (hl : i.legal s.grade768 = true)
include hbs hl

theorem tileIssue_reason {n : Nat} (hn : i.reason (s.tile a.t).cfg (s.tile a.t).wlast = some n) :
    tileIssue i a s = .next (if (s.strand a).entryClear = true then
      (s.updStrand a fun r => { r with tfault := word n, tfaultIa := r.pc.setWidth 48 }).raise a cTile 0 0 (s.strand a).pc else s) := by
  unfold tileIssue
  rw [State.issueTile_ready _ h ht]
  dsimp only
  rw [if_neg (by simp [hbs, hl]), hn]
  dsimp only
  unfold tileFault Strand.mayEnter
  rw [hbs]
  cases (s.strand a).entryClear <;> rfl

variable (hn : i.reason (s.tile a.t).cfg (s.tile a.t).wlast = none)
include hn

theorem tileIssue_full (hq : 8 ≤ (s.tile a.t).queued) : tileIssue i a s = .next s := by
  unfold tileIssue
  rw [State.issueTile_ready _ h ht]
  dsimp only
  rw [if_neg (by simp [hbs, hl]), hn]
  dsimp only
  rw [if_pos hq]

/-- The charge of an operation by what the last weight load was (14 R353). -/
def TInstr.chargeOn (i : TInstr) (x : Tile) : Nat := i.charge (match x.wlast with | some w => w.sparse | none => 0) x.cfg

variable (hq : (s.tile a.t).queued < 8)
include hq

theorem tileIssue_starves (hg : (s.tile a.t).grants a.h.val (i.chargeOn (s.tile a.t)) = false) :
    tileIssue i a s = .next (s.updTile a.t fun x => x.starve a.h.val) := by
  unfold tileIssue
  rw [State.issueTile_ready _ h ht]
  dsimp only
  rw [if_neg (by simp [hbs, hl]), hn]
  dsimp only
  rw [if_neg (Nat.not_le.mpr hq), if_pos (by rw [Bool.not_eq_true']; exact hg)]

theorem tileIssue_queued (hg : (s.tile a.t).grants a.h.val (i.chargeOn (s.tile a.t)) = true) :
    tileIssue i a s = .next ((s.enqueueTile a i (i.chargeOn (s.tile a.t))).completed a 8) := by
  unfold tileIssue
  rw [State.issueTile_ready _ h ht]
  dsimp only
  rw [if_neg (by simp [hbs, hl]), hn]
  dsimp only
  rw [if_neg (Nat.not_le.mpr hq), if_neg (by rw [Bool.not_eq_true', Bool.not_eq_false]; exact hg)]
  rfl

end

/-- The operation that enters the queue, with what it captures. -/
theorem State.enqueueTile_queues (s : State) (a : At) (i : TInstr) (charge : Nat) :
    ∃ o : TOp, ((s.enqueueTile a i charge).tile a.t).tq = (s.tile a.t).tq ++ [o] ∧ o.instr = i ∧ o.h = a.h ∧ o.id = (s.tile a.t).opNext ∧
      o.cfg = (s.tile a.t).cfg ∧ o.ia = (s.strand a).pc ∧ o.held = false ∧ o.begun = false ∧ o.granted = true := by
  unfold State.enqueueTile
  rw [State.tile_updTile, State.tile_payTile]
  exact ⟨_, rfl, rfl, rfl, rfl, rfl, rfl, rfl, rfl, rfl⟩

/-- Settles O35: by the legality, the issue conditions, the room and the grant. -/
theorem tileInstructionIssue : Obligations.TileInstructionIssue := by
  intro i c a hc s h ht
  have hrun : exec (c a) s = tileIssue i a s := by
    rcases hc with ⟨e, he, f, rfl, rfl⟩ | ⟨e, he, f, rfl, rfl⟩
    · exact matrixOps_run e he a f s
    · exact tileMemOps_run e he a f s
  dsimp only
  rw [hrun]
  refine ⟨tileIssue_illegal h ht, fun hbs hl => ⟨fun n hn hclear => ?_, fun n hn hclear => ?_, fun hn hq hg =>
    ⟨tileIssue_queued h ht hbs hl hn hq hg, State.enqueueTile_queues ..⟩, fun hn hq hg => tileIssue_starves h ht hbs hl hn hq hg,
    fun hn hq => tileIssue_full h ht hbs hl hn hq⟩⟩
  · rw [tileIssue_reason h ht hbs hl hn, if_pos hclear]
  · rw [tileIssue_reason h ht hbs hl hn, if_neg (by simp [hclear])]

end Sys2Proof.Machine
end

section
/-! Tile operations at work, and the tile control instructions (06, 07). -/

namespace Sys2Proof.Machine

/-! ### Tile operations at work -/

/-- The bits of a sum of the powers of two that a predicate picks below 4. -/
theorem getLsbD_sum_filter (p : Nat → Bool) (i : Nat) (hi : i < 4) :
    (BitVec.ofNat 4 (((List.range 4).filter p).map (2 ^ ·)).sum).getLsbD i = p i := by
  have bits : ∀ b0 b1 b2 b3 : Bool, ∀ j : Fin 4,
      (BitVec.ofNat 4 (((List.range 4).filter ([b0, b1, b2, b3].getD · false)).map (2 ^ ·)).sum).getLsbD j.val =
        [b0, b1, b2, b3].getD j.val false := by decide
  have same : ∀ j ∈ List.range 4, p j = [p 0, p 1, p 2, p 3].getD j false := by
    intro j hj
    match j, List.mem_range.mp hj with
    | 0, _ | 1, _ | 2, _ | 3, _ => rfl
  rw [List.filter_congr same, bits _ _ _ _ ⟨i, hi⟩]
  exact (same i (List.mem_range.mpr hi)).symm

section
variable {t : TileId} {k : Nat} {o : TOp} {s : State} (ho : (s.tile t).tq[k]? = some o)
include ho

theorem execTileOpBegin_begins (hh : o.held = false) (hb : o.begun = false) (hg : o.granted = true)
    (hm : (s.tile t).mayBegin k o = true) :
    execTileOpBegin t k s = .next ((s.countTile t 2 ((s.tile t).rowsFed o)).setTile t ((s.tile t).beginOp o)) := by
  unfold execTileOpBegin
  simp only [ho, hh, hb, hg, hm, Bool.or_self, Bool.false_eq_true, Bool.not_true, if_false, if_true]

theorem execTileOpCommit_commits (hm : (s.tile t).mayCommit k o = true) :
    execTileOpCommit t k s = .next (s.setTile t ((s.tile t).commit o)) := by
  unfold execTileOpCommit
  simp only [ho, hm, if_true]

/-- An operation that awaits no answer moves its next piece. -/
theorem execTileRowReturn_moves (hh : o.held = false) (hb : o.begun = true) (hr : o.row < o.memRows) (hbad : o.bad = none)
    (hw : o.wait = none) : execTileRowReturn t k s = .next (s.tileAccess t o) := by
  unfold execTileRowReturn
  simp only [ho, hbad, hw, Option.bind_none]
  exact congrArg Host.Outcome.next (if_neg (by simp [hh, hb, hr]))

end

section
variable {t : TileId} {o : TOp} {l : Xlate} {s : State}

theorem State.tileAccess_loads (hs : o.instr.stores = false) (hm : o.misaligned = false)
    (hc : s.check t o.access .load o.addr.toNat 1 false = .ok l) :
    s.tileAccess t o = s.tileLoad t o o.addr l (s.pieceLen t o .load l) := by
  unfold State.tileAccess
  simp only [hs, hm, hc, Bool.false_eq_true, if_false]

variable {va : Word} {n : Nat}

/-- A piece in memory that the tile store holds in good words is staged. -/
theorem State.tileLoad_served (hb : l.backstop = false) (ht : l.target = .memory) (hp : l.policy ≠ .uncached)
    (ha : (s.tile t).amoWaiting none l.addr n = false) (hh : (s.tile t).hurt l.addr (wordsMet (l.addr % 256) n) = false)
    (hr : (s.tile t).present l.addr n = true) :
    s.tileLoad t o va l n = s.setTile t (((s.tile t).stageTop o ((s.tile t).readLine l.addr n)).touch l.addr) := by
  unfold State.tileLoad
  have hn : l.target ≠ .remote := by rw [ht]; nofun
  simp only [hb, hn, hp, ha, hh, hr, Bool.false_eq_true, if_false, if_true]

end

theorem execDummyRowFeed_feeds {t : TileId} {arr : Fin 4} {s : State} (h1 : (s.tile t).smooth = true)
    (h2 : (s.tile t).arrOff.getLsbD arr.val = false) (h3 : arr.val < s.arrays) (h4 : (s.tile t).arrayIdle arr.val = true)
    (h5 : (s.tile t).noWave = true) :
    execDummyRowFeed t arr s = .next (s.setTile t { s.tile t with
      gap := Sparse.set 0 (s.tile t).gap arr.val (min 97 (Sparse.get 0 (s.tile t).gap arr.val + 1))
      egDummy := (s.tile t).egDummy + if dummyFed (min 97 (Sparse.get 0 (s.tile t).gap arr.val + 1)) then 330 else 0 }) :=
  congrArg Host.Outcome.next (if_neg (by rw [h1, h2, h4, h5]; simp [h3]))

theorem execArrayDrainDone_leaves {t : TileId} {s : State} (h : (s.tile t).hold = true) :
    ∃ u : State, execArrayDrainDone t s = .next u ∧ ∀ i < 4, (u.tile t).arrOff.getLsbD i =
      ((s.tile t).arrOff.getLsbD i || decide (s.arrays ≤ i) || (s.tile t).drained i) := by
  refine ⟨_, congrArg Host.Outcome.next (if_neg (by simp [h])), fun i hi => ?_⟩
  rw [State.tile_setTile]
  exact getLsbD_sum_filter (fun i => (s.tile t).arrOff.getLsbD i || decide (s.arrays ≤ i) || (s.tile t).drained i) i hi

/-- Settles O38: one equation per command. -/
theorem tileQueueAtWork : Obligations.TileQueueAtWork := by
  intro t k o s
  refine ⟨execTileOpBegin_begins, fun l ho hh hb hr hbad hw hs hm hc hbk ht hp ha hhurt hpres => ?_, execTileOpCommit_commits,
    fun arr => execDummyRowFeed_feeds, rfl, rfl, execArrayDrainDone_leaves, fun v hv hf => ?_⟩
  · exact (execTileRowReturn_moves ho hh hb hr hbad hw).trans (congrArg Host.Outcome.next
      ((State.tileAccess_loads hs hm hc).trans (State.tileLoad_served hbk ht hp ha hhurt hpres)))
  · exact congrArg Host.Outcome.next (if_neg (by simp [hv, hf]))

/-! ### Tile control instructions -/

/-- What trpsv leaves once its sectors have room: the save area written, and the strand's held entries gone (07 R192). -/
def State.saveReplay (s : State) (a : At) (ps : List (Word × Nat × Xlate)) : State :=
  let es := (s.tile a.t).tq.filter (TOp.heldBy a.h)
  ((ps.zip (leBytes 64 es.length :: es.map fun o => o.saved (s.origin a.t))).foldl
    (fun s (p, bs) => (s.putSector a p.1.toNat p.2.2 bs).getD s) s).updTile a.t fun x =>
      { x with tq := x.tq.filter (!TOp.heldBy a.h ·) }

section
variable {a : At} {f : CF} {s : State}

theorem State.tileFree_iff : s.tileFree a = true ↔ (s.strand a).tfault.getLsbD 24 = false ∧ (s.strand a).status.bs = false := by
  simp [State.tileFree]

variable {sel : Nat} {uses : List (BitVec 5)} {eff : State → Act} (hf : s.tileFree a = true) (hz : CF.ok f sel = true)
  (h : s.ready a 8 false uses = true)
include hf hz h

/-- A control instruction that is ready, legal and finds no recorded fault does what it says. -/
theorem tileCtl_done {t : State} (e : eff s = .done t) : tileCtl a f sel uses eff s = .next (t.completed a 8) := by
  obtain ⟨ht, hbs⟩ := State.tileFree_iff.mp hf
  unfold tileCtl
  rw [State.issueTile_ready _ h ht, if_neg (by simp [hbs, hz]), e]

theorem tileCtl_go {t : State} (e : eff s = .go t) : tileCtl a f sel uses eff s = .next (t.issued a) := by
  obtain ⟨ht, hbs⟩ := State.tileFree_iff.mp hf
  unfold tileCtl
  rw [State.issueTile_ready _ h ht, if_neg (by simp [hbs, hz]), e]

theorem tileCtl_fault {c k w : Nat} {v : Word} (e : eff s = .fault c k w v) : tileCtl a f sel uses eff s = .next (s.raise a c k w v) := by
  obtain ⟨ht, hbs⟩ := State.tileFree_iff.mp hf
  unfold tileCtl
  rw [State.issueTile_ready _ h ht, if_neg (by simp [hbs, hz]), e]

end

section
variable {a : At} {f : CF} {s : State} (hf : s.tileFree a = true) (hz : CF.ok f 0 = true)

theorem CF.ok_mono (hz : CF.ok f 0 = true) : CF.ok f 1 = true ∧ f.sel = 0 := by
  simp only [CF.ok, Bool.and_eq_true, decide_eq_true_eq] at hz ⊢
  obtain ⟨⟨⟨hs, h12⟩, h0⟩, hh⟩ := hz
  exact ⟨⟨⟨⟨by omega, h12⟩, h0⟩, hh⟩, BitVec.eq_of_toNat_eq (by simpa using hs)⟩

include hf hz

theorem execTrpld_starts {ps : List (Word × Nat × Xlate)} (h : s.ready a 8 false [f.gs] = true) (ha : (s.getG a f.gs).toNat % 64 = 0)
    (hc : s.checkSectors a .load 1 (s.getG a f.gs) [] = .ok ps) : execTrpld a f s = .next ((s.startReplay a ps).issued a) := by
  refine tileCtl_go hf hz h ?_
  change (if (s.getG a f.gs).toNat % 64 ≠ 0 then _ else match s.checkSectors a .load 1 (s.getG a f.gs) [] with
    | .walk p => _ | .fail c k w v => _ | .ok ps => _) = _
  rw [if_neg (not_not.mpr ha), hc]

theorem execTrpsv_saves {ps : List (Word × Nat × Xlate)} (h : s.ready a 8 false [f.gs] = true) (ha : (s.getG a f.gs).toNat % 64 = 0)
    (hsb : (s.strand a).sb = [])
    (hc : s.checkSectors a .store (((s.tile a.t).tq.filter (TOp.heldBy a.h)).length + 1) (s.getG a f.gs) [] = .ok ps)
    (hr : ps.all (fun p => (s.tile a.t).sectorRoom p.2.2) = true) :
    ∃ t : State, execTrpsv a f s = .next (t.completed a 8) ∧ ∀ o ∈ (t.tile a.t).tq, TOp.heldBy a.h o = false := by
  refine ⟨s.saveReplay a ps, tileCtl_done hf hz h ?_, ?_⟩
  · change (if (s.getG a f.gs).toNat % 64 ≠ 0 then _ else if (!(s.strand a).sb.isEmpty) = true then _ else
      match s.checkSectors a .store (((s.tile a.t).tq.filter (TOp.heldBy a.h)).length + 1) (s.getG a f.gs) [] with
      | .walk p => _ | .fail c k w v => _ | .ok ps => _) = _
    rw [if_neg (not_not.mpr ha), if_neg (by simp [hsb]), hc]
    dsimp only
    exact if_neg (by simp only [hr]; decide)
  · intro o ho
    unfold State.saveReplay at ho
    rw [State.tile_updTile] at ho
    simpa using (List.mem_filter.mp ho).2

/-- twait meets no recorded fault: it completes once no operation of its strand is left. -/
theorem execTwait_ready (h : s.ready a 8 false [] = true) :
    execTwait a f s = .next (if (s.tile a.t).tq.any (fun o => o.h == a.h && !o.held) then s else s.completed a 8) := by
  obtain ⟨ht, hbs⟩ := State.tileFree_iff.mp hf
  obtain ⟨hm, -, -, hp, hu⟩ := State.ready_iff.mp h
  unfold execTwait State.issueWith
  rw [hm, State.fetch_ready h]
  have free : s.tileReach a = id := by
    funext k
    exact if_pos (by rw [ht]; rfl)
  have done : (s.attempt a 8 false [] fun s => if (s.strand a).status.bs || !CF.ok f 0 then illegal s a else .done s) =
      s.completed a 8 := by
    unfold State.attempt
    dsimp only
    rw [hp, if_neg (by simp), if_neg (by simp), if_neg (by simp [hbs, hz])]
    rfl
  dsimp only
  rw [free, done]
  rfl

end

/-- Settles O36: by what a control instruction does that is ready, legal and finds no recorded fault. -/
theorem tileControlInstructions : Obligations.TileControlInstructions := by
  refine ⟨fun a f s hf hz => ⟨fun h => ⟨fun hr hc => ?_, fun hr => ?_, ?_, ?_, fun ps ha hc => execTrpld_starts hf hz h ha hc,
    fun ps ha hsb hc hr => execTrpsv_saves hf hz h ha hsb hc hr⟩, fun h => ⟨?_, ?_, ?_⟩, fun h => ⟨fun hall => ?_, fun hex => ?_⟩⟩,
    fun a f s hf hz hsel h => ?_⟩
  · exact tileCtl_done hf hz h ((if_neg (ne_true_of_eq_false hr)).trans (if_neg (by rw [Bool.not_eq_true']; exact ne_false_of_eq_true hc)))
  · exact tileCtl_fault hf hz h (if_pos hr)
  · exact tileCtl_done hf hz h rfl
  · exact tileCtl_done hf hz h rfl
  · exact tileCtl_done hf hz h rfl
  · exact tileCtl_done hf hz h rfl
  · exact tileCtl_done hf (CF.ok_mono hz).1 h (congrArg Act.done (by rw [if_pos (CF.ok_mono hz).2]; rfl))
  · refine (execTwait_ready hf hz h).trans (congrArg Host.Outcome.next (if_neg ?_))
    simpa using hall
  · refine (execTwait_ready hf hz h).trans (congrArg Host.Outcome.next (if_pos ?_))
    simpa using hex
  · exact tileCtl_done hf hz h (congrArg Act.done (by rw [if_neg (by rw [hsel]; decide)]; rfl))

end Sys2Proof.Machine
end

section
/-! Fences, tile-store maintenance and prefetch (08). -/

namespace Sys2Proof.Machine

/-! ### Fences -/

theorem mem_zero_of_three {x y z : BitVec 5} (hx : x = 0) (hy : y = 0) (hz : z = 0) : ∀ i ∈ [x, y, z], i = 0 := by
  simp [hx, hy, hz]

theorem mem_zero_of_two {x y : BitVec 5} (hx : x = 0) (hy : y = 0) : ∀ i ∈ [x, y], i = 0 := by
  simp [hx, hy]

theorem mem_zero_of_one {x : BitVec 5} (hx : x = 0) : ∀ i ∈ [x], i = 0 := by
  simp [hx]

section
variable {a : At} {f : RF} {s : State}

section
variable (h : s.ready a 4 true [] = true) (hz : ∀ i ∈ [f.rd, f.rs1, f.rs2], i = 0)
include h hz

theorem execFence_completes (hl : ((s.sendMerges a).strand a).loads = [])
    (hd : ((s.sendMerges a).tile a.t).storesDone a.h = true) : execFence a f s = .next ((s.sendMerges a).completed a 4) :=
  sysOp_done hz h (if_pos (by simp [hl, hd]))

theorem execFence_waits (hw : ((s.sendMerges a).strand a).loads ≠ [] ∨ ((s.sendMerges a).tile a.t).storesDone a.h = false) :
    execFence a f s = .next (s.sendMerges a) :=
  sysOp_later hz h (if_neg (by rw [Bool.and_eq_true, List.isEmpty_iff, ← Bool.not_eq_false]; tauto))

theorem execFenceLd_completes (hl : (s.strand a).loads = []) : execFenceLd a f s = .next (s.completed a 4) :=
  sysOp_done hz h (if_pos (by simp [hl]))

theorem execFenceLd_waits (hl : (s.strand a).loads ≠ []) : execFenceLd a f s = .next s :=
  sysOp_wait hz h (if_neg (by simp [hl]))

end

/-! ### Tile-store maintenance -/

variable {op : Upkeep} {u : State}

theorem upkeepOne_done {l : Xlate} (h : s.ready a 4 true [f.rs1] = true) (hz : ∀ i ∈ [f.rd, f.rs2], i = 0)
    (hc : s.check a.t (s.auth a) op.need (sectorAt (s.getG a f.rs1)).toNat 64 false = .ok l)
    (hu : s.upkeepSector a op l = .done u) : upkeepOne op a f s = .next (u.completed a 4) := by
  refine sysOp_done hz h ?_
  dsimp only
  rw [show s.check a.t (s.auth a) op.need (sectorAt ((s.strand a).g f.rs1)).toNat 64 false = .ok l from hc]
  dsimp only
  rw [hu]

section
variable (h : s.ready a 4 true [f.rs1, f.rs2] = true) (hz : ∀ i ∈ [f.rd], i = 0)
include h hz

theorem upkeepRange_illegal (hn : ¬ (f.rs1 ≠ f.rs2 ∧ f.rs1 ≠ 0 ∧ f.rs2 ≠ 0)) :
    upkeepRange op a f s = .next (s.raise a cIllegal 0 0 (s.strand a).pc) :=
  sysOp_fault hz h (if_pos (by tauto))

variable (hn : f.rs1 ≠ f.rs2 ∧ f.rs1 ≠ 0 ∧ f.rs2 ≠ 0)
include hn

theorem upkeepRange_empty (hl : (s.getG a f.rs2).toNat = 0) : upkeepRange op a f s = .next (s.completed a 4) :=
  sysOp_done hz h ((if_neg (by tauto)).trans (if_pos hl))

variable (hl : 0 < (s.getG a f.rs2).toNat)
  (hu : s.upkeepParts a op (sectorsOf (s.getG a f.rs1).toNat
    (min (s.getG a f.rs2).toNat (256 - (s.getG a f.rs1).toNat % 256))) = .done u)
include hl hu

/-- One line of a range is acted on; the registers move on by it. -/
theorem upkeepRange_line : (let step := 256 - (s.getG a f.rs1).toNat % 256
    let v := u.updStrand a fun r => (r.setG f.rs1 (s.getG a f.rs1 + word step)).setG f.rs2 (word ((s.getG a f.rs2).toNat - step))
    ((s.getG a f.rs2).toNat ≤ step → upkeepRange op a f s = .next (v.completed a 4)) ∧
      (step < (s.getG a f.rs2).toNat → upkeepRange op a f s = .next v)) := by
  refine ⟨fun hle => sysOp_done hz h ?_, fun hlt => sysOp_later hz h ?_⟩
  all_goals
    refine (if_neg (by tauto)).trans ((if_neg (Nat.ne_of_gt hl)).trans ?_)
    dsimp only
    rw [show s.upkeepParts a op (sectorsOf ((s.strand a).g f.rs1).toNat
      (min ((s.strand a).g f.rs2).toNat (256 - ((s.strand a).g f.rs1).toNat % 256))) = .done u from hu]
  · exact if_pos hle
  · exact if_neg (Nat.not_le.mpr hlt)

end

theorem upkeepSetWay_done (h : s.ready a 4 true [f.rs1] = true) (hz : ∀ i ∈ [f.rd, f.rs2], i = 0)
    (hs : bitsOf (s.getG a f.rs1).toNat 0 11 < 1536) (ho : op = .inv → s.ownsTile a = true)
    (hu : s.upkeepLine a op (bitsOf (s.getG a f.rs1).toNat 0 11) (bitsOf (s.getG a f.rs1).toNat 16 4) = .done u) :
    upkeepSetWay op a f s = .next (u.completed a 4) := by
  refine sysOp_done hz h ((if_neg (Nat.not_le.mpr hs)).trans ((if_neg (by simpa using ho)).trans ?_))
  rw [show s.upkeepLine a op (bitsOf ((s.strand a).g f.rs1).toNat 0 11) (bitsOf ((s.strand a).g f.rs1).toNat 16 4) = .done u from hu]

theorem upkeepAll_done (h : s.ready a 4 true [] = true) (hz : ∀ i ∈ [f.rd, f.rs1, f.rs2], i = 0)
    (ho : op = .inv → s.ownsTile a = true) (hf : ∀ k ∈ (s.tile a.t).asks, k.kind.isFill = false)
    (hu : ((s.tile a.t).mbuf.foldl (fun s l => s.sendMerge a.t l) s).upkeepLines a op ((s.tile a.t).lines.map (·.1)) = .done u) :
    upkeepAll op a f s = .next (u.completed a 4) := by
  have noFill : ¬ ((s.tile a.t).asks.any fun k => k.kind.isFill) = true := by simpa using hf
  refine sysOp_done hz h ((if_neg (by simpa using ho)).trans ((if_neg noFill).trans ?_))
  dsimp only
  rw [hu]

end

/-- Settles O39: by what each fence and each maintenance instruction does when it is ready. -/
theorem fencesAndMaintenance : Obligations.FencesAndMaintenance := by
  refine ⟨fun a f s h hrd h1 h2 => ?_, fun a f s => ⟨fun e he l u h hrd h2 hc hu => ?_, fun e he h hrd => ?_,
    fun e he u h hrd h2 hs ho hu => ?_, fun e he u h hrd h1 h2 ho hf hu => ?_⟩⟩
  · have hz := mem_zero_of_three hrd h1 h2
    exact ⟨execFence_completes h hz, execFence_waits h hz, execFenceLd_completes h hz, execFenceLd_waits h hz⟩
  · exact (upkeepOnes_run _ he _ _ _).trans (upkeepOne_done h (mem_zero_of_two hrd h2) hc hu)
  · dsimp only
    rw [upkeepRanges_run _ he]
    have hz := mem_zero_of_one hrd
    exact ⟨upkeepRange_illegal h hz, upkeepRange_empty h hz, fun u hn hl hu => upkeepRange_line h hz hn hl hu⟩
  · exact (upkeepSetWays_run _ he _ _ _).trans (upkeepSetWay_done h (mem_zero_of_two hrd h2) hs ho hu)
  · exact (upkeepAlls_run _ he _ _ _).trans (upkeepAll_done h (mem_zero_of_three hrd h1 h2) ho hf hu)

/-! ### Prefetch -/

section
variable {a : At} {f : RF} {s : State}

theorem execPfl_ready (h : s.ready a 4 true [f.rs1] = true) (hz : ∀ i ∈ [f.rd, f.rs2], i = 0) :
    execPfl a f s = .next ((s.prefetchLine a (s.getG a f.rs1)).completed a 4) :=
  sysOp_done hz h rfl

/-- What a pfl does, by what its request meets. -/
def State.prefetchMet (s : State) (a : At) (va : Word) : Probe → State
  | .walk p => s.startWalk a.t p
  | .failed => s.updTile a.t (·.forget (.line a.h va))
  | .dropped => s
  | .line l => (s.requestLine a.t a.h va l.addr false none false).2

theorem State.prefetchLine_eq (va : Word) : s.prefetchLine a va = s.prefetchMet a va (s.probe a (.line a.h va) va) := by
  unfold State.prefetchLine State.prefetchMet
  split <;> simp only [*]

/-- The descriptor word of a stream is legal (08 Table 08-6). -/
theorem streamWord_legal {v : Nat} (hv : v < 2 ^ 64) (rd : BitVec 5) :
    (decide (rd.toNat ≥ 16) || decide (BitVec.ofNat 32 v = 0) || decide ((BitVec.ofNat 32 v).toNat % 64 ≠ 0) ||
      decide (bitsOf v 48 8 = 0) || decide (bitsOf v 56 8 ≠ 0)) = false ↔
    rd.toNat < 16 ∧ v % 2 ^ 32 ≠ 0 ∧ v % 64 = 0 ∧ bitsOf v 48 8 ≠ 0 ∧ v < 2 ^ 56 := by
  have hstride : BitVec.ofNat 32 v = 0 ↔ v % 2 ^ 32 = 0 := by
    rw [← BitVec.toNat_inj]
    simp
  have hlow : (BitVec.ofNat 32 v).toNat % 64 = v % 64 := by
    rw [BitVec.toNat_ofNat]
    exact Nat.mod_mod_of_dvd v (by decide)
  have hhigh : bitsOf v 56 8 = 0 ↔ v < 2 ^ 56 := by
    unfold bitsOf
    omega
  simp only [Bool.or_eq_false_iff, decide_eq_false_iff_not, not_not, ge_iff_le, hlow, hhigh, hstride, Nat.not_le, ne_eq]
  tauto

section
variable (h : s.ready a 4 true [f.rs1, f.rs2] = true)
include h

theorem execPfs_illegal (hg : ¬ (f.rd.toNat < 16 ∧ (s.getG a f.rs2).toNat % 2 ^ 32 ≠ 0 ∧ (s.getG a f.rs2).toNat % 64 = 0 ∧
    bitsOf (s.getG a f.rs2).toNat 48 8 ≠ 0 ∧ (s.getG a f.rs2).toNat < 2 ^ 56)) :
    execPfs a f s = .next (s.raise a cIllegal 0 0 (s.strand a).pc) := by
  rw [← streamWord_legal (s.getG a f.rs2).isLt, Bool.not_eq_false] at hg
  exact sysOp_fault (by simp) h (if_pos hg)

theorem execPfs_describes (hg : f.rd.toNat < 16 ∧ (s.getG a f.rs2).toNat % 2 ^ 32 ≠ 0 ∧ (s.getG a f.rs2).toNat % 64 = 0 ∧
    bitsOf (s.getG a f.rs2).toNat 48 8 ≠ 0 ∧ (s.getG a f.rs2).toNat < 2 ^ 56) :
    execPfs a f s = .next ((s.updTile a.t fun x => x.setStream f.rd.toNat (some
      { base := s.getG a f.rs1, stride := BitVec.ofNat 32 (s.getG a f.rs2).toNat, count := bitsOf (s.getG a f.rs2).toNat 32 16,
        dist := bitsOf (s.getG a f.rs2).toNat 48 8, done := 0, strand := a.h, depth := (s.strand a).status.gdepth,
        state := if bitsOf (s.getG a f.rs2).toNat 32 16 = 0 then .finished else if x.tsCtl.getLsbD 1 then .running else .stopped,
        ahead := [] })).completed a 4) := by
  rw [← streamWord_legal (s.getG a f.rs2).isLt] at hg
  exact sysOp_done (by simp) h (if_neg (ne_true_of_eq_false hg))

end

/-- What a stream's next request, at `va`, does by what it meets. -/
def State.streamMet (s : State) (t : TileId) (k : Fin 16) (p : Stream) (va : Word) : Probe → State
  | .walk g => s.startWalk t g
  | .failed => (s.updTile t (·.forget (.stream k.val))).updTile t fun x => x.setStream k.val (some { p with state := .stopped })
  | .dropped => s.updTile t fun x => x.setStream k.val (some (p.next none))
  | .line l =>
    if (s.tile t).present (l.addr / 256 * 256) 256 then s.updTile t fun x => x.setStream k.val (some (p.next none))
    else (s.requestLine t p.strand va l.addr false (some k.val) false).2.updTile t fun x =>
      x.setStream k.val (some (p.next (some (l.addr / 256))))

/-- A running stream that has room ahead makes its next request. -/
theorem execStreamPrefetchRequest_runs {k : Fin 16} {p : Stream} (hp : (s.tile a.t).stream k.val = some p) (hh : p.strand = a.h)
    (hr : p.state = .running) (hc : (s.tile a.t).tsCtl.getLsbD 1 = true) (hd : (s.strand a).status.gdepth = p.depth)
    (hb : (s.strand a).status.bs = false) (hn : ((s.tile a.t).streamAhead p).length < p.dist) :
    (let va := p.base + word p.done * p.stride.signExtend 64
     execStreamPrefetchRequest a.t k s = .next (s.streamMet a.t k { p with ahead := (s.tile a.t).streamAhead p } va
       (s.probe a (.stream k.val) va))) := by
  obtain ⟨t, h⟩ := a
  subst hh
  unfold execStreamPrefetchRequest
  dsimp only at *
  rw [hp]
  dsimp only
  have running : ¬ (decide (p.state ≠ .running) || !(s.tile t).tsCtl.getLsbD 1 ||
      decide (((s.tile t).strand p.strand).status.gdepth ≠ p.depth) || ((s.tile t).strand p.strand).status.bs ||
      decide (p.dist ≤ ((s.tile t).streamAhead p).length)) = true := by
    rw [hc, show ((s.tile t).strand p.strand).status.gdepth = p.depth from hd,
      show ((s.tile t).strand p.strand).status.bs = false from hb]
    simp [hr, hn]
  rw [if_neg running]
  unfold State.streamMet
  split <;> simp only [*]

end

/-- Settles O40: by what a prefetch meets. -/
theorem prefetchInstructions : Obligations.PrefetchInstructions := by
  refine fun a f s => ⟨fun h hrd h2 => ?_, fun h => ⟨execPfs_describes h, execPfs_illegal h⟩, fun h h2 => ?_,
    fun k p hp hh hr hc hd hb hn => ?_⟩
  · have hz := mem_zero_of_two hrd h2
    have run := execPfl_ready h hz
    refine ⟨fun l hl => ?_, fun hl => ?_, fun hl => ?_, fun m hl => ?_, sysOp_done hz h rfl⟩
    all_goals
      rw [State.prefetchLine_eq, hl] at run
      exact run
  · exact sysOp_result (mem_zero_of_one h2) h rfl
  · have run := execStreamPrefetchRequest_runs hp hh hr hc hd hb hn
    refine ⟨fun l hl hpres => ?_, fun l hl hpres => ?_, fun hl => ?_, fun hl => ?_⟩
    all_goals
      dsimp only at run
      rw [hl] at run
    · rw [← hh]
      exact run.trans (congrArg Host.Outcome.next (if_neg (ne_true_of_eq_false hpres)))
    · exact run.trans (congrArg Host.Outcome.next (if_pos hpres))
    · exact run
    · exact run

end Sys2Proof.Machine
end

section
/-! What comes back to a tile and what leaves it (01, 08). -/

namespace Sys2Proof.Machine

/-! ### A change of every strand of a tile -/

theorem Tile.strand_updStrands {f : Strand → Strand} {h : StrandId} {l : List StrandId} (hl : l.Nodup) (x : Tile) :
    (l.foldl (fun x h => x.updStrand h f) x).strand h = if h ∈ l then f (x.strand h) else x.strand h := by
  induction l generalizing x with
  | nil => rfl
  | cons k l ih =>
    obtain ⟨hk, hl⟩ := List.nodup_cons.mp hl
    rw [List.foldl_cons, ih hl]
    by_cases hh : h = k
    · subst hh
      rw [if_neg hk, if_pos (List.mem_cons_self ..)]
      exact Tile.strand_setStrand ..
    · have other : (x.updStrand k f).strand h = x.strand h := Tile.strand_setStrand_ne _ _ hh
      simp [other, hh]

theorem Tile.strand_all {f : Strand → Strand} (x : Tile) (h : StrandId) :
    (allStrands.foldl (fun x h => x.updStrand h f) x).strand h = f (x.strand h) := by
  unfold allStrands
  rw [Tile.strand_updStrands (List.nodup_finRange 8), if_pos (List.mem_finRange h)]

theorem Tile.tsFail_updStrands {f : Strand → Strand} (l : List StrandId) (x : Tile) :
    (l.foldl (fun x h => x.updStrand h f) x).tsFail = x.tsFail ∧ (l.foldl (fun x h => x.updStrand h f) x).tsAddr = x.tsAddr := by
  induction l generalizing x with
  | nil => exact ⟨rfl, rfl⟩
  | cons k l ih => exact ih _

theorem Strand.evtPend_raiseLine4 (r : Strand) (va : Word) : (raiseLine4 r va).evtPend = r.evtPend ||| 0x10 := by
  change (r.pend 0x10).evtPend = _
  unfold Strand.pend
  rw [Strand.wake_eq]

/-- A refused write-back is recorded, and raises line 4 of every strand (08 R215). -/
theorem execWritebackRefused_records {a : At} {s : State} {k : Ask} {m : MPacket}
    (h : (s.tile a.t).firstAnswer AskKind.isWriteback = some (k, m)) :
    ∃ t : State, execWritebackRefused a.t s = .next t ∧ (t.tile a.t).tsFail = true ∧ (t.tile a.t).tsAddr = k.addr / 64 * 64 ∧
      (t.strand a).evtPend = (s.strand a).evtPend ||| 0x10 := by
  unfold execWritebackRefused
  dsimp only
  rw [h]
  refine ⟨_, rfl, ?_, ?_, ?_⟩
  · rw [State.tile_setTile]
    exact (Tile.tsFail_updStrands _ _).1
  · rw [State.tile_setTile]
    exact (Tile.tsFail_updStrands _ _).2
  · unfold State.strand
    rw [State.tile_setTile, Tile.strand_all]
    exact Strand.evtPend_raiseLine4 _ _

/-! ### What a fill brings -/

section
variable {t : TileId} {place : Nat} {weak torn : BitVec 32} {s : State}

/-- The tile without the answer `m` and its request `k`. -/
def Tile.tookFill (x : Tile) (k : Ask) (m : MPacket) : Tile :=
  { x with inbox := x.inbox.erase m, asks := x.asks.filter (·.tag ≠ k.tag) }

theorem execFillReturn_none (h : ((s.tile t).strike place weak torn).firstAnswer AskKind.isFill = none) :
    execFillReturn t place weak torn s = .next (s.setTile t ((s.tile t).strike place weak torn)) := by
  unfold execFillReturn
  dsimp only
  rw [h]

variable {k : Ask} {m : MPacket} (h : ((s.tile t).strike place weak torn).firstAnswer AskKind.isFill = some (k, m))
include h

theorem execFillReturn_data {secs : List (Nat × List Byte)} (hm : m.body = .data secs) :
    execFillReturn t place weak torn s = .next (s.setTile t
      (((((s.tile t).strike place weak torn).tookFill k m).install k.addr secs).fillDone k none)) := by
  unfold execFillReturn
  dsimp only
  rw [h]
  dsimp only
  rw [hm]
  rfl

theorem execFillReturn_fail {e : Fail} (hm : m.body = .fail e) :
    execFillReturn t place weak torn s = .next (s.setTile t
      (((((s.tile t).strike place weak torn).tookFill k m).install k.addr []).fillDone k (some e))) := by
  unfold execFillReturn
  dsimp only
  rw [h]
  dsimp only
  rw [hm]
  rfl

end

/-! ### A line of instructions, the oldest store, the merging buffer -/

section
variable {a : At} {s : State}

section
variable {tag : Nat} {k : Ask} {m : MPacket} {y : Tile} (hw : (s.strand a).fetchWait = some tag)
  (hk : (s.tile a.t).asks.find? (·.tag == tag) = some k) (hm : (s.tile a.t).takeAnswer tag = some (m, y))
include hw hk hm

theorem execIcacheLineFill_fills (hb : ∀ e : Fail, m.body ≠ .fail e) :
    execIcacheLineFill a s = .next ((({ s with free := s.free + 1 } : State).setTile a.t
      (y.fillIcache (k.addr / 128) s.free)).updStrand a fun r => { r with fetchWait := none }) := by
  unfold execIcacheLineFill
  rw [hw]
  dsimp only
  rw [hk, hm]
  dsimp only
  split
  · exact absurd ‹_› (hb _)
  · rfl

theorem execIcacheLineFill_fails {e : Fail} (hb : m.body = .fail e) :
    execIcacheLineFill a s = .next ((({ s with free := s.free + 1 } : State).setTile a.t y).updStrand a fun r =>
      { r with
        fetchWait := none
        fetchFail := if lineOf k.va = lineOf r.pc ∨ lineOf k.va = lineOf (r.pc + 4) then some (lineOf k.va, e.code, e.check)
          else r.fetchFail }) := by
  unfold execIcacheLineFill
  rw [hw]
  dsimp only
  rw [hk, hm]
  dsimp only
  rw [hb]
  rfl

end

theorem State.drainSb_drains {e : SbEntry} {rest : List SbEntry} {u : State} (hsb : (s.strand a).sb = e :: rest)
    (hb : (s.strand a).blocked e = false) (hd : s.drainEntry a e = (true, u)) :
    s.drainSb a = u.updStrand a fun r => { r with sb := r.sb.drop 1 } := by
  unfold State.drainSb
  rw [hsb]
  dsimp only
  rw [if_neg (ne_true_of_eq_false hb), hd]

theorem execMergingBufferSend_sends {t : TileId} {k : Nat} {e : MergeEntry} (h : (s.tile t).mbuf[k]? = some e) :
    execMergingBufferSend t k s = .next (s.sendMerge t e) := by
  unfold execMergingBufferSend
  rw [h]

/-! ### The answer to a load -/

theorem State.tryPart_answered {ld : PendingLoad} {p : LoadPart} {ctl : Option (Nat → Word)} {tag : Nat} {k : Ask} {m : MPacket} {y : Tile}
    (hp : p.state = .asked tag) (hk : (s.tile a.t).asks.find? (·.tag == tag) = some k) (hr : k.kind = .read)
    (hm : (s.tile a.t).takeAnswer tag = some (m, y)) :
    s.tryPart a ld p ctl = (answered m.body p.len, s.setTile a.t y) := by
  unfold State.tryPart
  rw [hp]
  dsimp only
  rw [hk]
  dsimp only
  rw [if_neg (not_not.mpr hr), hm]

/-- A load of the one part `p` when its bytes have come. -/
def PendingLoad.gotAll (l : PendingLoad) (p : LoadPart) (bs : List Byte) : PendingLoad := { l with parts := [{ p with state := .got bs }] }

/-- A load of one part whose answer has come is completed with its bytes. -/
theorem State.loadStep_answered {tag j : Nat} {k : Ask} {m : MPacket} {y : Tile} {l : PendingLoad} {p : LoadPart} {bs : List Byte}
    (hl : (s.strand a).loads[j]? = some l) (hps : l.parts = [p]) (hp : p.state = .asked tag) (ht : p.target = .memory)
    (hk : (s.tile a.t).asks.find? (·.tag == tag) = some k) (hr : k.kind = .read) (hm : (s.tile a.t).takeAnswer tag = some (m, y))
    (hb : m.body = .data [(0, bs)]) :
    s.loadStep a j = ((s.setTile a.t y).updStrand a fun r => r.setLoad j (l.gotAll p (bs.take p.len))).completeLoad a j
      (l.gotAll p (bs.take p.len)) (bs.take p.len) := by
  have hans : answered m.body p.len = .got (bs.take p.len) := by
    rw [hb]
    simp [answered, bodyBytes]
  have step : s.tryParts a l (some s.ctlRead) [p] = ([{ p with state := .got (bs.take p.len) }], s.setTile a.t y) := by
    unfold State.tryParts
    rw [State.tryPart_answered hp hk hr hm, hans]
    rfl
  have noControl : ([p].filter fun q => q.target == .control && q.state == .waiting && !(s.strand a).olderUncached l.seq) = [] := by
    simp [ht]
  unfold State.loadStep
  rw [hl]
  dsimp only
  rw [hps, noControl]
  simp only [List.foldl_nil, step]
  simp [PendingLoad.ready, LoadPart.bytes?, PendingLoad.gotAll]

theorem State.strand_finishLoad {u : State} {j : Nat} {l : PendingLoad} {g : Bool} (hk : l.kind = .reg g) (bs : List Byte) :
    (u.completeLoad a j l bs).strand a = (((u.strand a).dropLoad j).setG l.rd (loadValue l.kind l.len bs)).setBoard l.rd false := by
  unfold State.completeLoad State.finishLoad
  rw [hk]
  simp

theorem Tile.strand_takeAnswer {x y : Tile} {tag : Nat} {m : MPacket} (h : x.takeAnswer tag = some (m, y)) (i : StrandId) :
    y.strand i = x.strand i := by
  unfold Tile.takeAnswer at h
  split at h
  · cases h
  · cases h
    rfl

theorem execLoadReply_completes {tag j : Nat} {k : Ask} {m : MPacket} {y : Tile} {l : PendingLoad} {p : LoadPart} {bs : List Byte} {g : Bool}
    (hl : (s.strand a).loads[j]? = some l) (hg : l.kind = .reg g) (hps : l.parts = [p]) (hp : p.state = .asked tag)
    (ht : p.target = .memory) (hk : (s.tile a.t).asks.find? (·.tag == tag) = some k) (hr : k.kind = .read)
    (hm : (s.tile a.t).takeAnswer tag = some (m, y)) (hb : m.body = .data [(0, bs)]) :
    ∃ t : State, execLoadReply a j s = .next t ∧
      t.getG a l.rd = (if l.rd = 0 then 0 else loadValue l.kind l.len (bs.take p.len)) ∧
      (t.strand a).busy l.rd = (if l.rd = 0 then (s.strand a).busy 0 else false) := by
  refine ⟨_, congrArg Host.Outcome.next (State.loadStep_answered hl hps hp ht hk hr hm hb), ?_⟩
  have strand := State.strand_finishLoad (a := a) (u := (s.setTile a.t y).updStrand a fun r => r.setLoad j (l.gotAll p (bs.take p.len)))
    (j := j) (l := l.gotAll p (bs.take p.len)) hg (bs.take p.len)
  rw [show (l.gotAll p (bs.take p.len)).rd = l.rd from rfl] at strand
  unfold State.getG
  rw [strand, Strand.g_setBoard, Strand.g_setG]
  refine ⟨?_, ?_⟩
  · by_cases h0 : l.rd = 0
    · rw [if_neg (by simp [h0]), if_pos h0, h0]
      rfl
    · rw [if_pos ⟨rfl, h0⟩, if_neg h0]
      rfl
  · by_cases h0 : l.rd = 0
    · rw [if_pos h0, h0, Strand.busy_setBoard_zero, Strand.busy_setG, State.strand_updStrand]
      unfold State.strand
      rw [State.tile_setTile, ← Tile.strand_takeAnswer hm]
      rfl
    · rw [if_neg h0, Strand.busy_setBoard_false _ _ h0]

end

/-- Settles O41: one equation per command. -/
theorem tileTraffic : Obligations.TileTraffic := by
  refine fun a s => ⟨fun tag k m y e hw hk hm => ⟨execIcacheLineFill_fills hw hk hm, execIcacheLineFill_fails hw hk hm⟩,
    fun tag j k m y l p bs g hl hg hps hp ht hk hr hm hb => execLoadReply_completes hl hg hps hp ht hk hr hm hb,
    fun e rest u hsb hb hd => congrArg Host.Outcome.next (State.drainSb_drains hsb hb hd),
    fun place weak torn => ⟨execFillReturn_none, fun k m h => ⟨fun secs => execFillReturn_data h, fun e => execFillReturn_fail h⟩⟩,
    fun k e h => execMergingBufferSend_sends h, fun k m h => execWritebackRefused_records h⟩

end Sys2Proof.Machine
end

section
/-! What memory does with a request, and the way of a request (01, 09). -/

namespace Sys2Proof.Machine

/-! ### What memory does with a request -/

theorem State.get_writeBytes (s : State) (a : Nat) (bs : List Byte) (b : Nat) :
    Sparse.get 0 (s.writeBytes a bs).mem.bytes b =
      if a ≤ b ∧ b < a + bs.length then bs.getD (b - a) 0 else Sparse.get 0 s.mem.bytes b :=
  Sparse.get_setList ..

/-- One masked byte after another, from byte `k` on. -/
theorem State.get_foldl_writeMasked (a : Nat) (m : BitVec 64) (bs : List Byte) (k : Nat) (s : State) (b : Nat) :
    Sparse.get 0 ((bs.zipIdx k).foldl (fun s (c, i) => if m.getLsbD i then s.writeBytes (a + i) [c] else s) s).mem.bytes b =
      if a + k ≤ b ∧ b < a + k + bs.length ∧ m.getLsbD (b - a) = true then bs.getD (b - a - k) 0 else Sparse.get 0 s.mem.bytes b := by
  induction bs generalizing k s with
  | nil =>
    rw [if_neg (by rw [List.length_nil]; omega)]
    rfl
  | cons c bs ih =>
    rw [List.zipIdx_cons, List.foldl_cons, ih, List.length_cons]
    dsimp only
    by_cases hb : b = a + k
    · subst hb
      rw [if_neg (by omega), show a + k - a = k from by omega, Nat.sub_self, List.getD_cons_zero]
      cases hm : m.getLsbD k with
      | true =>
        rw [if_pos rfl, State.get_writeBytes, if_pos (by simp), if_pos ⟨Nat.le_refl _, by omega, rfl⟩, Nat.sub_self]
        rfl
      | false => rw [if_neg (by decide), if_neg (by simp)]
    · have other : Sparse.get 0 (if m.getLsbD k then s.writeBytes (a + k) [c] else s).mem.bytes b = Sparse.get 0 s.mem.bytes b := by
        split
        · rw [State.get_writeBytes, if_neg (by rw [List.length_singleton]; omega)]
        · rfl
      rw [other]
      by_cases hin : a + (k + 1) ≤ b ∧ b < a + (k + 1) + bs.length ∧ m.getLsbD (b - a) = true
      · obtain ⟨h1, h2, h3⟩ := hin
        rw [if_pos ⟨h1, h2, h3⟩, if_pos ⟨by omega, by omega, h3⟩, show b - a - k = b - a - (k + 1) + 1 from by omega, List.getD_cons_succ]
      · rw [if_neg hin, if_neg fun ⟨h1, h2, h3⟩ => hin ⟨by omega, by omega, h3⟩]

/-- A masked write changes the bytes that its mask names, and no other. -/
theorem State.get_writeMasked (s : State) (a : Nat) (m : BitVec 64) {bs : List Byte} (h : bs.length ≤ 64) (b : Nat) :
    Sparse.get 0 (s.writeMasked a m bs).mem.bytes b =
      if a ≤ b ∧ b < a + bs.length ∧ m.getLsbD (b - a) = true then bs.getD (b - a) 0 else Sparse.get 0 s.mem.bytes b := by
  unfold State.writeMasked
  by_cases hm : m = BitVec.allOnes 64
  · rw [if_pos hm, State.get_writeBytes, hm]
    refine if_congr ⟨fun ⟨h1, h2⟩ => ⟨h1, h2, ?_⟩, fun ⟨h1, h2, _⟩ => ⟨h1, h2⟩⟩ rfl rfl
    rw [BitVec.getLsbD_allOnes]
    exact decide_eq_true (by omega)
  · rw [if_neg hm]
    exact State.get_foldl_writeMasked a m bs 0 s b

theorem amoApply_add (old : List Byte) (x y : Word) :
    amoApply 0x14 old x y = (leBytes 8 ((leNat old + x.toNat) % 2 ^ 64), old) := by
  unfold amoApply
  rw [if_pos (by decide)]
  change (leBytes 8 ((leNat old % 2 ^ 64 + x.toNat % 2 ^ 64) % 2 ^ 64), old) = _
  rw [← Nat.add_mod]

theorem State.performBody_add (s : State) (a : Nat) (x y : Word) :
    s.performBody (.atomic a 0x14 x y) =
      (.data [(0, s.bytes a 8)], s.writeBytes a (leBytes 8 ((leNat (s.bytes a 8) + x.toNat) % 2 ^ 64))) := by
  unfold State.performBody
  dsimp only
  rw [show amoTarget 0x14 = 8 from rfl, amoApply_add]

/-- Settles O43: a write byte by byte, and an atomic through the bytes that it writes. -/
theorem memoryPerforms : Obligations.MemoryPerforms := by
  refine fun s => ⟨fun a n => rfl, fun a m bs b h => ⟨rfl, State.get_writeMasked s a m h b⟩, fun a x y => ?_⟩
  rw [State.performBody_add]
  have len := length_leBytes 8 ((leNat (s.bytes a 8) + x.toNat) % 2 ^ 64)
  refine ⟨rfl, ?_, fun b hb => ?_⟩
  · have back := Sparse.getList_setList (0 : Byte) s.mem.bytes a (leBytes 8 ((leNat (s.bytes a 8) + x.toNat) % 2 ^ 64))
    rw [len] at back
    exact back
  · rw [State.get_writeBytes, if_neg (by omega)]

/-! ### The way of a request -/

section
variable {s : State}

section
variable {c : MeshClass} {src : MeshPort} {p : MPacket}

theorem execMeshPacketDeliver_held {t : TileId} (hp : firstPacket s.mesh c src (.tile t) = some p)
    (hf : 4 ≤ ((s.tile t).inbox.filter fun q => q.cls == c).length) : execMeshPacketDeliver c src (.tile t) s = .next s := by
  unfold execMeshPacketDeliver
  rw [hp]
  exact congrArg Host.Outcome.next (if_pos (decide_eq_true hf))

section
variable {t : TileId} (hp : firstPacket s.mesh c src (.tile t) = some p)
  (hf : ((s.tile t).inbox.filter fun q => q.cls == c).length < 4)
include hp hf

theorem execMeshPacketDeliver_credit {m : StackId} (hb : p.body = .credit m) :
    execMeshPacketDeliver c src (.tile t) s = .next (({ s with mesh := s.mesh.erase p } : State).creditBack t m) := by
  unfold execMeshPacketDeliver
  rw [hp]
  refine congrArg Host.Outcome.next ((if_neg fun h => Nat.not_le.mpr hf (of_decide_eq_true h)).trans ?_)
  rw [hb]

theorem execMeshPacketDeliver_answer (hb : ∀ m : StackId, p.body ≠ .credit m) :
    execMeshPacketDeliver c src (.tile t) s =
      .next (({ s with mesh := s.mesh.erase p } : State).updTile t fun x => x.answer p.tag p) := by
  unfold execMeshPacketDeliver
  rw [hp]
  refine congrArg Host.Outcome.next ((if_neg fun h => Nat.not_le.mpr hf (of_decide_eq_true h)).trans ?_)
  cases h : p.body
  case credit m => exact absurd h (hb m)
  all_goals rfl

end

theorem execMeshPacketDeliver_stack {m : StackId} (hp : firstPacket s.mesh c src (.stack m) = some p) :
    execMeshPacketDeliver c src (.stack m) s = .next (({ s with mesh := s.mesh.erase p } : State).setStack m.val
      { s.stackOf m.val with ingress := (s.stackOf m.val).ingress ++ [p] }) := by
  unfold execMeshPacketDeliver
  rw [hp]
  exact congrArg Host.Outcome.next (if_neg Bool.false_ne_true)

end

/-- The credit of request `p` goes back to where it came from (01 R27). -/
def State.giveBack (s : State) (m : StackId) (p : MPacket) : State :=
  { s with mesh := s.mesh ++ [{ p with cls := .response, src := .stack m, dst := p.src, body := .credit m }] }

section
variable {m : StackId} {p : MPacket} {rest : List MPacket} (hi : (s.stackOf m.val).ingress = p :: rest)
include hi

theorem execStackPortAccept_full (hf : s.portFull m.val (s.channelOf p.body.addr) = true ∨
    s.portFull (s.channelOf p.body.addr / 32) (s.channelOf p.body.addr) = true) : execStackPortAccept m s = .next s := by
  unfold execStackPortAccept
  dsimp only
  rw [hi]
  exact congrArg Host.Outcome.next (if_pos (by rw [Bool.or_eq_true]; exact hf))

theorem execStackPortAccept_takes (h1 : s.portFull m.val (s.channelOf p.body.addr) = false)
    (h2 : s.portFull (s.channelOf p.body.addr / 32) (s.channelOf p.body.addr) = false) :
    execStackPortAccept m s = .next (((s.setStack m.val { s.stackOf m.val with ingress := rest }).enterTailband p).giveBack m p) := by
  unfold execStackPortAccept
  dsimp only
  rw [hi]
  exact congrArg Host.Outcome.next (if_neg (by rw [h1, h2]; decide))

end

theorem State.enterTailband_queue {p : MPacket} (h : (s.chan (s.channelOf p.body.addr)).quiet = false) :
    s.enterTailband p = s.setChan (s.channelOf p.body.addr)
      { s.chan (s.channelOf p.body.addr) with queue := (s.chan (s.channelOf p.body.addr)).queue ++ [p] } := by
  unfold State.enterTailband
  exact if_neg (ne_true_of_eq_false h)

theorem State.enterTailband_held {p : MPacket} (h : (s.chan (s.channelOf p.body.addr)).quiet = true) :
    s.enterTailband p = s.setStack (s.channelOf p.body.addr / 32) { s.stackOf (s.channelOf p.body.addr / 32) with
      held := (s.stackOf (s.channelOf p.body.addr / 32)).held ++ [(s.channelOf p.body.addr, p)] } := by
  unfold State.enterTailband
  exact if_pos h

section
variable {c : ChannelId} {u : Nat}

theorem execMemoryRequest_closed (h : s.mem.isOpen = false ∨ (s.chan c.val).quiet = true) : execMemoryRequest c u .ok s = .next s := by
  unfold execMemoryRequest
  exact if_pos (by rcases h with h | h <;> simp [h])

variable (ho : s.mem.isOpen = true) (hq : (s.chan c.val).quiet = false)
include ho hq

theorem execMemoryRequest_open {t : State}
    (ht : (if (s.stackOf (c.val / 32)).level ≤ (s.chan c.val).slot % 8 then
        s.setChan c.val { s.chan c.val with slot := (s.chan c.val).slot + 1 }
      else match s.choose c.val with
        | none => s.setChan c.val { s.chan c.val with slot := (s.chan c.val).slot + 1 }
        | some (i, p) => (s.setChan c.val { s.chan c.val with slot := (s.chan c.val).slot + 1 }).serve c.val i p) = t) :
    execMemoryRequest c u .ok s = .next t := by
  unfold execMemoryRequest
  refine (if_neg ?_).trans (congrArg Host.Outcome.next (Eq.trans ?_ ht))
  · change ¬ (!s.mem.isOpen || (s.chan c.val).quiet) = true
    rw [ho, hq]
    decide
  · rfl

end

theorem State.serve_performs {c : ChannelId} {i : Nat} {p : MPacket} {b : Body} {u : State} (hc : s.channelOf p.body.addr = c.val)
    (hr : (s.setChan c.val ((s.chan c.val).take i)).refuses p.quire p.isSeal p.copy p.body.addr = none)
    (hb : ((s.setChan c.val ((s.chan c.val).take i)).chargeBody (c.val / 32) p.quire p.body).perform p.quire p.isSeal p.copy p.body = (b, u)) :
    s.serve c.val i p = { u with
      mesh := u.mesh ++ [{ p with cls := .response, src := .stack (stackOfChan c.val), dst := p.src, body := b }] } := by
  have place : (stackOfChan c.val).val = c.val / 32 := Nat.mod_eq_of_lt (by have := c.isLt; omega)
  unfold State.serve
  dsimp only
  rw [hc, if_neg (by simp), if_neg (by simp), hr, if_pos (by rfl), place, hb]

section
variable {t : TileId} {k : Nat} {w : Walk} (hw : (s.tile t).walks[k]? = some w) (hf : w.failed = none)
include hw hf

theorem execPageWalkRead_asks (ha : w.wait = none) :
    execPageWalkRead t k s = .next ((s.ask t 0 .walk 0 (w.table + pteOffset w.level w.page) false
      (.read (w.table + pteOffset w.level w.page) 8)).2.updTile t fun x => x.setWalk w.page fun v =>
        some { v with wait := some s.nextTag }) := by
  unfold execPageWalkRead
  dsimp only
  rw [hw]
  refine congrArg Host.Outcome.next ((if_neg (by simp [hf])).trans ?_)
  rw [ha]
  rfl

variable {tag : Nat} {m : MPacket} {y : Tile} (ha : w.wait = some tag) (hm : (s.tile t).takeAnswer tag = some (m, y))
include ha hm

theorem execPageWalkRead_fails {f : Fail} (hb : m.body = .fail f) :
    execPageWalkRead t k s = .next ((s.setTile t y).failWalk t w f.code f.check none) := by
  unfold execPageWalkRead
  dsimp only
  rw [hw]
  refine congrArg Host.Outcome.next ((if_neg (by simp [hf])).trans ?_)
  rw [ha]
  dsimp only
  rw [hm]
  dsimp only
  rw [hb]

theorem execPageWalkRead_data {bs : List Byte} (hb : m.body = .data [(0, bs)]) {t' : State}
    (ht : (match walkOn (s.setTile t y) (s.tile t).quire.toNat w.page w.level (leNat bs) with
      | .next b => (s.setTile t y).updTile t fun x => x.setWalk w.page fun v =>
          some { v with level := v.level + 1, table := b, wait := none }
      | .fail c i l => (s.setTile t y).failWalk t w c i l
      | .done e => (s.setTile t y).endWalk t w e) = t') : execPageWalkRead t k s = .next t' := by
  have bytes : bodyBytes (.data [(0, bs)]) = bs := by simp [bodyBytes]
  unfold execPageWalkRead
  dsimp only
  rw [hw]
  refine congrArg Host.Outcome.next ((if_neg (by simp [hf])).trans ?_)
  rw [ha]
  dsimp only
  rw [hm]
  dsimp only
  rw [hb]
  dsimp only
  rw [bytes]
  exact ht

end

end

/-- Settles O42: the mesh, the stack port, the channel and the walk, one equation per case. -/
theorem memoryRequestPath : Obligations.MemoryRequestPath := by
  refine fun s => ⟨fun c src t p hp => ⟨fun hf => ⟨fun m => execMeshPacketDeliver_credit hp hf, execMeshPacketDeliver_answer hp hf⟩,
      execMeshPacketDeliver_held hp⟩, fun c src m p => execMeshPacketDeliver_stack,
    fun m p rest hi => ⟨execStackPortAccept_full hi, fun h1 h2 => ⟨fun hq => ?_, fun hq => ?_⟩⟩,
    fun c u => ⟨execMemoryRequest_closed, fun ho hq hl => execMemoryRequest_open ho hq (if_pos hl), fun i p ho hq hl hc => ?_,
      fun e he => ?_⟩, fun c i p b u hc hr hb => State.serve_performs hc hr hb,
    fun t k w hw hf => ⟨execPageWalkRead_asks hw hf, fun tag m y ha hm => ⟨fun f => execPageWalkRead_fails hw hf ha hm,
      fun bs hb => ⟨fun b hd hy => ?_, fun e hd hy => ?_⟩⟩⟩⟩
  · refine (execStackPortAccept_takes hi h1 h2).trans (congrArg (fun u : State => Host.Outcome.next (u.giveBack m p)) ?_)
    exact State.enterTailband_queue (s := s.setStack m.val { s.stackOf m.val with ingress := rest }) hq
  · refine (execStackPortAccept_takes hi h1 h2).trans (congrArg (fun u : State => Host.Outcome.next (u.giveBack m p)) ?_)
    exact State.enterTailband_held (s := s.setStack m.val { s.stackOf m.val with ingress := rest }) hq
  · refine execMemoryRequest_open ho hq ((if_neg (Nat.not_le.mpr hl)).trans ?_)
    rw [hc]
  · change execMemoryRequest c u e s = execMemoryRequest c u .ok (s.strike u e)
    unfold execMemoryRequest
    rw [if_neg he, if_pos rfl]
  · refine execPageWalkRead_data hw hf ha hm hb ?_
    rw [← hy, hd]
  · refine execPageWalkRead_data hw hf ha hm hb ?_
    rw [← hy, hd]

end Sys2Proof.Machine
end

section
/-! Spans of memory, and the commands READ and WRITE (09, 12). -/

namespace Sys2Proof.Machine

/-! ### Spans of memory that an exchange die reads and writes -/

theorem State.mem_chargeSpan (s : State) (q a n k : Nat) : (s.chargeSpan q a n k).mem = s.mem := by
  unfold State.chargeSpan
  dsimp only
  rw [State.payEnergy_mem, State.count_mem]
  exact State.mem_foldl_setStack id _ _ s

/-- Units without an error are met without a change. -/
theorem State.meet_clean {s : State} {p : Nat → Bool} (h : ∀ e ∈ s.mem.errs, p e.1 = false) : s.meet p = (false, s) := by
  have none : s.mem.errs.filter (fun e => p e.1) = [] := List.filter_eq_nil_iff.mpr fun e he => by simp [h e he]
  unfold State.meet
  rw [none]
  rfl

section
variable {s : State} {q a : Nat} {isSeal copy : Bool}

section
variable {n : Nat}

theorem State.readSpan_refused {f : Fail} (h : s.spanRefused q isSeal copy a n = some f) :
    s.readSpan q isSeal copy a n = (.error f, s) := by
  unfold State.readSpan
  rw [h]

variable (h : s.spanRefused q isSeal copy a n = none)
include h

theorem State.readSpan_bad {v : State} (hm : (s.chargeSpan q a n 1).meet ((unitsOf a n).contains ·) = (true, v)) :
    s.readSpan q isSeal copy a n = (.error { code := cMemory, check := 0 }, v) := by
  unfold State.readSpan
  rw [h]
  dsimp only
  rw [hm]

theorem State.readSpan_clean (he : ∀ e ∈ s.mem.errs, e.1 ∉ unitsOf a n) :
    s.readSpan q isSeal copy a n = (.ok (s.bytes a n), s.chargeSpan q a n 1) := by
  have clean : (s.chargeSpan q a n 1).meet ((unitsOf a n).contains ·) = (false, s.chargeSpan q a n 1) :=
    State.meet_clean fun e hx => by simpa using he e (by rwa [State.mem_chargeSpan] at hx)
  unfold State.readSpan
  rw [h]
  dsimp only
  rw [clean]
  dsimp only
  unfold State.bytes
  rw [State.mem_chargeSpan]

end

variable {bs : List Byte}

theorem State.writeSpan_refused {f : Fail} (h : s.spanRefused q isSeal copy a bs.length = some f) :
    s.writeSpan q isSeal copy a bs = (some f, s) := by
  unfold State.writeSpan
  rw [h]

theorem State.writeSpan_clean (h : s.spanRefused q isSeal copy a bs.length = none)
    (he : ∀ e ∈ s.mem.errs, e.1 ∉ unitsOf a bs.length) :
    s.writeSpan q isSeal copy a bs = (none, (s.chargeSpan q a bs.length 1).writeBytes a bs) := by
  have clean : (s.chargeSpan q a bs.length 1).meet (fun u => (unitsOf a bs.length).contains u && !unitIn a bs.length u) =
      (false, s.chargeSpan q a bs.length 1) :=
    State.meet_clean fun e hx => by
      have out : e.1 ∉ unitsOf a bs.length := he e (by rwa [State.mem_chargeSpan] at hx)
      simp [out]
  unfold State.writeSpan
  rw [h]
  dsimp only
  rw [clean]

end

/-- What is written at a place reads back. -/
theorem State.bytes_writeBytes (s : State) (a : Nat) (bs : List Byte) : (s.writeBytes a bs).bytes a bs.length = bs :=
  Sparse.getList_setList ..

/-! ### WRITE goes region by region -/

section
variable {s : State} {q k a : Nat} {bs : List Byte}

theorem State.hostWrite_nil : s.hostWrite q k a [] = (none, s) := by
  cases k <;> rfl

/-- One region of a host write. -/
theorem State.hostWrite_refused (hb : bs ≠ []) {m : Nat} (hm : min bs.length (2 ^ 21 - a % 2 ^ 21) = m) {f : Fail} {v : State}
    (hw : s.writeSpan q false false a (bs.take m) = (some f, v)) : s.hostWrite q (k + 1) a bs = (some (failStatus f), v) := by
  subst hm
  rw [State.hostWrite, if_neg (by simpa using hb)]
  dsimp only
  rw [hw]

theorem State.hostWrite_next (hb : bs ≠ []) {m : Nat} (hm : min bs.length (2 ^ 21 - a % 2 ^ 21) = m) {v : State}
    (hw : s.writeSpan q false false a (bs.take m) = (none, v)) : s.hostWrite q (k + 1) a bs = v.hostWrite q k (a + m) (bs.drop m) := by
  subst hm
  rw [State.hostWrite, if_neg (by simpa using hb)]
  dsimp only
  rw [hw]

section
variable (hb : bs ≠ []) (hin : a % 2 ^ 21 + bs.length ≤ 2 ^ 21)
include hb hin

theorem State.hostWrite_one_refused {f : Fail} {v : State} (hw : s.writeSpan q false false a bs = (some f, v)) :
    s.hostWrite q (k + 1) a bs = (some (failStatus f), v) :=
  State.hostWrite_refused hb (Nat.min_eq_left (by omega)) (by rwa [List.take_length])

theorem State.hostWrite_one {v : State} (hw : s.writeSpan q false false a bs = (none, v)) : s.hostWrite q (k + 1) a bs = (none, v) := by
  rw [State.hostWrite_next hb (Nat.min_eq_left (by omega)) (by rwa [List.take_length]), List.drop_length, State.hostWrite_nil]

end

/-- A range that meets two regions: what is left after the first lies in the second. -/
theorem drop_in_region {m : Nat} (hm : 2 ^ 21 - a % 2 ^ 21 = m) (hl : bs.length ≤ 65536) :
    (a + m) % 2 ^ 21 + (bs.drop m).length ≤ 2 ^ 21 := by
  have start : (a + m) % 2 ^ 21 = 0 := by omega
  rw [start, List.length_drop]
  omega

end

/-! ### READ and WRITE -/

section
variable {c : Hdr} {x : Session} {addr : Nat} {s : State}

section
variable {len : Nat} (h : s.admits c x 0x0301 = true)
include h

theorem read_too_long (hl : 65536 < len) : exec (.read c addr len) s = .next ((s.opened c x).answer c 0x0301 stBadParam []) :=
  congrArg Host.Outcome.next (State.command_done h (if_pos hl))

variable (hl : len ≤ 65536)
include hl

theorem read_fails {f : Fail} {v : State} (hr : (s.opened c x).readSpan c.quire false false addr len = (.error f, v)) :
    exec (.read c addr len) s = .next (v.answer c 0x0301 (failStatus f).1 (detail (failStatus f).2)) := by
  refine congrArg Host.Outcome.next (State.command_done h ((if_neg (Nat.not_lt.mpr hl)).trans ?_))
  rw [hr]

theorem read_answers {bs : List Byte} {v : State} (hr : (s.opened c x).readSpan c.quire false false addr len = (.ok bs, v)) :
    exec (.read c addr len) s = .next (v.answer c 0x0301 stOk (pages 0x81 65535 2 (bs.map (·.toNat)))) := by
  refine congrArg Host.Outcome.next (State.command_done h ((if_neg (Nat.not_lt.mpr hl)).trans ?_))
  rw [hr]

end

section
variable {bytes : List Byte} (h : s.admits c x 0x0302 = true) (hl : bytes.length ≤ 65536)
include h hl

theorem write_fails {f : Fail} {v : State}
    (hw : (s.opened c x).hostWrite c.quire (regionsIn bytes.length) addr bytes = (some (failStatus f), v)) :
    exec (.write c addr bytes) s = .next (v.answer c 0x0302 (failStatus f).1 (detail (failStatus f).2)) := by
  refine congrArg Host.Outcome.next (State.command_done h ((if_neg (Nat.not_lt.mpr hl)).trans ?_))
  rw [hw]

theorem write_done {v : State} (hw : (s.opened c x).hostWrite c.quire (regionsIn bytes.length) addr bytes = (none, v)) :
    exec (.write c addr bytes) s = .next (v.answer c 0x0302 stOk []) := by
  refine congrArg Host.Outcome.next (State.command_done h ((if_neg (Nat.not_lt.mpr hl)).trans ?_))
  rw [hw]

end
end

/-- Settles O54: by what a span answers when it is refused, has an error, and has none; a write region by region. -/
theorem hostReadsAndWrites : Obligations.HostReadsAndWrites := by
  refine fun c x addr s => ⟨fun len h => ⟨read_too_long h, fun hl => ⟨fun f hf => read_fails h hl (State.readSpan_refused hf),
      fun hn he => ⟨_, read_answers h hl (State.readSpan_clean hn he), congrArg Mem.bytes (State.mem_chargeSpan ..)⟩,
      fun v hn hm => read_fails h hl (State.readSpan_bad hn hm)⟩⟩,
    fun bytes h hl hb => ⟨fun hin => ⟨fun f hf => ?_, fun hn he => ?_⟩, fun v hlt hv => ⟨fun f w hw => ?_, fun w hw => ?_⟩⟩⟩
  · exact write_fails h hl (State.hostWrite_one_refused hb hin (State.writeSpan_refused hf))
  · refine ⟨_, write_done h hl (State.hostWrite_one hb hin (State.writeSpan_clean hn he)), State.bytes_writeBytes .., fun b hout => ?_⟩
    rw [State.get_writeBytes, if_neg (by omega), State.mem_chargeSpan]
    rfl
  all_goals
    have first := State.hostWrite_next (k := bytes.length / 2 ^ 21 + 1) hb (Nat.min_eq_right (Nat.le_of_lt hlt)) hv
    have rest : bytes.drop (2 ^ 21 - addr % 2 ^ 21) ≠ [] := by
      rw [Ne, List.drop_eq_nil_iff]
      exact Nat.not_le.mpr hlt
  · exact write_fails h hl (first.trans (State.hostWrite_one_refused rest (drop_in_region rfl hl) hw))
  · exact write_done h hl (first.trans (State.hostWrite_one rest (drop_in_region rfl hl) hw))

end Sys2Proof.Machine
end

section
/-! Bulk transfers (12). -/

namespace Sys2Proof.Machine

/-! ### Opening a bulk transfer -/

/-- The parameters of a transfer are legal, and the limits leave it room (12 R322). -/
def State.bulkFits (s : State) (session maxPayload : Nat) (dev : Bool) (len : Nat) (p : BulkParams) : Prop :=
  let n := p.chunk.getD 8192
  let w := p.window.getD 1024
  1024 ≤ n ∧ n ≤ 8192 ∧ n % 1024 = 0 ∧ 16 ≤ w ∧ w ≤ 4096 ∧ len ≠ 0 ∧ (dev = true → n + 48 ≤ maxPayload) ∧
    (s.net.bulks.filter (·.session == session)).length < 32 ∧ s.net.bulks.length < 256

/-- The transfer that a command of session `x` opens. -/
def State.newBulk (s : State) (c : Hdr) (x : Session) (quire : Nat) (use : BulkUse) (dev : Bool) (addr len : Nat) (p : BulkParams) : Bulk :=
  { xid := s.net.nextXid, session := c.session, quire := quire, use := use, fromDevice := dev, addr := addr, len := len
    chunk := p.chunk.getD 8192, window := p.window.getD 1024, mask := p.mask.getD 0xFF, hostA := p.hostA.or x.sourceA
    hostB := p.hostB.or x.sourceB, got := [], sent := [], missed := [], unacked := 0, serial := 0, data := [] }

/-- The state with transfer `b` open. -/
def State.withBulk (s : State) (b : Bulk) : State :=
  { s with net := { s.net with nextXid := s.net.nextXid + 1, bulks := s.net.bulks ++ [b] } }

theorem State.openBulk_opens {s : State} {c : Hdr} {x : Session} {quire : Nat} {use : BulkUse} {dev : Bool} {addr len : Nat} {p : BulkParams}
    (h : s.bulkFits c.session x.maxPayload dev len p) :
    s.openBulk c x quire use dev addr len p = .pend stPending [{ type := 0x81, vals := [s.net.nextXid] }] (.bulk s.net.nextXid)
      (s.withBulk (s.newBulk c x quire use dev addr len p)) := by
  obtain ⟨h1, h2, h3, h4, h5, h6, h7, h8, h9⟩ := h
  unfold State.openBulk
  dsimp only
  refine (if_neg ?_).trans ((if_neg ?_).trans rfl)
  · cases dev with
    | false => simp [h3, h6]; omega
    | true =>
      have hn := h7 rfl
      simp [h3, h6]
      omega
  · simp
    omega

section
variable {s : State} {c : Hdr} {x : Session} {op : Nat} {run : State → Session → Res} (h : s.admits c x op = true)
include h

/-- What a command answers that opens a transfer: its number, and then the device's own chunks. -/
theorem State.bulkCommand_opens {t : State} (e : run (s.opened c x) (x.takes c) =
      .pend stPending [{ type := 0x81, vals := [s.net.nextXid] }] (.bulk s.net.nextXid) t) :
    s.bulkCommand c op run =
      (t.defer c op stPending [{ type := 0x81, vals := [s.net.nextXid] }] (.bulk s.net.nextXid)).pump s.net.nextXid := by
  unfold State.bulkCommand
  rw [State.command_pend h e]

theorem State.bulkCommand_done {t : State} {st : Nat} {tlvs : List Tlv} (e : run (s.opened c x) (x.takes c) = .done st tlvs t) :
    s.bulkCommand c op run = (t.answer c op st tlvs).pump s.net.nextXid := by
  unfold State.bulkCommand
  rw [State.command_done h e]

end

section
variable {s : State} {c : Hdr} {x : Session}

section
variable {p : LoadReq} (h : s.admits c x 0x0300 = true)
include h

theorem load_bad_kind (hk : 2 < p.kind) : exec (.load c p) s = .next (((s.opened c x).answer c 0x0300 stBadParam []).pump s.net.nextXid) :=
  congrArg Host.Outcome.next (State.bulkCommand_done h (if_pos hk))

theorem load_opens (hk : p.kind ≤ 2)
    (hl : p.kind < 2 → p.digest.isSome = true ∧ (s.quire c.quire).loads + (s.opened c x).openLoads c.quire < 2048 ∧
      (s.quire c.quire).entries + (s.opened c x).openLoads c.quire < 4096)
    (hf : (s.opened c x).bulkFits c.session (x.takes c).maxPayload false p.len p.bulk) :
    exec (.load c p) s = .next ((((s.opened c x).withBulk ((s.opened c x).newBulk c (x.takes c) c.quire (.load p.kind p.digest) false
      p.addr p.len p.bulk)).defer c 0x0300 stPending [{ type := 0x81, vals := [s.net.nextXid] }] (.bulk s.net.nextXid)).pump
        s.net.nextXid) := by
  refine congrArg Host.Outcome.next (State.bulkCommand_opens h ?_)
  refine (if_neg (Nat.not_lt.mpr hk)).trans ((if_neg ?_).trans ((if_neg ?_).trans (State.openBulk_opens hf)))
  · rintro ⟨h2, hd⟩
    obtain ⟨hsome, -⟩ := hl h2
    rw [Option.isNone_iff_eq_none] at hd
    rw [hd] at hsome
    exact Bool.false_ne_true hsome
  · rintro ⟨h2, hfull⟩
    obtain ⟨-, hloads, hentries⟩ := hl h2
    rw [State.quire_opened] at hfull
    omega

end

section
variable {p : BulkReq} (h : s.admits c x 0x0303 = true)
include h

theorem bulkopen_busy {f : Freeze} (hf : s.survive.freeze = some f) (hq : f.quire = c.quire) (hd : p.fromDevice = false) :
    exec (.bulkopen c p) s = .next (((s.opened c x).answer c 0x0303 stBusy []).pump s.net.nextXid) := by
  refine congrArg Host.Outcome.next (State.bulkCommand_done h ?_)
  dsimp only
  rw [State.survive_opened, hf, hd]
  exact if_pos (by simp [hq])

theorem bulkopen_opens (hd : s.survive.freeze = none ∨ p.fromDevice = true)
    (hf : (s.opened c x).bulkFits c.session (x.takes c).maxPayload p.fromDevice p.len p.bulk) :
    exec (.bulkopen c p) s = .next ((((s.opened c x).withBulk ((s.opened c x).newBulk c (x.takes c) c.quire .memory p.fromDevice
      p.addr p.len p.bulk)).defer c 0x0303 stPending [{ type := 0x81, vals := [s.net.nextXid] }] (.bulk s.net.nextXid)).pump
        s.net.nextXid) := by
  refine congrArg Host.Outcome.next (State.bulkCommand_opens h ((if_neg ?_).trans (State.openBulk_opens hf)))
  rw [State.survive_opened]
  rcases hd with hd | hd <;> simp [hd]

end

theorem groupsave_opens {b : BulkParams} (h : s.admits c x 0x0705 = true) {q : Option Nat}
    (hr : (match x.role with | .quire q => some q | _ => none) = q)
    (hf : (s.opened c x).bulkFits c.session (x.takes c).maxPayload true (2 ^ 19) b) :
    exec (.groupsave c b) s = .next ((((s.opened c x).withBulk ((s.opened c x).newBulk c (x.takes c) c.quire (.groups q) true
      0 (2 ^ 19) b)).defer c 0x0705 stPending [{ type := 0x81, vals := [s.net.nextXid] }] (.bulk s.net.nextXid)).pump s.net.nextXid) := by
  subst hr
  exact congrArg Host.Outcome.next (State.bulkCommand_opens h (State.openBulk_opens hf))

section
variable {q : Nat} {b : BulkParams} (h : s.admits c x 0x0706 = true) (hq : q < 16)
include h hq

theorem grouprestore_busy (hb : s.net.bulks.any (fun o => !o.fromDevice && o.use == .groups (some q)) = true) :
    exec (.grouprestore c q b) s = .next (((s.opened c x).answer c 0x0706 stBusy []).pump s.net.nextXid) :=
  congrArg Host.Outcome.next (State.bulkCommand_done h ((if_neg (Nat.not_le.mpr hq)).trans (if_pos hb)))

theorem grouprestore_opens (hb : s.net.bulks.any (fun o => !o.fromDevice && o.use == .groups (some q)) = false)
    (hg : (s.opened c x).quireGate x.role 0x0706 q = none)
    (hf : (s.opened c x).bulkFits c.session (x.takes c).maxPayload false (2 ^ 19) b) :
    exec (.grouprestore c q b) s = .next ((((s.opened c x).withBulk ((s.opened c x).newBulk c (x.takes c) q (.groups (some q)) false
      0 (2 ^ 19) b)).defer c 0x0706 stPending [{ type := 0x81, vals := [s.net.nextXid] }] (.bulk s.net.nextXid)).pump s.net.nextXid) := by
  refine congrArg Host.Outcome.next (State.bulkCommand_opens h ?_)
  refine (if_neg (Nat.not_le.mpr hq)).trans ((if_neg (ne_true_of_eq_false hb)).trans ?_)
  rw [show (s.opened c x).quireGate (x.takes c).role 0x0706 q = none from hg]
  exact State.openBulk_opens hf

end

section
variable {len : Nat} {image : FwImage} {b : BulkParams} (h : s.admits c x 0x0A00 = true)
include h

theorem fwstage_busy (hb : s.net.bulks.any (fun o => match o.use with | .firmware _ => true | _ => false) = true) :
    exec (.fwstage c len image b) s = .next (((s.opened c x).answer c 0x0A00 stBusy []).pump s.net.nextXid) :=
  congrArg Host.Outcome.next (State.bulkCommand_done h (if_pos hb))

theorem fwstage_opens (hb : s.net.bulks.any (fun o => match o.use with | .firmware _ => true | _ => false) = false)
    (hf : (s.opened c x).bulkFits c.session (x.takes c).maxPayload false len b) :
    (let v := (s.opened c x).withBulk ((s.opened c x).newBulk c (x.takes c) 0xFF (.firmware image) false 0 len b)
     exec (.fwstage c len image b) s = .next (((({ v with flash := { v.flash with staged := none, verified := false } } :
       State).setInactive { FwSlot.reset with valid := false }).defer c 0x0A00 stPending [{ type := 0x81, vals := [s.net.nextXid] }]
         (.bulk s.net.nextXid)).pump s.net.nextXid)) := by
  refine congrArg Host.Outcome.next (State.bulkCommand_opens h ?_)
  refine (if_neg (ne_true_of_eq_false hb)).trans ?_
  rw [State.openBulk_opens hf]
  rfl

end

section
variable {xid : Nat} {b : Bulk} (hb : s.bulk xid = some b) (hs : b.session = c.session)
include hb hs

theorem bulkstatus_answers (h : s.admits c x 0x0304 = true) : exec (.bulkstatus c xid) s = .next ((s.opened c x).answer c 0x0304 stOk
    [{ type := 0x81, vals := [1] }, { type := 0x82, vals := [b.got.length] }]) := by
  refine congrArg Host.Outcome.next (State.command_done h ?_)
  rw [State.bulk_opened, hb]
  exact if_neg (not_not.mpr hs)

theorem bulkcancel_ends (h : s.admits c x 0x0305 = true) :
    exec (.bulkcancel c xid) s = .next (((s.opened c x).endBulk b stFailed 2 []).answer c 0x0305 stOk []) := by
  refine congrArg Host.Outcome.next (State.command_done h ?_)
  rw [State.bulk_opened, hb]
  exact if_neg (not_not.mpr hs)

end
end

/-! ### Packets and timers of a transfer -/

section
variable {s : State} {xid : Nat} {b : Bulk}

section
variable (hb : s.bulk xid = some b)
include hb

theorem execBulkPeerTimeout_ends : execBulkPeerTimeout xid s = .next (s.endBulk b stLost 0 []) := by
  unfold execBulkPeerTimeout
  rw [hb]

theorem execBulkAbort_closes (st d : BitVec 16) : execBulkAbort xid b.session st d s = .next (s.closeBulk b st.toNat d.toNat) := by
  unfold execBulkAbort
  rw [hb]
  exact congrArg Host.Outcome.next (if_neg (not_not.mpr rfl))

theorem execBulkDone_closes (hd : b.fromDevice = true) (st d : BitVec 16) :
    execBulkDone xid b.session st d s = .next (s.closeBulk b st.toNat d.toNat) := by
  unfold execBulkDone
  rw [hb]
  exact congrArg Host.Outcome.next (if_neg (by simp [hd]))

theorem execBulkResendTimeout_resends (hd : b.fromDevice = true) : execBulkResendTimeout xid s =
    .next ((((b.sent.map (·.1)).filter fun k => !b.got.contains k).foldl (fun s k => s.resendChunk xid k) s).pump xid) := by
  unfold execBulkResendTimeout State.resendAll
  rw [hb]
  exact congrArg Host.Outcome.next (if_neg (by simp [hd]))

end

/-- No chunk waits: nothing is taken again. -/
theorem State.retryChunks_none (h : s.net.chunks = []) : s.retryChunks = s := by
  have same : ({ s with net := { s.net with chunks := [] } } : State) = s := by rw [← h]
  unfold State.retryChunks
  rw [h, same]
  rfl

theorem execBulkAckTimer_acknowledges (hb : s.bulk xid = some b) {y : Session} (hc : s.net.chunks = [])
    (hy : s.session b.session = some y) (hd : b.fromDevice = false) (hu : b.unacked ≠ 0) :
    execBulkAckTimer xid s = .next (s.acknowledge xid ((s.noticePort y).getD y.port)) := by
  unfold execBulkAckTimer
  rw [State.retryChunks_none hc]
  dsimp only
  rw [hb]
  dsimp only
  rw [hy]
  exact congrArg Host.Outcome.next (if_neg (by simp [hd, hu]))

end

section
variable {p : BulkData} {b : Bulk} {s : State}

theorem execBulkData_badTag (hu : (s.eth p.port.val).isUp = true) (ht : p.tagOk = false) :
    execBulkData p s = .next (s.badTag p.port.val) :=
  congrArg Host.Outcome.next ((if_neg (by simp [hu])).trans (if_pos (by simp [ht])))

/-- A chunk of transfer `b` that is well formed comes in over a port that is up. -/
structure State.TakesChunk (s : State) (p : BulkData) (b : Bulk) : Prop where
  isUp : (s.eth p.port.val).isUp = true
  tag : p.tagOk = true
  bulk : s.bulk p.xid = some b
  toDevice : b.fromDevice = false
  session : b.session = p.session
  chunk : p.chunk < b.chunks
  length : p.bytes.length = b.chunkLen p.chunk

variable (h : s.TakesChunk p b)
include h

theorem execBulkData_takes : execBulkData p s = .next (if (s.chunkWaits b p.chunk && !b.got.contains p.chunk) = true then
    (let t : State := { s with net := { s.net with chunks := s.net.chunks ++ [p] } }
     if (!s.net.chunks.any fun o => o.port == p.port) = true then t.send (.pfc p.port.val true) else t)
    else s.performChunk b p) := by
  refine congrArg Host.Outcome.next ((if_neg (by simp [h.isUp])).trans ((if_neg (by simp [h.tag])).trans ?_))
  unfold State.takeChunk
  rw [h.bulk]
  dsimp only
  rw [if_neg (by simp [h.toDevice, h.session, h.chunk, h.length])]

theorem execBulkData_waits (hg : b.got.contains p.chunk = false) (hw : s.chunkWaits b p.chunk = true) :
    (let t : State := { s with net := { s.net with chunks := s.net.chunks ++ [p] } }
     execBulkData p s = .next (if s.net.chunks.any (fun o => o.port == p.port) then t else t.send (.pfc p.port.val true))) := by
  rw [execBulkData_takes h, hg, hw]
  dsimp only
  rw [if_pos (by rfl)]
  cases s.net.chunks.any fun o => o.port == p.port <;> rfl

theorem execBulkData_performs (hg : s.chunkWaits b p.chunk = true → b.got.contains p.chunk = true) :
    execBulkData p s = .next (s.performChunk b p) := by
  rw [execBulkData_takes h]
  refine congrArg Host.Outcome.next (if_neg ?_)
  rw [Bool.and_eq_true, Bool.not_eq_true']
  exact fun ⟨hw, hn⟩ => ne_true_of_eq_false hn (hg hw)

/-- A chunk that is there already counts towards the next acknowledgement. -/
theorem State.performChunk_again (hg : b.got.contains p.chunk = true) (hc : b.complete = false) (hu : b.unacked + 1 < 32) :
    s.performChunk b p = s.setBulk { b with unacked := b.unacked + 1 } := by
  unfold State.performChunk
  dsimp only
  rw [hg, if_neg (by decide)]
  dsimp only
  rw [h.bulk]
  exact (if_neg (ne_true_of_eq_false hc)).trans ((if_neg (Nat.not_le.mpr hu)).trans rfl)

omit h in
theorem State.performChunk_fails {st d : Nat} {v : State} (hg : b.got.contains p.chunk = false)
    (hl : s.landChunk b p.chunk p.bytes = (some (st, d), v)) : s.performChunk b p = v.endBulk b st d [] := by
  unfold State.performChunk
  dsimp only
  rw [hg, if_pos (by rfl), hl]

omit h in
/-- A new chunk that lands is noted; the last one ends the transfer, and the 32nd is acknowledged. -/
theorem State.performChunk_lands {k : Bulk} {v : State} (hg : b.got.contains p.chunk = false)
    (hl : s.landChunk b p.chunk p.bytes = (none, v)) (hv : v.bulk p.xid = some k) :
    s.performChunk b p = (let n : Bulk := { k with got := p.chunk :: k.got, unacked := k.unacked + 1 }
      if n.complete then ((v.setBulk n).acknowledge n.xid p.port.val).wholeBulk n
      else if 32 ≤ n.unacked then (v.setBulk n).acknowledge n.xid p.port.val else v.setBulk n) := by
  unfold State.performChunk
  dsimp only
  rw [hg, if_pos (by rfl), hl]
  dsimp only
  rw [hv]
  rfl

end

section
variable {s : State} {b : Bulk} {kind : Nat} {want : Option Nat} (hu : b.use = .load kind want) (hk : kind < 2)
include hu hk

theorem State.wholeBulk_mismatch (hw : want ≠ some (Config.sha384 (Sparse.getList 0 b.data 0 b.len))) :
    s.wholeBulk b = s.endBulk b stFailed 1 [{ type := 0x82, vals := [Config.sha384 (Sparse.getList 0 b.data 0 b.len)] }] := by
  unfold State.wholeBulk
  rw [hu]
  exact (if_neg (Nat.not_le.mpr hk)).trans (if_pos hw)

theorem State.wholeBulk_measured (hw : want = some (Config.sha384 (Sparse.getList 0 b.data 0 b.len))) :
    s.wholeBulk b = (s.updQuire b.quire fun q => { q with
      log := q.log ++ [{ kind := kind + 1, addr := b.addr, len := b.len, digest := Config.sha384 (Sparse.getList 0 b.data 0 b.len) }] }).endBulk
        b stOk 0 [{ type := 0x82, vals := [Config.sha384 (Sparse.getList 0 b.data 0 b.len)] }] := by
  unfold State.wholeBulk
  rw [hu]
  exact (if_neg (Nat.not_le.mpr hk)).trans (if_neg (not_not.mpr hw))

end

theorem execBulkAcknowledgement_takes {p : BulkAck} {b : Bulk} {s : State} (hup : (s.eth p.port.val).isUp = true) (ht : p.tagOk = true)
    (hb : s.bulk p.xid = some b) (hd : b.fromDevice = true) (hs : b.session = p.session) :
    execBulkAcknowledgement p s = .next (if (b.acked p).complete then (s.setBulk (b.acked p)).endBulk (b.acked p) stOk 0 []
      else ((((b.acked p).missed.filter fun e => decide (3 ≤ e.2) && !(b.acked p).got.contains e.1).map (·.1)).foldl
        (fun s k => s.resendChunk b.xid k) (s.setBulk (b.acked p))).pump b.xid) := by
  refine congrArg Host.Outcome.next ((if_neg (by simp [hup])).trans ((if_neg (by simp [ht])).trans ?_))
  rw [hb]
  exact if_neg (by simp [hd, hs])

/-- Settles O55: each command, packet and timer by what it finds. -/
theorem bulkTransfers : Obligations.BulkTransfers := by
  refine ⟨fun c x s => ⟨fun p h => ⟨load_bad_kind h, load_opens h⟩, fun p h => ⟨fun f => bulkopen_busy h, bulkopen_opens h⟩,
      fun b h hf => ⟨fun hr => groupsave_opens h (by rw [hr]) hf, fun q hr => groupsave_opens h (by rw [hr]) hf⟩,
      fun q b h hq => ⟨grouprestore_busy h hq, grouprestore_opens h hq⟩, fun len image b h => ⟨fwstage_busy h, fwstage_opens h⟩,
      fun xid b hb hs => ⟨bulkstatus_answers hb hs, bulkcancel_ends hb hs⟩⟩,
    fun xid b st d s hb => ⟨execBulkPeerTimeout_ends hb, execBulkAbort_closes hb st d, fun hd => execBulkDone_closes hb hd st d,
      execBulkResendTimeout_resends hb, fun y => execBulkAckTimer_acknowledges hb⟩,
    fun p s => ⟨execBulkData_badTag, fun b hup ht hb hd hs hc hl => ?chunk⟩,
    fun s b kind want hu hk => ⟨State.wholeBulk_mismatch hu hk, State.wholeBulk_measured hu hk⟩,
    fun p b s hup ht hb hd hs => ⟨fun hc => ?whole, fun hc => ?part⟩⟩
  case chunk =>
    have h : s.TakesChunk p b := ⟨hup, ht, hb, hd, hs, hc, hl⟩
    refine ⟨fun hg hn hu => ?_, execBulkData_waits h, fun hg hw => ⟨fun st d v hland => ?_, fun k v hland hv => ?_⟩⟩
    · exact (execBulkData_performs h fun _ => hg).trans (congrArg Host.Outcome.next (State.performChunk_again h hg hn hu))
    all_goals
      have run := execBulkData_performs h fun hwait => absurd hwait (ne_true_of_eq_false hw)
    · exact run.trans (congrArg Host.Outcome.next (State.performChunk_fails hg hland))
    · have lands := State.performChunk_lands hg hland hv
      refine ⟨fun hc => ?_, fun hc hu => ?_, fun hc hu => ?_⟩
      all_goals refine run.trans (congrArg Host.Outcome.next (lands.trans ?_))
      · exact if_pos hc
      · exact (if_neg (ne_true_of_eq_false hc)).trans (if_pos hu)
      · exact (if_neg (ne_true_of_eq_false hc)).trans (if_neg (Nat.not_le.mpr hu))
  case whole => exact (execBulkAcknowledgement_takes hup ht hb hd hs).trans (congrArg Host.Outcome.next (if_pos hc))
  case part => exact (execBulkAcknowledgement_takes hup ht hb hd hs).trans (congrArg Host.Outcome.next (if_neg (ne_true_of_eq_false hc)))

end Sys2Proof.Machine
end

section
/-! The commands of the fabric (10, 12). -/

namespace Sys2Proof.Machine

/-! ### The commands of the fabric -/

section
variable {s : State} {c : Hdr} {x : Session}

/-! GEOMETRY (10 R269) -/

theorem State.any_used_iff : ((List.range 16).any fun q => (s.quire q).use ≠ .free) = true ↔ ∃ q < 16, (s.quire q).use ≠ .free := by
  simp only [List.any_eq_true, List.mem_range, decide_eq_true_eq]

section
variable {p : GeometryReq} (h : s.admits c x 0x0700 = true)
include h

theorem geometry_bad_param (hg : geometryOk p (p.hop.getD 256) = false) :
    exec (.geometry c p) s = .next ((s.opened c x).answer c 0x0700 stBadParam []) :=
  congrArg Host.Outcome.next (State.command_done h (if_pos (by simp [hg])))

variable (hg : geometryOk p (p.hop.getD 256) = true)
include hg

theorem geometry_policy (hq : ∃ q < 16, (s.quire q).use ≠ .free) :
    exec (.geometry c p) s = .next ((s.opened c x).answer c 0x0700 stPolicy []) :=
  congrArg Host.Outcome.next (State.command_done h ((if_neg (by simp [hg])).trans (if_pos (State.any_used_iff.mpr hq))))

/-- The dimensions that a geometry gives, as registers. -/
def geometryTable (p : GeometryReq) : Sparse Dim := Sparse.setList Dim.reset [] 0 (p.dims.map fun d => { size := d.1, ring := d.2 })

omit h hg in
theorem get_geometryTable (p : GeometryReq) (d : Nat) :
    Sparse.get Dim.reset (geometryTable p) d = (p.dims.map fun d => ({ size := d.1, ring := d.2 } : Dim)).getD d Dim.reset := by
  unfold geometryTable
  rw [Sparse.get_setList]
  split
  · rw [Nat.sub_zero]
  · rw [List.getD_eq_default _ _ (by omega)]
    rfl

theorem geometry_sets (hq : ∀ q < 16, (s.quire q).use = .free) : ∃ t : State, exec (.geometry c p) s =
      .next (t.answer c 0x0700 stOk []) ∧ t.device = BitVec.ofNat 20 p.device ∧ t.splice.hoplimit = p.hop.getD 256 ∧
      (∀ d, t.dim d = (p.dims.map fun d => ({ size := d.1, ring := d.2 } : Dim)).getD d Dim.reset) ∧
      t.flash.device = p.device ∧ t.flash.dims = t.splice.dims ∧ t.flash.hoplimit = t.splice.hoplimit := by
  refine ⟨_, congrArg Host.Outcome.next (State.command_done h ((if_neg (by simp [hg])).trans (if_neg ?_))), rfl, rfl,
    get_geometryTable p, rfl, rfl, rfl⟩
  exact fun hany => (State.any_used_iff.mp hany).elim fun q hused => hused.2 (hq q hused.1)

end

/-! PORTCFG, PORTEN and PORTSTAT (10 R269, R284, Table 10-11) -/

section
variable {p : PortCfgReq} (h : s.admits c x 0x0701 = true)
include h

theorem portcfg_bad_param (hp : portcfgOk p = false) : exec (.portcfg c p) s = .next ((s.opened c x).answer c 0x0701 stBadParam []) :=
  congrArg Host.Outcome.next (State.command_done h (if_pos (by simp [hp])))

variable (hp : portcfgOk p = true)
include hp

theorem portcfg_busy (hm : (s.port p.port).moving = true) :
    exec (.portcfg c p) s = .next ((s.opened c x).answer c 0x0701 stBusy []) :=
  congrArg Host.Outcome.next (State.command_done h ((if_neg (by simp [hp])).trans (if_pos hm)))

theorem portcfg_sets (hm : (s.port p.port).moving = false) : (let o := s.port p.port
    let n := { o with
      dim := p.dim.getD o.dim, minus := bitOr p.dir o.minus, member := bitOr p.member o.member, halfok := bitOr p.halfok o.halfok
      rto := p.rto.getD o.rto, drainto := p.drainto.getD o.drainto }
    let r : PortRecord := { dim := n.dim, minus := n.minus, member := n.member, halfok := n.halfok, rto := n.rto, drainto := n.drainto }
    let v := (s.opened c x).setPort p.port n
    exec (.portcfg c p) s = .next (({ v with flash := { v.flash with ports := Sparse.set PortRecord.reset s.flash.ports p.port r } } :
      State).answer c 0x0701 stOk [])) :=
  congrArg Host.Outcome.next (State.command_done h ((if_neg (by simp [hp])).trans (if_neg (ne_true_of_eq_false hm))))

end

section
variable {mask : BitVec 16} (h : s.admits c x 0x0702 = true)
include h

theorem porten_busy (enable : Bool) (hm : ∃ p ∈ onesOf mask, (s.port p).moving = true) :
    exec (.porten c mask enable) s = .next (((s.opened c x).answer c 0x0702 stBusy []).spineWork false) :=
  congrArg Host.Outcome.next (State.hostWork_done h (if_pos (List.any_eq_true.mpr hm)))

variable (hm : ∀ p ∈ onesOf mask, (s.port p).moving = false)
include hm

omit h in
theorem not_any_moving : ¬ ((onesOf mask).any fun p => ((s.opened c x).port p).moving) = true := by
  simpa using hm

theorem porten_trains : exec (.porten c mask true) s = .next ((((onesOf mask).foldl State.enablePort (s.opened c x)).defer c 0x0702 stPending []
    (.splice (onesOf mask) true [])).spineWork false) :=
  congrArg Host.Outcome.next (State.hostWork_pend h ((if_neg (not_any_moving hm)).trans rfl))

theorem porten_drains : exec (.porten c mask false) s = .next ((((onesOf mask).foldl State.disablePort (s.opened c x)).defer c 0x0702 stDraining []
    (.splice (onesOf mask) false ((onesOf mask).map fun p => (s.port p).abandon))).spineWork false) :=
  congrArg Host.Outcome.next (State.hostWork_pend h ((if_neg (not_any_moving hm)).trans rfl))

end

theorem portstat_answers (mask : BitVec 16) (h : s.admits c x 0x0703 = true) : exec (.portstat c mask) s =
    .next ((s.opened c x).answer c 0x0703 stOk [{ type := 0x81, vals := (onesOf mask).flatMap fun p =>
      [(s.port p).stateWord.toNat, (s.port p).errWord.toNat, (s.port p).err2Word.toNat] }]) :=
  congrArg Host.Outcome.next (State.command_done h rfl)

/-! OVERRIDE (10 R273) -/

section
variable {es : List OvrReq} (h : s.admits c x 0x0704 = true)
include h

omit h in
/-- The entries of OVERRIDE fit their fields. -/
theorem ovrs_fit_iff : (es.all fun e => decide (e.index < 1024) && decide (e.first < 2 ^ 20) && decide (e.count ≤ 2 ^ 20) && decide (e.port < 16)) = true ↔
    ∀ e ∈ es, e.index < 1024 ∧ e.first < 2 ^ 20 ∧ e.count ≤ 2 ^ 20 ∧ e.port < 16 := by
  simp [and_assoc]

theorem override_bad_param (he : ∃ e ∈ es, 1024 ≤ e.index ∨ 2 ^ 20 ≤ e.first ∨ 2 ^ 20 < e.count ∨ 16 ≤ e.port) :
    exec (.override c es) s = .next ((s.opened c x).answer c 0x0704 stBadParam []) := by
  refine congrArg Host.Outcome.next (State.command_done h (if_pos ?_))
  rw [Bool.not_eq_true', ← Bool.not_eq_true, ovrs_fit_iff]
  obtain ⟨e, hmem, hbad⟩ := he
  intro hall
  obtain ⟨h1, h2, h3, h4⟩ := hall e hmem
  omega

theorem override_sets (he : ∀ e ∈ es, e.index < 1024 ∧ e.first < 2 ^ 20 ∧ e.count ≤ 2 ^ 20 ∧ e.port < 16) :
    (let put (m : Sparse Ovr) : Sparse Ovr := es.foldl (fun m e =>
       Sparse.set Ovr.reset m e.index { first := e.first, count := e.count, port := e.port, valid := e.valid }) m
     exec (.override c es) s = .next (({ s.opened c x with splice := { (s.opened c x).splice with ovr := put s.splice.ovr }
                                                           flash := { (s.opened c x).flash with ovr := put s.flash.ovr } } :
       State).answer c 0x0704 stOk [])) := by
  refine congrArg Host.Outcome.next (State.command_done h (if_neg ?_))
  rw [Bool.not_eq_true', Bool.not_eq_false, ovrs_fit_iff]
  exact he

end
end

/-- Settles O58: each command by the checks that it makes. -/
theorem fabricCommands : Obligations.FabricCommands :=
  fun _ _ _ => ⟨fun _ h => ⟨geometry_bad_param h, geometry_policy h, geometry_sets h⟩,
    fun _ h => ⟨portcfg_bad_param h, portcfg_busy h, portcfg_sets h⟩,
    fun _ h => ⟨porten_busy h, fun hm => ⟨porten_trains h hm, porten_drains h hm⟩⟩,
    portstat_answers, fun _ h => ⟨override_bad_param h, override_sets h⟩⟩

end Sys2Proof.Machine
end

section
/-! The gateway and the roles (12). -/

namespace Sys2Proof.Machine

/-! ### The gateway, check by check -/

/-- What the gateway does with a whole message of session `x`: the sequence number is judged, and the request accepted (12 R311, R314). -/
def State.wholeMessage (s : State) (c : Hdr) (op : Nat) (run : State → Session → Res) (x : Session) : State :=
  if 0xFFFFFF00 ≤ c.seq then (s.answer c op stBadSession []).closeSession c.session
  else if s.acceptedSeq x c then s.repeated x c op
  else if c.seq + 64 ≤ x.high then s.dropPkt c.port.val
  else (s.setSession c.session (some (x.takes c))).accepted c op run

/-- What it does with a packet in the name of session `x`: the epoch and the tag are checked, and the parts joined (12 R308, R310, R321). -/
def State.sessionPacket (s : State) (c : Hdr) (op : Nat) (run : State → Session → Res) (x : Session) : State :=
  if !(c.epoch == x.epoch || (x.graced && c.epoch + 1 == x.epoch)) then s.replyClear c op stBadSession []
  else if !c.tagOk then s.badTag c.port.val
  else
    let j := (s.setSession c.session (some (x.heard c))).joinPart c op
    if j.1 then j.2.wholeMessage c op run x else j.2

section
variable {c : Hdr} {op : Nat} {run : State → Session → Res} {s : State}

theorem State.command_deaf (h : (s.eth c.port.val).isUp = false ∨ s.spineUp = false ∨ s.boot.stage < 3) : s.command c op run = s := by
  unfold State.command
  refine if_pos ?_
  rcases h with h | h | h <;> simp [h]

section
variable (hup : (s.eth c.port.val).isUp = true) (hsp : s.spineUp = true) (hst : 3 ≤ s.boot.stage)
include hup hsp hst

theorem not_deaf : ¬ (!(s.eth c.port.val).isUp || !s.spineUp || decide (s.boot.stage < 3)) = true := by
  rw [hup, hsp]
  simpa using hst

theorem State.command_malformed (h : packetOk c = false ∨ c.clear = true) : s.command c op run = s.dropPkt c.port.val := by
  unfold State.command
  refine (if_neg (not_deaf hup hsp hst)).trans (if_pos ?_)
  rcases h with h | h <;> simp [h]

variable (hpk : packetOk c = true) (hcl : c.clear = false)
include hpk hcl

theorem State.command_unknown_session (h : s.session c.session = none) : s.command c op run = s.replyClear c op stBadSession [] := by
  unfold State.command
  refine (if_neg (not_deaf hup hsp hst)).trans ((if_neg (by simp [hpk, hcl])).trans ?_)
  rw [h]

theorem State.command_of_session {x : Session} (h : s.session c.session = some x) : s.command c op run = s.sessionPacket c op run x := by
  unfold State.command
  refine (if_neg (not_deaf hup hsp hst)).trans ((if_neg (by simp [hpk, hcl])).trans ?_)
  rw [h]
  unfold State.sessionPacket
  dsimp only
  generalize (s.setSession c.session (some (x.heard c))).joinPart c op = j
  rcases j with ⟨_ | _, t⟩ <;> rfl

end

section
variable {x : Session}

theorem State.sessionPacket_epoch (h1 : c.epoch ≠ x.epoch) (h2 : x.graced = true → c.epoch + 1 ≠ x.epoch) :
    s.sessionPacket c op run x = s.replyClear c op stBadSession [] :=
  if_pos (by
    rw [Bool.not_eq_true', Bool.or_eq_false_iff, beq_eq_false_iff_ne, Bool.and_eq_false_imp]
    exact ⟨h1, fun hg => beq_eq_false_iff_ne.mpr (h2 hg)⟩)

theorem epoch_known (h : c.epoch = x.epoch ∨ (x.graced = true ∧ c.epoch + 1 = x.epoch)) :
    ¬ (!(c.epoch == x.epoch || (x.graced && c.epoch + 1 == x.epoch))) = true := by
  rw [Bool.not_eq_true', Bool.not_eq_false, Bool.or_eq_true, beq_iff_eq, Bool.and_eq_true, beq_iff_eq]
  exact h

section
variable (he : c.epoch = x.epoch ∨ (x.graced = true ∧ c.epoch + 1 = x.epoch))
include he

theorem State.sessionPacket_badTag (ht : c.tagOk = false) : s.sessionPacket c op run x = s.badTag c.port.val :=
  (if_neg (epoch_known he)).trans (if_pos (by simp [ht]))

variable (ht : c.tagOk = true)
include ht

theorem State.sessionPacket_part (hj : ((s.setSession c.session (some (x.heard c))).joinPart c op).1 = false) :
    s.sessionPacket c op run x = ((s.setSession c.session (some (x.heard c))).joinPart c op).2 :=
  (if_neg (epoch_known he)).trans ((if_neg (by simp [ht])).trans (if_neg (ne_true_of_eq_false hj)))

theorem State.sessionPacket_whole (hj : ((s.setSession c.session (some (x.heard c))).joinPart c op).1 = true) :
    s.sessionPacket c op run x = ((s.setSession c.session (some (x.heard c))).joinPart c op).2.wholeMessage c op run x :=
  (if_neg (epoch_known he)).trans ((if_neg (by simp [ht])).trans (if_pos hj))

end

theorem State.wholeMessage_last (h : 0xFFFFFF00 ≤ c.seq) :
    s.wholeMessage c op run x = (s.answer c op stBadSession []).closeSession c.session := if_pos h

section
variable (hs : c.seq < 0xFFFFFF00)
include hs

theorem State.wholeMessage_repeated (ha : s.acceptedSeq x c = true) : s.wholeMessage c op run x = s.repeated x c op :=
  (if_neg (Nat.not_le.mpr hs)).trans (if_pos ha)

variable (ha : s.acceptedSeq x c = false)
include ha

theorem State.wholeMessage_old (hh : c.seq + 64 ≤ x.high) : s.wholeMessage c op run x = s.dropPkt c.port.val :=
  (if_neg (Nat.not_le.mpr hs)).trans ((if_neg (ne_true_of_eq_false ha)).trans (if_pos hh))

theorem State.wholeMessage_accepted (hh : x.high < c.seq + 64) :
    s.wholeMessage c op run x = (s.setSession c.session (some (x.takes c))).accepted c op run :=
  (if_neg (Nat.not_le.mpr hs)).trans ((if_neg (ne_true_of_eq_false ha)).trans (if_neg (Nat.not_le.mpr hh)))

end

theorem State.repeated_dropped (h : c.retry = false) : s.repeated x c op = s.dropPkt c.port.val := if_pos (by simp [h])

theorem State.repeated_stored {r : Reply} (h : c.retry = true) (hr : x.stored.find? (·.seq == c.seq) = some r) :
    s.repeated x c op = s.send (.reply { r with port := c.port.val, dest := c.source }) := by
  refine (if_neg (by simp [h])).trans ?_
  rw [hr]

section
variable (hx : s.session c.session = some x)
include hx

theorem State.accepted_version (h : c.version ≠ 1) : s.accepted c op run = s.answer c op stBadParam [] := by
  unfold State.accepted
  rw [hx]
  exact if_pos h

variable (hv : c.version = 1)
include hv

theorem State.accepted_busy (h : 16 ≤ s.outstanding c.session) : s.accepted c op run = s.answer c op stBusy [] := by
  unfold State.accepted
  rw [hx]
  exact (if_neg (not_not.mpr hv)).trans (if_pos h)

theorem State.accepted_refused (h : s.outstanding c.session < 16) {st : Nat} {tlvs : List Tlv}
    (hg : s.gate x.role c op = some (st, tlvs)) : s.accepted c op run = s.answer c op st tlvs := by
  unfold State.accepted
  rw [hx]
  refine (if_neg (not_not.mpr hv)).trans ((if_neg (Nat.not_le.mpr h)).trans ?_)
  rw [hg]
  rfl

end
end
end

/-- Joining the parts of a message touches what is held of messages, and the counts of the ports. -/
theorem State.joinPart_leaves (s : State) (c : Hdr) (op : Nat) :
    ∃ held eth, (s.joinPart c op).2 = { s with net := { s.net with held := held, eth := eth } } := by
  unfold State.joinPart
  split
  · exact ⟨s.net.held, s.net.eth, rfl⟩
  · dsimp only
    split_ifs <;> exact ⟨_, _, rfl⟩

theorem State.outstanding_joinPart (s : State) (c : Hdr) (op id : Nat) : (s.joinPart c op).2.outstanding id = s.outstanding id := by
  obtain ⟨held, eth, h⟩ := s.joinPart_leaves c op
  rw [h]
  rfl

/-- A reply touches the network's state alone. -/
theorem State.reply_leaves (s : State) (id sq op ph st e src : Nat) (tlvs : List Tlv) :
    ∃ net, s.reply id sq op ph st tlvs e src = { s with net := net } := by
  unfold State.reply
  split
  · exact ⟨s.net, rfl⟩
  · dsimp only
    split <;> exact ⟨_, rfl⟩

/-! ### What the roles permit -/

theorem Role.permits_noRole (op q : Nat) : Role.permits .noRole op q = anyOp op := Bool.or_false _

theorem Role.permits_other {op q k : Nat} (hk : k ≠ q) (h : anyOp op = false) : Role.permits (.quire k) op q = false := by
  simp [Role.permits, h, hk]

/-- Commands of the quire owner alone, which no other session issues. -/
theorem anyOp_of_quireOnlyOp {op : Nat} (h : quireOnlyOp op = true) : anyOp op = false := by
  have apart : ∀ n ∈ [0x0300, 0x0301, 0x0302, 0x0303, 0x0400, 0x0401, 0x0402, 0x0403, 0x0404, 0x0601, 0x0602, 0x0605, 0x0904],
      anyOp n = false := by decide
  exact apart op (of_decide_eq_true h)

theorem Role.permits_owner {op q : Nat} (h : quireOnlyOp op = true) : Role.permits .owner op q = false := by
  simp [Role.permits, anyOp_of_quireOnlyOp h, h]

theorem Role.permits_deviceOps (q : Nat) : ∀ op ∈ [0x0200, 0x0202, 0x0204, 0x0600, 0x0603, 0x0700, 0x0701, 0x0702, 0x0703, 0x0800, 0x0801,
    0x0A00, 0x0A01, 0x0A02], Role.permits (.quire q) op q = false ∧ Role.permits .owner op q = true := by
  have kinds : ∀ op ∈ [0x0200, 0x0202, 0x0204, 0x0600, 0x0603, 0x0700, 0x0701, 0x0702, 0x0703, 0x0800, 0x0801, 0x0A00, 0x0A01, 0x0A02],
      anyOp op = false ∧ bothOp op = false ∧ quireOnlyOp op = false := by decide
  intro op hop
  obtain ⟨hany, hboth, honly⟩ := kinds op hop
  simp [Role.permits, hany, hboth, honly]

theorem State.gate_denied {s : State} {c : Hdr} {r : Role} {op : Nat} (hr : s.isReady = true) (hk : knownOp op = true)
    (hp : r.permits op c.quire = false) : s.gate r c op = some (stDenied, []) :=
  (if_neg (by simp [hr])).trans ((if_neg (by simp [hk])).trans (if_pos (by simp [hp])))

theorem State.gate_early {s : State} {c : Hdr} {r : Role} {op : Nat} (hr : s.isReady = false) (he : earlyOp op = false) :
    s.gate r c op = some (stNotReady, []) := if_pos (by simp [hr, he])

theorem State.gate_unknown {s : State} {c : Hdr} {r : Role} {op : Nat} (hr : s.isReady = true) (hk : knownOp op = false) :
    s.gate r c op = some (stBadParam, []) := (if_neg (by simp [hr])).trans (if_pos (by simp [hk]))

/-- Settles O48: the gateway's checks in their order, and the tables of commands. -/
theorem gatewayChecksAndRoles : Obligations.GatewayChecksAndRoles := by
  refine ⟨⟨fun c op run s => ⟨State.command_deaf, fun hup hsp hst => ⟨State.command_malformed hup hsp hst,
      State.command_unknown_session hup hsp hst, fun x hpk hcl hx => ?session⟩⟩,
      fun c op s => ⟨State.joinPart_whole s op, s.joinPart_leaves c op⟩, fun s id sq op ph st e src tlvs => ?reply⟩,
    fun op q => by rw [Role.permits_noRole], fun op q k => Role.permits_other, fun op q => Role.permits_owner,
    fun q op hop => Role.permits_deviceOps q op hop, fun c r op s => State.gate_denied, fun c r op s => State.gate_early⟩
  case reply =>
    obtain ⟨net, h⟩ := s.reply_leaves id sq op ph st e src tlvs
    dsimp only
    rw [h]
    exact ⟨rfl, rfl, rfl, rfl⟩
  case session =>
    rw [State.command_of_session hup hsp hst hpk hcl hx]
    refine ⟨State.sessionPacket_epoch, fun he => ⟨State.sessionPacket_badTag he, fun ht => ⟨State.sessionPacket_part he ht, fun hj => ?_⟩⟩⟩
    rw [State.sessionPacket_whole he ht hj]
    refine ⟨State.wholeMessage_last, fun hs ha => ?repeated, fun hs ha => ⟨State.wholeMessage_old hs ha, fun hh => ?fresh⟩⟩
    case repeated =>
      rw [State.wholeMessage_repeated hs ha]
      exact ⟨State.repeated_dropped, fun r => State.repeated_stored⟩
    case fresh =>
      rw [State.wholeMessage_accepted hs ha hh]
      have hx' := State.session_setSession ((s.setSession c.session (some (x.heard c))).joinPart c op).2 c.session (some (x.takes c))
      have hout : (((s.setSession c.session (some (x.heard c))).joinPart c op).2.setSession c.session (some (x.takes c))).outstanding c.session =
          s.outstanding c.session := State.outstanding_joinPart (s.setSession c.session (some (x.heard c))) c op c.session
      exact ⟨State.accepted_version hx', fun hv hbusy => State.accepted_busy hx' hv (hout.symm ▸ hbusy),
        fun st tlvs hv hroom hg => State.accepted_refused hx' hv (hout.symm ▸ hroom) hg⟩

end Sys2Proof.Machine
end

section
/-! Closed sessions and the Ethernet ports (12). -/

namespace Sys2Proof.Machine

/-! ### A closed session stays closed -/

section
variable {id : Nat}

theorem State.session_setSession_ne (s : State) {i : Nat} (x : Option Session) (h : id ≠ i) :
    (s.setSession i x).session id = s.session id := Sparse.get_set_ne _ _ _ h

theorem State.session_reply_none {s : State} (h : s.session id = none) (i sq op ph st e src : Nat) (tlvs : List Tlv) :
    (s.reply i sq op ph st tlvs e src).session id = none := by
  by_cases hi : id = i
  · subst hi
    unfold State.reply
    rw [h]
    exact h
  · unfold State.reply
    split
    · exact h
    · dsimp only
      split
      · exact (State.session_setSession_ne _ _ hi).trans h
      · exact h

theorem State.session_finish_none {s : State} (h : s.session id = none) (r : Request) (st : Nat) (tlvs : List Tlv) :
    (s.finish r st tlvs).session id = none :=
  State.session_reply_none (s := { s with net := { s.net with requests := s.net.requests.erase r } }) h ..

theorem State.session_finishWhere_none {s : State} (h : s.session id = none) (p : Wait → Bool) (st : Nat) (tlvs : List Tlv) :
    (s.finishWhere p st tlvs).session id = none := by
  unfold State.finishWhere
  generalize s.net.requests.filter (fun r => p r.wait) = rs
  induction rs generalizing s with
  | nil => exact h
  | cons r rs ih => exact ih (State.session_finish_none h r st tlvs)

theorem State.session_endBulk_none {s : State} (h : s.session id = none) (b : Bulk) (st d : Nat) (tlvs : List Tlv) :
    (s.endBulk b st d tlvs).session id = none := by
  unfold State.endBulk
  refine State.session_finishWhere_none ?_ ..
  exact h

theorem State.session_endBulks_none {s : State} (h : s.session id = none) (bs : List Bulk) :
    (bs.foldl (fun s b => s.endBulk b stLost 0 []) s).session id = none := by
  induction bs generalizing s with
  | nil => exact h
  | cons b bs ih => exact ih (State.session_endBulk_none h b ..)

theorem State.session_closeSession (s : State) (id : Nat) : (s.closeSession id).session id = none :=
  State.session_endBulks_none (State.session_setSession ..) _

end

/-! ### Ethernet ports -/

section
variable {e : EthId} {s : State}

theorem execEthPortEnable_trains (h : (s.eth e.val).state = .off ∨ (s.eth e.val).state = .failed) :
    execEthPortEnable e s = .next (s.setEth e.val { s.eth e.val with en := true, state := .training }) := by
  unfold execEthPortEnable State.enableEth
  dsimp only
  rw [if_pos h]

theorem execEthPortDisable_drains (h : (s.eth e.val).state = .up) :
    execEthPortDisable e s = .next (s.setEth e.val { s.eth e.val with en := false, state := .draining }) := by
  unfold execEthPortDisable State.disableEth
  dsimp only
  rw [if_pos (Or.inl h)]

theorem execEthPortTrained_settles (h : (s.eth e.val).state = .training) :
    execEthPortTrained e true s = .next (s.setEth e.val { s.eth e.val with state := .up }).settleEth ∧
      execEthPortTrained e false s =
        .next ((s.setEth e.val { s.eth e.val with state := .failed }).alarm .ethPortFailed e.val).settleEth :=
  ⟨congrArg Host.Outcome.next ((if_neg (not_not.mpr h)).trans (if_pos rfl)),
    congrArg Host.Outcome.next ((if_neg (not_not.mpr h)).trans (if_neg Bool.false_ne_true))⟩

section
variable {p : NetPacket} (hup : (s.eth e.val).isUp = true)
include hup

theorem execIcmpEcho_answers (hp : p.plain = true) (ht : (if p.v6 then s.addr6 e.val else s.addr4 e.val) = some p.target) :
    execIcmpEcho e p s = .next (s.send (.echo e.val p.source p.bytes)) :=
  congrArg Host.Outcome.next ((if_neg (by simp [hup])).trans ((if_neg (by simp [hp])).trans (if_pos ht)))

theorem execIcmpEcho_drops (hp : p.plain = false) : execIcmpEcho e p s = .next (s.dropPkt e.val) :=
  congrArg Host.Outcome.next ((if_neg (by simp [hup])).trans (if_pos (by simp [hp])))

theorem execArpRequest_answers (ht : s.addr4 e.val = some p.target) :
    execArpRequest e p s = .next (s.send (.arp e.val p.source p.target (s.eth e.val).mac)) :=
  congrArg Host.Outcome.next (if_pos (by rw [hup, ht]; simp))

theorem execNeighbourDiscovery_answers (hp : p.plain = true) (ht : s.addr6 e.val = some p.target) :
    execNeighbourDiscovery e p s = .next (s.send (.neighbour e.val p.source p.target (s.eth e.val).mac)) :=
  congrArg Host.Outcome.next ((if_neg (by simp [hup])).trans ((if_neg (by simp [hp])).trans (if_pos ht)))

section
variable {prio : Fin 8} (pause : Bool)

theorem execPriorityFlowControl_honours (hb : (s.eth e.val).bulkpcp = prio.val) :
    (let t := s.setEth e.val { s.eth e.val with pfc := pause }
     execPriorityFlowControl e prio pause s = .next (if pause then t else (s.net.bulks.map (·.xid)).foldl (fun s i => s.pump i) t)) :=
  congrArg Host.Outcome.next (if_pos (by simp [hup, hb]))

omit hup in
theorem execPriorityFlowControl_ignores (hb : (s.eth e.val).bulkpcp ≠ prio.val) : execPriorityFlowControl e prio pause s = .next s :=
  congrArg Host.Outcome.next (if_neg (by simp [hb]))

end

theorem execCommandPacketDiscard_counts :
    execCommandPacketDiscard e .fcs s = .next (s.setEth e.val { s.eth e.val with fcs := satAdd 16 (s.eth e.val).fcs 1 }) ∧
      execCommandPacketDiscard e .tag s = .next (s.setEth e.val { s.eth e.val with tagfail := satAdd 16 (s.eth e.val).tagfail 1 }) :=
  ⟨congrArg Host.Outcome.next (if_neg (by simp [hup])), congrArg Host.Outcome.next (if_neg (by simp [hup]))⟩

end

theorem execEpochGraceExpiry_ends {id : Nat} {y : Session} (h : s.session id = some y) :
    execEpochGraceExpiry id s = .next (s.setSession id (some { y with graced := false, old := [] })) := by
  unfold execEpochGraceExpiry
  rw [h]

end

/-- A whole packet has no part before it, and comes under the session's keys. -/
theorem wholePacket_iff {c : Hdr} {x : Session} : wholePacket c x = true ↔ packetOk c = true ∧ c.clear = false ∧ c.part = 0 ∧
    c.more = false ∧ (c.epoch = x.epoch ∨ (x.graced = true ∧ c.epoch + 1 = x.epoch)) ∧ c.tagOk = true := by
  simp [wholePacket, and_assoc]

/-- A fresh request that the gateway refuses is answered so, in the opened state. -/
theorem State.command_refused {c : Hdr} {x : Session} {op : Nat} {run : State → Session → Res} {s : State}
    (hup : (s.eth c.port.val).isUp = true) (hsp : s.spineUp = true) (hst : 3 ≤ s.boot.stage) (hx : s.session c.session = some x)
    (hw : wholePacket c x = true) (hs : c.seq < 0xFFFFFF00) (ha : s.acceptedSeq x c = false) (hh : x.high < c.seq + 64)
    (hv : c.version = 1) (hout : s.outstanding c.session < 16) {st : Nat} {tlvs : List Tlv}
    (hg : (s.opened c x).gate x.role c op = some (st, tlvs)) : s.command c op run = (s.opened c x).answer c op st tlvs := by
  obtain ⟨hpk, hcl, hpart, hmore, hep, htag⟩ := wholePacket_iff.mp hw
  have join := State.joinPart_whole (s.setSession c.session (some (x.heard c))) op hpart hmore
  rw [State.command_of_session hup hsp hst hpk hcl hx, State.sessionPacket_whole hep htag (by rw [join]), join]
  dsimp only
  rw [State.wholeMessage_accepted (s := s.setSession c.session (some (x.heard c))) hs ha hh, State.setSession_setSession]
  exact State.accepted_refused (s := s.opened c x) (State.session_setSession ..) hv hout hg

/-- Settles O50: each event by the state of its port or session. -/
theorem ethernetEvents : Obligations.EthernetEvents := by
  refine fun e s => ⟨execEthPortEnable_trains, execEthPortDisable_drains, fun h => congrArg Host.Outcome.next (if_pos h),
    execEthPortTrained_settles, fun h => congrArg Host.Outcome.next (if_pos h),
    fun p hup => ⟨execIcmpEcho_answers hup, execIcmpEcho_drops hup, execArpRequest_answers hup, execNeighbourDiscovery_answers hup⟩,
    fun prio pause hup => ⟨execPriorityFlowControl_honours hup pause, execPriorityFlowControl_ignores pause⟩,
    execCommandPacketDiscard_counts, fun id => ⟨rfl, rfl, s.session_closeSession id⟩, fun id y => execEpochGraceExpiry_ends,
    fun session sq => rfl, fun c y op hc hup hsp hr hst hy hw hs ha hh hv hout hk => ?_⟩
  subst hc
  exact congrArg Host.Outcome.next (State.command_refused hup hsp hst hy hw hs ha hh hv hout (State.gate_unknown hr hk))

end Sys2Proof.Machine
end

section
/-! What reports and the governor's plan leave (14, 16). -/

namespace Sys2Proof.Machine

/-! ### What reports leave -/

/-- `t` is `s` but for what a report touches: the notices on tiles, the network's queues, the records of alarms and of the log, the flags of the
risk notices, and free values; no lost record is forgotten. -/
def State.Reported (s t : State) : Prop :=
  s.logLost ≤ t.logLost ∧
  t = { s with tiles := t.tiles, net := t.net, survive := t.survive, alarms := t.alarms, alarmSeq := t.alarmSeq, logQ := t.logQ
               logSeq := t.logSeq, logLost := t.logLost, logRead := t.logRead, free := t.free, score := t.score }

namespace State.Reported

theorem refl (s : State) : s.Reported s := ⟨Nat.le_refl _, rfl⟩

theorem trans {s t u : State} (h : s.Reported t) (k : t.Reported u) : s.Reported u :=
  ⟨Nat.le_trans h.1 k.1, Eq.trans k.2 (congrArg (fun x : State =>
    { x with tiles := u.tiles, net := u.net, survive := u.survive, alarms := u.alarms, alarmSeq := u.alarmSeq, logQ := u.logQ
             logSeq := u.logSeq, logLost := u.logLost, logRead := u.logRead, free := u.free, score := u.score }) h.2)⟩

theorem foldl {α : Type} {f : State → α → State} (h : ∀ (s : State) (x : α), s.Reported (f s x)) (l : List α) (s : State) :
    s.Reported (l.foldl f s) := by
  induction l generalizing s with
  | nil => exact refl s
  | cons x l ih => exact (h s x).trans (ih _)

section
variable {s t : State} (h : s.Reported t)
include h

theorem power : t.power = s.power := by rw [show t = _ from h.2]
theorem mem : t.mem = s.mem := by rw [show t = _ from h.2]
theorem splice : t.splice = s.splice := by rw [show t = _ from h.2]
theorem flash : t.flash = s.flash := by rw [show t = _ from h.2]
theorem islands : t.islands = s.islands := by rw [show t = _ from h.2]
theorem chans : t.chans = s.chans := by rw [show t = _ from h.2]
theorem hbm : t.hbm = s.hbm := by rw [show t = _ from h.2]
theorem quires : t.quires = s.quires := by rw [show t = _ from h.2]
theorem boot : t.boot = s.boot := by rw [show t = _ from h.2]
theorem lost : t.lost = s.lost := by rw [show t = _ from h.2]
theorem logRing : t.logRing = s.logRing := by rw [show t = _ from h.2]
theorem spine : t.spine = s.spine := by rw [show t = _ from h.2]

end
end State.Reported

theorem State.reported_sendNotice (s : State) (n : Notice) (b : Sub) : s.Reported (s.sendNotice n b) := by
  unfold State.sendNotice
  split
  · exact .refl s
  · split <;> exact ⟨Nat.le_refl _, rfl⟩

theorem State.reported_deliver (s : State) (n : Notice) : s.Reported (s.deliver n) := by
  unfold State.deliver
  dsimp only
  generalize (if n.cls = 2 then _ else n) = m
  have sent : s.Reported ((s.net.subs.filter fun b => s.takes b m).foldl (fun s b => s.sendNotice m b) s) :=
    State.Reported.foldl (f := fun s b => s.sendNotice m b) (fun s b => s.reported_sendNotice m b) _ s
  split
  · exact sent.trans ⟨Nat.le_refl _, rfl⟩
  · exact sent

theorem State.reported_exportNow (s : State) : s.Reported s.exportNow := by
  unfold State.exportNow
  split
  · exact .refl s
  · refine State.Reported.trans ?_ (State.Reported.foldl State.reported_deliver _ _)
    exact ⟨Nat.le_refl _, rfl⟩

theorem State.reported_notify (s : State) (n : Notice) : s.Reported (s.notify n) := by
  unfold State.notify
  split
  · refine State.Reported.trans ?_ (State.reported_exportNow _)
    exact ⟨Nat.le_refl _, rfl⟩
  · exact .refl s

theorem State.reported_log (s : State) (k : AlarmKind) (n : Nat) : s.Reported (s.log k n) := by
  unfold State.log
  split
  · exact ⟨Nat.le_refl _, rfl⟩
  · exact ⟨Nat.le_succ _, rfl⟩

theorem State.reported_alarm (s : State) (k : AlarmKind) (n : Nat) : s.Reported (s.alarm k n) := by
  unfold State.alarm
  split
  · exact .refl s
  · refine State.Reported.trans ?_ ((State.reported_log _ k n).trans (State.reported_notify ..))
    exact ⟨Nat.le_refl _, rfl⟩

theorem State.reported_updTile (s : State) (t : TileId) (f : Tile → Tile) : s.Reported (s.updTile t f) :=
  ⟨Nat.le_refl _, rfl⟩

theorem State.reported_post (s : State) (q kind : Nat) (group : Option Nat) : s.Reported (s.post q kind group) := by
  unfold State.post
  split
  · exact .refl s
  · exact (State.Reported.foldl (f := fun s t => s.updTile t fun x => x.post kind s.riskNow group)
      (fun s t => s.reported_updTile t _) _ s).trans (State.reported_notify ..)

theorem State.reported_posts (s : State) (qs : List Nat) (kind : Nat) : s.Reported (qs.foldl (fun s q => s.post q kind none) s) :=
  State.Reported.foldl (f := fun s q => s.post q kind none) (fun s q => s.reported_post q kind none) qs s

theorem State.reported_watchRisk (s : State) : s.Reported s.watchRisk := by
  unfold State.watchRisk
  dsimp only
  generalize hv : ({ s with survive := _ } : State) = v
  have first : s.Reported v := hv ▸ ⟨Nat.le_refl _, rfl⟩
  have second : s.Reported (if (decide (96 ≤ s.riskNow) && !s.survive.posted0) = true then
      v.runningQuires.foldl (fun s q => s.post q 0 none) v else v) := by
    split
    · exact first.trans (State.reported_posts ..)
    · exact first
  split
  · exact second.trans ((State.reported_posts ..).trans (State.reported_alarm ..))
  · exact second

theorem State.reported_risk (s : State) (points : Nat) : s.Reported (s.risk points) :=
  State.Reported.trans (t := { s with score := min 255 (s.score + points) }) ⟨Nat.le_refl _, rfl⟩ (State.reported_watchRisk _)

/-! ### The plan of the governor -/

/-- The supply, the memory, the Splice and the flash are as they were. -/
structure State.Steady (s t : State) : Prop where
  power : t.power = s.power
  mem : t.mem = s.mem
  splice : t.splice = s.splice
  flash : t.flash = s.flash

namespace State.Steady

theorem refl (s : State) : s.Steady s := ⟨rfl, rfl, rfl, rfl⟩

theorem trans {s t u : State} (h : s.Steady t) (k : t.Steady u) : s.Steady u :=
  ⟨k.power.trans h.power, k.mem.trans h.mem, k.splice.trans h.splice, k.flash.trans h.flash⟩

theorem foldl {α : Type} {f : State → α → State} (h : ∀ (s : State) (x : α), s.Steady (f s x)) (l : List α) (s : State) :
    s.Steady (l.foldl f s) := by
  induction l generalizing s with
  | nil => exact refl s
  | cons x l ih => exact (h s x).trans (ih _)

end State.Steady

theorem State.Reported.steady {s t : State} (h : s.Reported t) : s.Steady t := ⟨h.power, h.mem, h.splice, h.flash⟩

theorem State.steady_setIsland (s : State) (i : Nat) (x : Island) : s.Steady (s.setIsland i x) := ⟨rfl, rfl, rfl, rfl⟩

theorem State.steady_updTile (s : State) (t : TileId) (f : Tile → Tile) : s.Steady (s.updTile t f) := ⟨rfl, rfl, rfl, rfl⟩

/-- An alarm that may be raised. -/
theorem State.Steady.alarmIf {s t : State} (h : s.Steady t) (c : Bool) (k : AlarmKind) (n : Nat) :
    s.Steady (if c then t.alarm k n else t) := by
  cases c with
  | true => exact h.trans (State.reported_alarm t k n).steady
  | false => exact h

theorem State.steady_heatIsland (s : State) (i tj : Nat) : s.Steady (s.heatIsland i tj) := by
  unfold State.heatIsland
  dsimp only
  split
  · refine State.Steady.trans (((s.steady_setIsland i _).alarmIf _ _ _).alarmIf _ _ _) (State.Steady.foldl (fun s t => ?_) _ _)
    split
    · exact s.steady_updTile t _
    · exact .refl s
  · exact ((s.steady_setIsland i _).alarmIf _ _ _).alarmIf _ _ _

/-- A plan changes of the supply its sequence number alone. -/
theorem State.plan_leaves (s : State) (starved : List Nat) :
    ({ s with power := { s.power with planseq := (s.power.planseq + 1) % 65536 } } : State).Steady (s.plan starved) := by
  unfold State.plan
  dsimp only
  refine State.Steady.trans (t := (({ s with power := { s.power with planseq := (s.power.planseq + 1) % 65536 } } : State).takeFree).2)
    ⟨rfl, rfl, rfl, rfl⟩ (State.Steady.trans (State.Steady.foldl (fun s i => s.steady_setIsland i _) _ _)
      (State.Steady.trans (State.Steady.foldl (fun s t => s.steady_updTile t _) _ _)
        (State.Steady.foldl (fun s q => (s.reported_post q 5 none).steady) _ _)))

end Sys2Proof.Machine
end

section
/-! Power, energy and the feeds (14). -/

namespace Sys2Proof.Machine

/-! ### A change of every island -/

theorem State.island_setIsland_ne (s : State) {i j : Nat} (x : Island) (h : j ≠ i) : (s.setIsland i x).island j = s.island j :=
  Sparse.get_set_ne _ _ _ h

theorem State.island_setIslands (f : Nat → Island → Island) {l : List Nat} (hl : l.Nodup) (s : State) (j : Nat) :
    (l.foldl (fun s i => s.setIsland i (f i (s.island i))) s).island j = if j ∈ l then f j (s.island j) else s.island j := by
  induction l generalizing s with
  | nil => rfl
  | cons i l ih =>
    obtain ⟨hi, hl⟩ := List.nodup_cons.mp hl
    rw [List.foldl_cons, ih hl]
    by_cases hj : j = i
    · subst hj
      rw [if_neg hi, if_pos (List.mem_cons_self ..), State.island_setIsland]
    · rw [State.island_setIsland_ne _ _ hj]
      simp [hj]

theorem State.power_setIslands (f : Nat → Island → Island) (l : List Nat) (s : State) :
    (l.foldl (fun s i => s.setIsland i (f i (s.island i))) s).power = s.power :=
  (State.Steady.foldl (f := fun s i => s.setIsland i (f i (s.island i))) (fun s i => s.steady_setIsland i _) l s).power

/-! ### PLANSET, PLANGET, READING and FEEDS (14 R357, R366; 13 R346) -/

/-- The ceilings of the islands, where PLANSET gives them. -/
def State.setCeilings (s : State) : Option (List Nat) → State
  | none => s
  | some l => (List.range 16).foldl (fun s i => s.setIsland i ((s.island i).setCeiling (l.getD i 900))) s

/-- The arrays of a tile run again where its island was stopped in `was` and is no more. -/
def State.runIsland (was s : State) (t : TileId) : State :=
  if (was.island (islandOf t)).isStopped && !(s.island (islandOf t)).isStopped && (s.tile t).assigned &&
      (s.quire (s.tile t).quire.toNat).use == .running then s.updTile t fun z => { z with hold := false, arrOff := 0 } else s

def State.runIslands (s was : State) : State := allTiles.foldl was.runIsland s

theorem State.reported_runIsland (was s : State) (t : TileId) : s.Reported (was.runIsland s t) := by
  unfold State.runIsland
  split
  · exact s.reported_updTile t _
  · exact .refl s

theorem State.reported_runIslands (s was : State) : s.Reported (s.runIslands was) :=
  State.Reported.foldl was.reported_runIsland allTiles s

/-- The budgets that PLANSET sets, and the credit they leave. -/
def State.withBudgets (s : State) (sus exc len : Nat) : State :=
  { s with power := { s.power with sustained := sus, excursion := exc, length := len, credit := min s.power.credit ((exc - sus) * len) } }

theorem State.power_setCeilings (s : State) (o : Option (List Nat)) : (s.setCeilings o).power = s.power := by
  cases o with
  | none => rfl
  | some l =>
    unfold State.setCeilings
    generalize List.range 16 = is
    exact State.power_setIslands (fun i x => x.setCeiling (l.getD i 900)) is s

theorem State.ceiling_setCeilings (s : State) (l : List Nat) {i : Nat} (hi : i < 16) :
    ((s.setCeilings (some l)).island i).ceiling = l.getD i 900 := by
  unfold State.setCeilings
  dsimp only
  rw [State.island_setIslands (fun i x => x.setCeiling (l.getD i 900)) List.nodup_range, if_pos (List.mem_range.mpr hi)]
  rfl

section
variable {s : State} {c : Hdr} {x : Session}

section
variable {p : PlanReq} (h : s.admits c x 0x0800 = true)
include h

/-- The ceilings that a PLANSET gives are not those of 16 islands, each to 900 mV. -/
def planCeilingsBad (o : Option (List Nat)) : Bool :=
  match o with
  | some l => decide (l.length ≠ 16) || l.any (fun v => decide (900 < v))
  | none => false

omit h in
theorem planCeilingsBad_false {o : Option (List Nat)} (hc : ∀ l, o = some l → l.length = 16 ∧ ∀ v ∈ l, v ≤ 900) :
    planCeilingsBad o = false := by
  cases o with
  | none => rfl
  | some l =>
    obtain ⟨hl, hv⟩ := hc l rfl
    simpa [planCeilingsBad, hl] using hv

theorem planset_empty (h1 : p.sustained = none) (h2 : p.excursion = none) (h3 : p.length = none) (h4 : p.ceilings = none) :
    exec (.planset c p) s = .next ((s.opened c x).answer c 0x0800 stBadParam []) :=
  congrArg Host.Outcome.next (State.command_done h (if_pos (by simp [h1, h2, h3, h4])))

theorem planset_bad_ceilings {l : List Nat} (hl : p.ceilings = some l) (hb : l.length ≠ 16 ∨ ∃ v ∈ l, 900 < v) :
    exec (.planset c p) s = .next ((s.opened c x).answer c 0x0800 stBadParam []) := by
  have bad : planCeilingsBad p.ceilings = true := by
    rw [hl]
    simpa [planCeilingsBad] using hb
  refine congrArg Host.Outcome.next (State.command_done h (if_pos ?_))
  change (planCeilingsBad p.ceilings || _) = true
  rw [bad, Bool.true_or]

variable (hsome : (p.sustained.isSome || p.excursion.isSome || p.length.isSome || p.ceilings.isSome) = true)
  (hc : ∀ l, p.ceilings = some l → l.length = 16 ∧ ∀ v ∈ l, v ≤ 900)
include hsome hc

omit h in
theorem planset_form : ¬ (planCeilingsBad p.ceilings ||
    (p.sustained.isNone && p.excursion.isNone && p.length.isNone && p.ceilings.isNone)) = true := by
  rw [planCeilingsBad_false hc]
  cases hs : p.sustained <;> cases he : p.excursion <;> cases hl : p.length <;> cases hk : p.ceilings <;> simp_all

/-- The budgets asked for are outside what the module, the governor and the shares allow (14 R357). -/
def State.planRefused (s : State) (sus exc len : Nat) : Prop :=
  3200000 < sus ∨ 3800000 < exc ∨ 20 < len ∨ sus < 1800000 ∨ sus < shared + s.shares ∨ exc < sus

theorem planset_policy (hp : (s.opened c x).planRefused ((p.sustained.map (1000 * ·)).getD s.power.sustained)
      ((p.excursion.map (1000 * ·)).getD s.power.excursion) (p.length.getD s.power.length)) :
    exec (.planset c p) s = .next ((s.opened c x).answer c 0x0800 stPolicy []) :=
  congrArg Host.Outcome.next (State.command_done h ((if_neg (planset_form hsome hc)).trans (if_pos hp)))

theorem planset_runs {sus exc len : Nat} (hsus : (p.sustained.map (1000 * ·)).getD (s.opened c x).power.sustained = sus)
    (hexc : (p.excursion.map (1000 * ·)).getD (s.opened c x).power.excursion = exc)
    (hlen : p.length.getD (s.opened c x).power.length = len)
    (hp : ¬ (s.opened c x).planRefused sus exc len) : exec (.planset c p) s = .next
      ((((((s.opened c x).withBudgets sus exc len).setCeilings p.ceilings).runIslands (s.opened c x)).replan).answer c 0x0800 stOk []) := by
  subst hsus hexc hlen
  refine congrArg Host.Outcome.next (State.command_done h ((if_neg (planset_form hsome hc)).trans ((if_neg hp).trans ?_)))
  unfold State.runIslands State.runIsland State.setCeilings State.withBudgets
  cases p.ceilings <;> rfl

theorem planset_sets {sus exc len : Nat} (hsus : (p.sustained.map (1000 * ·)).getD s.power.sustained = sus)
    (hexc : (p.excursion.map (1000 * ·)).getD s.power.excursion = exc) (hlen : p.length.getD s.power.length = len)
    (hp : ¬ (s.opened c x).planRefused sus exc len) : ∃ t : State,
      exec (.planset c p) s = .next (t.replan.answer c 0x0800 stOk []) ∧ t.power.sustained = sus ∧ t.power.excursion = exc ∧
      t.power.length = len ∧ t.power.credit = min s.power.credit ((exc - sus) * len) ∧ (p.ceilings = none → t.islands = s.islands) ∧
      (∀ l, p.ceilings = some l → ∀ i < 16, (t.island i).ceiling = l.getD i 900) := by
  have run := planset_runs h hsome hc hsus hexc hlen hp
  generalize hu : (s.opened c x).withBudgets sus exc len = u at run
  have rep := (u.setCeilings p.ceilings).reported_runIslands (s.opened c x)
  have power : ((u.setCeilings p.ceilings).runIslands (s.opened c x)).power = u.power :=
    rep.power.trans (State.power_setCeilings u p.ceilings)
  have islands := rep.islands
  generalize (u.setCeilings p.ceilings).runIslands (s.opened c x) = t at run power islands
  refine ⟨t, run, ?_, ?_, ?_, ?_, fun hn => ?_, fun l hl i hi => ?_⟩
  iterate 4 rw [power, ← hu]; rfl
  · rw [islands, hn, ← hu]
    rfl
  · have same : t.island i = (u.setCeilings p.ceilings).island i := by
      unfold State.island
      rw [islands]
    rw [same, hl, State.ceiling_setCeilings u l hi]

end

theorem planget_answers (h : s.admits c x 0x0801 = true) : exec (.planget c) s = .next ((s.opened c x).answer c 0x0801 stOk
    [{ type := 0x81, vals := [s.power.sustained / 1000, s.power.excursion / 1000, s.power.length] ++
        (List.range 16).map (fun i => (s.island i).ceiling) ++ (List.range 16).map (fun i => (s.island i).mv) },
     { type := 0x82, vals := [s.power.planseq] }]) :=
  congrArg Host.Outcome.next (State.command_done h rfl)

section
variable {n : Nat} (h : s.admits c x 0x0802 = true)
include h

theorem reading_quire {q : Nat} (hr : x.role = .quire q) : exec (.reading c n) s =
    .next ((s.opened c x).answer c 0x0802 stOk [{ type := 0x81, vals := (s.quire q).windowWords.take n }]) := by
  refine congrArg Host.Outcome.next (State.command_done h ?_)
  rw [show (x.takes c).role = .quire q from hr]
  rfl

theorem reading_owner (hr : x.role = .owner) : ∃ vals, exec (.reading c n) s =
    .next (({ s.opened c x with free := s.free + 1 } : State).answer c 0x0802 stOk [{ type := 0x81, vals := vals }]) := by
  refine ⟨(List.range 36).map fun i => Config.sensor (100 + i) s.free, congrArg Host.Outcome.next (State.command_done h ?_)⟩
  rw [show (x.takes c).role = .owner from hr]
  rfl

end

theorem feeds_answers (h : s.admits c x 0x0803 = true) : ∃ main backup : Tlv,
    exec (.feeds c) s = .next ((s.opened c x).answer c 0x0803 stOk [main, backup]) ∧
      main.vals.head? = some s.power.tags.main.toNat ∧ backup.vals.head? = some s.power.tags.backup.toNat :=
  ⟨_, _, congrArg Host.Outcome.next (State.command_done h rfl), rfl, rfl⟩

end

/-! ### Refill, calibration, margins and the plan period -/

section
variable {s : State} {t : TileId}

theorem execMarginLengthen_step (h : (s.tile t).delay.step < 255) : execMarginLengthen t s = .next (s.updTile t fun x => { x with
    delay := { x.delay with step := x.delay.step + 1, margin := min x.delay.margin 1, longer := (x.delay.longer + 1) % 65536 } }) := by
  unfold execMarginLengthen State.updTile
  dsimp only
  rw [if_pos h]

theorem execMarginLengthen_limit (h : 255 ≤ (s.tile t).delay.step) : execMarginLengthen t s = .next (s.updTile t fun x => { x with
    delay := { x.delay with margin := min x.delay.margin 1 } }) := by
  unfold execMarginLengthen State.updTile
  dsimp only
  rw [if_neg (Nat.not_lt.mpr h)]

theorem execRingCalibration_publishes (i : IslandId) (period : BitVec 32) : ∃ t : State, execRingCalibration i period s = .next t ∧
    (t.island i.val).period = period.toNat ∧ (t.island i.val).calvalid = true ∧
    (t.island i.val).calseq = ((s.island i.val).calseq + 1) % 65536 ∧ (∀ j, j ≠ i.val → t.island j = s.island j) ∧ t.tiles = s.tiles := by
  refine ⟨_, rfl, ?_, ?_, ?_, fun j hj => State.island_setIsland_ne _ _ hj, rfl⟩
  all_goals rw [State.island_setIsland]

end

/-- What a window's end leaves: of the supply its own number alone. -/
theorem State.closeWindow_leaves (s : State) :
    ({ s with power := { s.power with window := (s.power.window + 1) % 2 ^ 32 } } : State).Steady s.closeWindow :=
  State.Steady.foldl (f := fun s q => s.updQuire q fun x =>
    { x with windows := (((_ : Nat), x.windowEnergy % 2 ^ 32) :: x.windows).take 64, energy := 0 }) (fun _ _ => ⟨rfl, rfl, rfl, rfl⟩) _ _

/-- A plan period is counted, and the voltage of the feed in use noted. -/
def State.ticked (s : State) (v : Nat) : State :=
  { s with power := { s.power with
    info := Sparse.set FeedInfo.reset s.power.info s.power.inUse.ctorIdx { s.feedInfo s.power.inUse with vin := v }, ticks := s.power.ticks + 1 } }

/-- The measurements of a plan period are taken. -/
def State.measured (s : State) (m : PlanMeasure) : State :=
  { s.ticked m.vFeed with power := (s.ticked m.vFeed).power.measure (s.ticked m.vFeed).sustained (s.ticked m.vFeed).excursion m.pIn m.pSh }

theorem State.ticks_measured (s : State) (m : PlanMeasure) : (s.measured m).power.ticks = s.power.ticks + 1 := rfl
theorem State.planseq_measured (s : State) (m : PlanMeasure) : (s.measured m).power.planseq = s.power.planseq := rfl
theorem State.mem_measured (s : State) (m : PlanMeasure) : (s.measured m).mem = s.mem := rfl
theorem State.splice_measured (s : State) (m : PlanMeasure) : (s.measured m).splice = s.splice := rfl
theorem State.flash_measured (s : State) (m : PlanMeasure) : (s.measured m).flash = s.flash := rfl

/-- The islands' junctions and the tiles' delays are looked at. -/
def State.surveyed (s : State) (m : PlanMeasure) : State :=
  let u := (List.range 16).foldl (fun s i => (s.setIsland i { s.island i with tj := m.tj.getD i 0 }).heatIsland i (m.tj.getD i 0)) s
  allTiles.foldl (fun s t => s.updTile t fun x =>
    { x with delay := x.delay.shorten (s.island (islandOf t)).rate, starvedNow := !x.grantQ.isEmpty }) u

theorem State.steady_surveyed (s : State) (m : PlanMeasure) : s.Steady (s.surveyed m) :=
  State.Steady.trans (State.Steady.foldl (fun s i => (s.steady_setIsland i _).trans (State.steady_heatIsland _ i _)) _ _)
    (State.Steady.foldl (fun s t => s.steady_updTile t _) _ _)

/-- The state in which a plan period's end has planned. -/
def State.planned (s : State) (m : PlanMeasure) : State := (((s.measured m).surveyed m).plan s.starvedQuires).watchRisk

theorem execEnergyPlan_runs {s : State} (m : PlanMeasure) (h : s.isReady = true) :
    execEnergyPlan m s = .next (if (s.planned m).power.ticks % 100 = 0 then (s.planned m).closeWindow else s.planned m) := by
  unfold execEnergyPlan State.planned State.surveyed State.measured State.ticked
  rw [if_neg (by simp [h])]

/-- What the plan of a period leaves of the state that its measurements give. -/
theorem State.planned_leaves (s : State) (m : PlanMeasure) : (s.planned m).power.ticks = s.power.ticks + 1 ∧
    (s.planned m).power.planseq = (s.power.planseq + 1) % 65536 ∧ (s.planned m).mem = s.mem ∧ (s.planned m).splice = s.splice ∧
    (s.planned m).flash = s.flash := by
  have survey := (s.measured m).steady_surveyed m
  have planned := (((s.measured m).surveyed m).plan_leaves s.starvedQuires).trans
    (State.reported_watchRisk (((s.measured m).surveyed m).plan s.starvedQuires)).steady
  unfold State.planned
  rw [planned.power, planned.mem, planned.splice, planned.flash]
  dsimp only
  rw [survey.power, survey.mem, survey.splice, survey.flash, State.ticks_measured, State.planseq_measured, State.mem_measured,
    State.splice_measured, State.flash_measured]
  exact ⟨rfl, rfl, rfl, rfl, rfl⟩

theorem execEnergyPlan_plans {s : State} (m : PlanMeasure) (h : s.isReady = true) : ∃ t : State, execEnergyPlan m s = .next t ∧
    t.power.ticks = s.power.ticks + 1 ∧ t.power.planseq = (s.power.planseq + 1) % 65536 ∧ t.mem = s.mem ∧ t.splice = s.splice ∧
    t.flash = s.flash := by
  refine ⟨_, execEnergyPlan_runs m h, ?_⟩
  have leaves := s.planned_leaves m
  generalize s.planned m = v at leaves
  split
  · have close := v.closeWindow_leaves
    rw [close.power, close.mem, close.splice, close.flash]
    exact leaves
  · exact leaves

/-! ### The feeds (14 Table 14-5) -/

section
variable {s : State}

theorem execFeedNotGood_backup (h : s.power.state = .main) :
    execFeedNotGood .backup s = .next (((s.setGood .backup false).setFeedState .single).watchRisk).replan := by
  unfold execFeedNotGood
  dsimp only
  rw [show (s.setGood .backup false).power.state = .main from h]
  rfl

theorem execFeedNotGood_main (h : s.power.state = .main) : execFeedNotGood .main s = .next (s.setGood .main false) := by
  unfold execFeedNotGood
  dsimp only
  rw [show (s.setGood .main false).power.state = .main from h]
  rfl

theorem execFeedGood_backup (h : s.power.state = .single) (hu : s.power.inUse = .main) (ht : s.power.tags.backup ≠ 0x3F) :
    execFeedGood .backup s = .next (((s.setGood .backup true).setFeedState .main).watchRisk).replan := by
  unfold execFeedGood
  dsimp only
  rw [if_neg ht, show (s.setGood .backup true).power.state = .single from h]
  dsimp only
  rw [show (s.setGood .backup true).power.inUse = .main from hu]
  rfl

theorem State.inUse_readStraps (tags : FeedTags) : (s.readStraps tags).power.inUse = s.power.inUse := by
  unfold State.readStraps
  dsimp only
  split_ifs <;> rfl

/-- The straps are read, and the module draws from backup. -/
def State.onBackup (s : State) (tags : FeedTags) : State :=
  let r := s.readStraps tags
  ((r.setFeedState (if (r.feedInfo .main).good then .backup else .single)).watchRisk).replan

theorem execFeedTransferDone_backup (h : s.power.state = .switching) (hu : s.power.inUse = .backup) (tags : FeedTags) :
    execFeedTransferDone tags s = .next (match (s.onBackup tags).survive.partner with
      | none => s.onBackup tags
      | some d => (s.onBackup tags).sendTags d) := by
  unfold execFeedTransferDone
  rw [h]
  dsimp only
  rw [State.inUse_readStraps, hu]
  have st : (if (!((s.readStraps tags).feedInfo (otherFeed .backup)).good) = true then FeedState.single else .backup) =
      (if ((s.readStraps tags).feedInfo .main).good then .backup else .single) := by
    change (if (!((s.readStraps tags).feedInfo .main).good) = true then FeedState.single else .backup) = _
    cases ((s.readStraps tags).feedInfo .main).good <;> rfl
  dsimp only
  rw [st]
  change Host.Outcome.next (match (s.onBackup tags).survive.partner with | some d => (s.onBackup tags).sendTags d | none => s.onBackup tags) = _
  cases (s.onBackup tags).survive.partner <;> rfl

section
variable {f : Feed} {r : PmbusReply} (hs : s.power.state ≠ .off)
include hs

theorem execPmbusPoll_answered (hr : r.answered = true) :
    (let v := s.setFeed f { s.feedInfo f with missed := 0, vin := r.vin, iout := r.iout }
     execPmbusPoll f r s = .next (if r.fault then v.feedFails f else v)) :=
  congrArg Host.Outcome.next ((if_neg hs).trans (if_neg (by simp [hr])))

theorem execPmbusPoll_silent (hr : r.answered = false) (hm : (s.feedInfo f).missed = 2) :
    execPmbusPoll f r s = .next ((s.setFeed f { s.feedInfo f with missed := 3 }).alarm .shelfSilent f.ctorIdx) := by
  refine congrArg Host.Outcome.next ((if_neg hs).trans ((if_pos (by simp [hr])).trans ?_))
  dsimp only
  rw [hm]
  rfl

end
end

/-- Settles O59: each command by the checks that it makes, and each event by the state of the supply. -/
theorem powerCommandsAndEvents : Obligations.PowerCommandsAndEvents := by
  refine ⟨fun c x s => ⟨fun p h => ⟨planset_empty h, fun l => planset_bad_ceilings h, fun hsome hc => ⟨planset_policy h hsome hc,
      fun h1 h2 h3 h4 h5 h6 => planset_sets h hsome hc rfl rfl rfl ?plan⟩⟩, planget_answers, fun n q h hr => reading_quire h hr, fun n h hr => reading_owner h hr,
      feeds_answers⟩,
    fun f s => ⟨fun h => congrArg Host.Outcome.next (if_neg (by simp [h])), fun h => congrArg Host.Outcome.next (if_pos (by simp [h])),
      execRingCalibration_publishes, fun t => execMarginLengthen_step, fun t => execMarginLengthen_limit, rfl,
      fun m h => congrArg Host.Outcome.next (if_pos (by simp [h])), execEnergyPlan_plans, rfl, execFeedNotGood_backup, execFeedNotGood_main,
      execFeedGood_backup, fun h => congrArg Host.Outcome.next (if_pos h), execFeedTransferDone_backup,
      fun hb hg => congrArg Host.Outcome.next (if_pos ⟨hb, hg⟩), fun r hs hr => ⟨fun hf => ?fault, fun hf => ?fine⟩,
      fun r hs => execPmbusPoll_silent hs⟩⟩
  case plan =>
    unfold State.planRefused
    omega
  case fault => exact (execPmbusPoll_answered hs hr).trans (congrArg Host.Outcome.next (if_pos hf))
  case fine => exact (execPmbusPoll_answered hs hr).trans (congrArg Host.Outcome.next (if_neg (ne_true_of_eq_false hf)))

end Sys2Proof.Machine
end

section
/-! Bytes that are read stay as they are (09). -/

namespace Sys2Proof.Machine

/-! ### Bytes of memory that are read stay as they are (09 R229, R230) -/

theorem State.bytes_foldl {α : Type} {f : State → α → State} (h : ∀ (s : State) (x : α), (f s x).mem.bytes = s.mem.bytes) (l : List α)
    (s : State) : (l.foldl f s).mem.bytes = s.mem.bytes := by
  induction l generalizing s with
  | nil => rfl
  | cons x l ih => exact (ih _).trans (h s x)

theorem State.Reported.bytes {s t : State} (h : s.Reported t) : t.mem.bytes = s.mem.bytes := congrArg Mem.bytes h.mem

/-- The free regions among those that will vanish are condemned. -/
def State.condemn (s : State) (i : Nat) : State :=
  if (s.region i).state = .free then s.setRegion i { s.region i with state := .condemned } else s

theorem State.bytes_condemn (s : State) (i : Nat) : (s.condemn i).mem.bytes = s.mem.bytes := by
  unfold State.condemn
  split <;> rfl

theorem State.bytes_beginRestripe (s : State) (c : Nat) : (s.beginRestripe c).mem.bytes = s.mem.bytes := by
  unfold State.beginRestripe
  dsimp only
  split <;> rfl

theorem State.bytes_tryRestripe (s : State) (c : Nat) : (s.tryRestripe c).mem.bytes = s.mem.bytes := by
  unfold State.tryRestripe
  dsimp only
  generalize regionsBetween _ _ = rs
  generalize hv : List.foldl _ s rs = v
  have condemned : v.mem.bytes = s.mem.bytes := hv ▸ State.bytes_foldl State.bytes_condemn rs s
  split
  · exact (State.bytes_beginRestripe _ c).trans condemned
  · exact (State.reported_alarm _ .restripeWait c).bytes.trans condemned

theorem State.bytes_candidate (s : State) (c : Nat) (first : Bool) : (s.candidate c first).mem.bytes = s.mem.bytes := by
  unfold State.candidate State.nextRestripe
  dsimp only
  split
  · rfl
  · split
    · exact State.bytes_tryRestripe _ _
    · rfl

theorem State.bytes_loseRegion (s : State) (i : Nat) : (s.loseRegion i).mem.bytes = s.mem.bytes := by
  unfold State.loseRegion
  dsimp only
  split
  · rfl
  · exact (((State.reported_risk _ 48).trans (State.reported_alarm _ .regionLost i)).trans (State.reported_post ..)).bytes

theorem State.bytes_noteEcc (s : State) (a : Nat) (e : Ecc) : (s.noteEcc a e).mem.bytes = s.mem.bytes := by
  unfold State.noteEcc
  cases e with
  | ok => rfl
  | onDie => rfl
  | bad => exact State.bytes_loseRegion _ _
  | corrected =>
    dsimp only
    split
    · refine (State.bytes_candidate _ _ _).trans ?_
      split
      · exact (State.reported_risk _ 1).bytes
      · rfl
    · split
      · exact (State.reported_risk _ 1).bytes
      · rfl

theorem State.bytes_meet (s : State) (p : Nat → Bool) : (s.meet p).2.mem.bytes = s.mem.bytes := by
  unfold State.meet
  refine State.bytes_foldl (fun s e => ?_) _ s
  split
  · exact State.bytes_noteEcc s _ _
  · exact State.bytes_noteEcc _ _ _

/-- What a reading of a span answers, the span holds. -/
theorem State.readSpan_bytes {s u : State} {q a n : Nat} {isSeal copy : Bool} {bs : List Byte}
    (h : s.readSpan q isSeal copy a n = (.ok bs, u)) : bs = s.bytes a n := by
  unfold State.readSpan at h
  split at h
  · cases h
  · split at h
    next => cases h
    next v hv =>
      obtain ⟨rfl, rfl⟩ := Prod.mk.inj h |>.imp Except.ok.inj id
      have kept := State.bytes_meet (s.chargeSpan q a n 1) ((unitsOf a n).contains ·)
      unfold State.bytes
      rw [hv, State.mem_chargeSpan] at kept
      rw [kept]

end Sys2Proof.Machine
end

section
/-! The states of a Splice port (10). -/

namespace Sys2Proof.Machine

/-! ### The states of a Splice port (10 R282–R285) -/

section
variable {p : PortId} {s : State}

theorem execPortEnable_trains (h : (s.port p.val).state = .off ∨ (s.port p.val).state = .failed) :
    execPortEnable p s = .next (s.setPort p.val (Port.train { s.port p.val with en := true })) :=
  congrArg Host.Outcome.next (if_pos h)

section
variable (ht : (s.port p.val).state = .training)
include ht

theorem trains_at {step : TrainStep} (hs : (s.port p.val).step = step) :
    ¬ ((decide ((s.port p.val).state ≠ .training) || decide ((s.port p.val).step ≠ step)) = true) := by
  simp [ht, hs]

theorem execLaneAdaptationDone_halves {low high : Bool} (hs : (s.port p.val).step = .adaptation)
    (h : ((low && high) || ((low || high) && (s.port p.val).halfok)) = true) :
    execLaneAdaptationDone p low high s = .next (s.setPort p.val { s.port p.val with
      lowOk := low, highOk := high, highHalf := high && !low, step := .alignment }) :=
  congrArg Host.Outcome.next ((if_neg (trains_at ht hs)).trans (if_pos h))

theorem execLaneAdaptationDone_fails (hs : (s.port p.val).step = .adaptation) :
    execLaneAdaptationDone p false false s = .next (s.failPort p.val 1) :=
  congrArg Host.Outcome.next ((if_neg (trains_at ht hs)).trans (if_neg Bool.false_ne_true))

theorem execAlignmentDone_step (hs : (s.port p.val).step = .alignment) (ok : Bool) : execAlignmentDone p ok s =
    .next (if ok then s.setPort p.val { s.port p.val with step := .keys } else s.failPort p.val 2) :=
  congrArg Host.Outcome.next (if_neg (trains_at ht hs))

section
variable {o : PeerOffer} (hs : (s.port p.val).step = .keys)
include hs

theorem execKeyExchangeDone_untrusted (h : o.chainOk = false ∨ o.svn < s.peerSvn) :
    execKeyExchangeDone p o s = .next (s.failPort p.val 4) := by
  refine congrArg Host.Outcome.next ((if_neg (trains_at ht hs)).trans (if_pos ?_))
  rcases h with h | h <;> simp [h]

variable (hc : o.chainOk = true) (hv : s.peerSvn ≤ o.svn)
include hc hv

omit ht hs in
theorem peer_trusted : ¬ ((!o.chainOk || decide (o.svn < s.peerSvn)) = true) := by
  simp [hc, Nat.not_lt.mpr hv]

theorem execKeyExchangeDone_miscabled (hm : (s.port p.val).member = true) (hw : s.cabledRight p.val o = false) :
    execKeyExchangeDone p o s = .next (s.failPort p.val 3) :=
  congrArg Host.Outcome.next ((if_neg (trains_at ht hs)).trans ((if_neg (peer_trusted hc hv)).trans (if_pos (by simp [hm, hw]))))

theorem execKeyExchangeDone_up (hm : (s.port p.val).member = true → s.cabledRight p.val o = true) :
    execKeyExchangeDone p o s = .next (({ s with free := s.free + 1 } : State).setPort p.val (Port.rekey { s.port p.val with
      state := if (s.port p.val).lowOk && (s.port p.val).highOk then .up else .half, peer := o.device.toNat, pport := o.port.val,
      incarnation := o.incarnation.toNat, secret := s.free, txIndex := 0, rxIndex := 0, counter := 0 } s.device.toNat)) := by
  have right : ¬ (((s.port p.val).member && !s.cabledRight p.val o) = true) := fun h => by
    obtain ⟨member, wrong⟩ := Bool.and_eq_true_iff.mp h
    simp [hm member] at wrong
  exact congrArg Host.Outcome.next ((if_neg (trains_at ht hs)).trans ((if_neg (peer_trusted hc hv)).trans (if_neg right)))

end

theorem execPortDisable_training : execPortDisable p s = .next (s.setPort p.val { s.port p.val with en := false, state := .off }) :=
  congrArg Host.Outcome.next ((if_neg (by simp [Port.isUp, ht])).trans (if_neg (by simp [ht])))

end

theorem State.startLive_live (hu : (s.port p.val).isUp = true) (hl : (s.port p.val).live = false) : s.startLive p.val =
    (s.setPort p.val { s.port p.val with live := true, retrains := ((s.port p.val).retrains + 1) % 65536 }).risk 2 :=
  if_neg (by simp [hu, hl])

theorem execLiveRetrainDone_live (hl : (s.port p.val).live = true) (ok : Bool) : execLiveRetrainDone p ok s =
    .next (if ok then s.setPort p.val { s.port p.val with
        live := false, resend := (s.port p.val).replay.head?.map (·.fseq), replay := (s.port p.val).replay.map fun f => { f with resent := 0 } }
      else s.failPort p.val (if (s.port p.val).replay.any (8 ≤ ·.resent) then 5 else 1)) :=
  congrArg Host.Outcome.next (if_neg (by simp [hl]))

/-- A port that begins to drain, where no close has gone out, is not off at once. -/
theorem Port.settle_draining {x : Port} (hd : x.state = .draining) (hc : x.closeSent = false) :
    x.settle = { x with closing := x.closing || x.outq.isEmpty } :=
  (if_neg (by simp [hd])).trans (if_neg (by simp [hc]))

theorem execPortDisable_up (hu : (s.port p.val).isUp = true) (hc : (s.port p.val).closeSent = false) :
    execPortDisable p s = .next (s.setPort p.val { s.port p.val with
      en := false, state := .draining, live := false, closing := (s.port p.val).closing || (s.port p.val).outq.isEmpty }) :=
  congrArg Host.Outcome.next ((if_pos hu).trans (congrArg (s.setPort p.val) (Port.settle_draining rfl hc)))

end

/-- Settles O45: the branches of each event of a port. -/
theorem splicePortStates : Obligations.SplicePortStates := by
  refine fun p s => ⟨execPortEnable_trains, fun ht hs => execLaneAdaptationDone_halves ht hs rfl,
    fun ht hs hh => execLaneAdaptationDone_halves ht hs (by simp [hh]), execLaneAdaptationDone_fails,
    fun ht hs => execAlignmentDone_step ht hs true, fun ht hs => execAlignmentDone_step ht hs false,
    fun o ht hs => ⟨execKeyExchangeDone_up ht hs, execKeyExchangeDone_miscabled ht hs, execKeyExchangeDone_untrusted ht hs⟩,
    fun hu hl => ⟨congrArg Host.Outcome.next (State.startLive_live hu hl), congrArg Host.Outcome.next (State.startLive_live hu hl)⟩,
    fun hl => execLiveRetrainDone_live hl true, fun hl => execLiveRetrainDone_live hl false, execPortDisable_training, execPortDisable_up,
    fun hd => congrArg Host.Outcome.next (if_neg (by simp [hd])), fun hf he => congrArg Host.Outcome.next (if_pos ⟨hf, he⟩)⟩

end Sys2Proof.Machine
end

section
/-! Frames and packets of the Splice (10). -/

namespace Sys2Proof.Machine

/-! ### Frames (10 R259–R265) -/

section
variable {p : PortId} {s : State}

/-- A port is set twice. -/
theorem State.setPort_setPort (s : State) (p : Nat) (x y : Port) : (s.setPort p x).setPort p y = s.setPort p y := by
  simp [State.setPort]

section
variable (hc : (s.port p.val).carries = true)
include hc

section
variable (hn : (s.port p.val).counter < 2 ^ 32 - 1)
include hn

theorem frame_goes : ¬ ((!(s.port p.val).carries || decide (2 ^ 32 - 1 ≤ (s.port p.val).counter)) = true) := by
  rw [hc, decide_eq_false (Nat.not_le.mpr hn)]
  exact Bool.false_ne_true

theorem execFrameSend_idle (hr : (s.port p.val).resend = none)
    (h : 512 ≤ (s.port p.val).replay.length ∨ (Port.fill 25 (s.port p.val)).1 = []) : execFrameSend p s =
      .next (s.setPort p.val (Port.emit (s.port p.val) (s.frame (s.port p.val) (s.port p.val).txSeq true [])).settle) := by
  refine congrArg Host.Outcome.next ((if_neg (frame_goes hc hn)).trans ?_)
  dsimp only
  rw [hr]
  refine ite_eq_iff'.mpr ⟨fun _ => rfl, fun hl => ?_⟩
  have empty := h.resolve_left hl
  generalize Port.fill 25 (s.port p.val) = w at empty
  obtain ⟨bs, y⟩ := w
  subst empty
  rfl

theorem execFrameSend_new (hr : (s.port p.val).resend = none) (hl : (s.port p.val).replay.length < 512)
    (hf : (Port.fill 25 (s.port p.val)).1 ≠ []) : execFrameSend p s =
      .next (s.setPort p.val (Port.emit { (Port.fill 25 (s.port p.val)).2 with
        txSeq := (s.port p.val).txSeq + 1, replay := (Port.fill 25 (s.port p.val)).2.replay ++
          [{ fseq := (s.port p.val).txSeq + 1, blocks := (Port.fill 25 (s.port p.val)).1, resent := 0 }] }
        (s.frame (s.port p.val) ((s.port p.val).txSeq + 1) false (Port.fill 25 (s.port p.val)).1)).settle) := by
  refine congrArg Host.Outcome.next ((if_neg (frame_goes hc hn)).trans ?_)
  dsimp only
  rw [hr]
  refine (if_neg (Nat.not_le.mpr hl)).trans ?_
  generalize Port.fill 25 (s.port p.val) = w at hf
  obtain ⟨_ | ⟨b, bs⟩, y⟩ := w
  · exact absurd rfl hf
  · rfl

theorem execFrameSend_again {q : BitVec 16} {f : Sent} (hr : (s.port p.val).resend = some q)
    (hq : (s.port p.val).replay.find? (·.fseq == q) = some f) (h7 : f.resent < 7) : execFrameSend p s =
      .next (s.setPort p.val { ((s.port p.val).emit (s.frame (s.port p.val) f.fseq false f.blocks)) with
        replay := (s.port p.val).replay.map fun g => if g.fseq = f.fseq then { g with resent := f.resent + 1 } else g
        resend := (((s.port p.val).replay.dropWhile (·.fseq ≠ f.fseq)).drop 1).head?.map (·.fseq), retry := satAdd 16 (s.port p.val).retry 1 }) := by
  refine congrArg Host.Outcome.next ((if_neg (frame_goes hc hn)).trans ?_)
  have found : ((s.port p.val).resend.bind fun q => (s.port p.val).replay.find? (·.fseq == q)) = some f := by
    rw [hr]
    exact hq
  dsimp only
  rw [found]
  exact if_neg (by omega)

end

section
variable {fr : Frame}

/-- The port with the corrections of a frame counted. -/
def Port.counts (x : Port) (fr : Frame) : Port := { x with fec := satAdd 32 x.fec fr.fixed }

/-- What a good frame acknowledges is off the replay buffer, and its keys are in force. -/
def Port.takes (x : Port) (fr : Frame) (self : Nat) : Port := ((x.counts fr).acknowledge fr).rekey self

theorem execFrameReceive_eq : execFrameReceive p fr s = .next (
    if !fr.fecOk then s.setPort p.val { (s.port p.val).counts fr with uncorr := satAdd 16 (s.port p.val).uncorr 1, naking := true }
    else if !fr.crcOk then s.setPort p.val { (s.port p.val).counts fr with crcfail := satAdd 16 (s.port p.val).crcfail 1, naking := true }
    else if !fr.tagOk then
      (s.setPort p.val { (s.port p.val).counts fr with tagfail := satAdd 16 (s.port p.val).tagfail 1 }).failPort p.val 6 |>.alarm .tagForged p.val
    else
      let x := (s.port p.val).takes fr s.device.toNat
      let s := if fr.idle then s.setPort p.val x
        else if fr.fseq = x.rxSeq + 1 then
          (s.setPort p.val { x with rxSeq := fr.fseq, naking := false }).acceptBlocks p.val fr.blocks
        else s.setPort p.val { x with naking := true }
      s.setPort p.val (s.port p.val).settle) := by
  unfold execFrameReceive Port.takes Port.counts
  dsimp only
  rw [if_pos hc]
  exact congrArg Host.Outcome.next (if_neg (ne_true_of_eq_false (congrArg not hc)))

theorem execFrameReceive_uncorrectable (hf : fr.fecOk = false) : execFrameReceive p fr s =
    .next (s.setPort p.val { (s.port p.val).counts fr with uncorr := satAdd 16 (s.port p.val).uncorr 1, naking := true }) :=
  (execFrameReceive_eq hc).trans (congrArg Host.Outcome.next (if_pos (by simp [hf])))

section
variable (hf : fr.fecOk = true)
include hf

theorem execFrameReceive_crc (hr : fr.crcOk = false) : execFrameReceive p fr s =
    .next (s.setPort p.val { (s.port p.val).counts fr with crcfail := satAdd 16 (s.port p.val).crcfail 1, naking := true }) :=
  (execFrameReceive_eq hc).trans (congrArg Host.Outcome.next ((if_neg (by simp [hf])).trans (if_pos (by simp [hr]))))

variable (hr : fr.crcOk = true) (ht : fr.tagOk = true)
include hr ht

theorem execFrameReceive_good : execFrameReceive p fr s = .next (
    let x := (s.port p.val).takes fr s.device.toNat
    let s := if fr.idle then s.setPort p.val x
      else if fr.fseq = x.rxSeq + 1 then
        (s.setPort p.val { x with rxSeq := fr.fseq, naking := false }).acceptBlocks p.val fr.blocks
      else s.setPort p.val { x with naking := true }
    s.setPort p.val (s.port p.val).settle) :=
  (execFrameReceive_eq hc).trans (congrArg Host.Outcome.next
    ((if_neg (by simp [hf])).trans ((if_neg (by simp [hr])).trans (if_neg (by simp [ht])))))

theorem execFrameReceive_idle (hi : fr.idle = true) : execFrameReceive p fr s =
    .next (s.setPort p.val ((s.port p.val).takes fr s.device.toNat).settle) := by
  rw [execFrameReceive_good hc hf hr ht]
  dsimp only
  rw [if_pos hi, State.port_setPort, State.setPort_setPort]

section
variable (hi : fr.idle = false)
include hi

theorem execFrameReceive_next (hq : fr.fseq = ((s.port p.val).takes fr s.device.toNat).rxSeq + 1) :
    (let u := (s.setPort p.val { (s.port p.val).takes fr s.device.toNat with rxSeq := fr.fseq, naking := false }).acceptBlocks p.val fr.blocks
     execFrameReceive p fr s = .next (u.setPort p.val (u.port p.val).settle)) := by
  rw [execFrameReceive_good hc hf hr ht]
  dsimp only
  rw [if_neg (ne_true_of_eq_false hi), if_pos hq]

theorem execFrameReceive_disordered (hq : fr.fseq ≠ ((s.port p.val).takes fr s.device.toNat).rxSeq + 1) : execFrameReceive p fr s =
    .next (s.setPort p.val (Port.settle { (s.port p.val).takes fr s.device.toNat with naking := true })) := by
  rw [execFrameReceive_good hc hf hr ht]
  dsimp only
  rw [if_neg (ne_true_of_eq_false hi), if_neg hq, State.port_setPort, State.setPort_setPort]

end
end
end
end

/-! ### Packets that a port holds (10 R278–R280, 11 R299) -/

section
variable {k : SPacket} {u : State}

theorem execRemoteRequest_answers (hh : s.remoteHeld p.val = false) (hk : s.consume p.val isRequest = some (k, u)) (hf : copyFlag k = false) :
    execRemoteRequest p s =
      .next ((u.remoteAnswer k).2.2.originate (replyTo (u.remoteAnswer k).2.2.device k (u.remoteAnswer k).1 (u.remoteAnswer k).2.1)) := by
  unfold execRemoteRequest
  rw [if_neg (ne_true_of_eq_false hh), hk]
  dsimp only
  rw [if_neg (by simp [hf])]

theorem execRemoteWriteResponse_reaches (hk : s.consume p.val isResponse = some (k, u)) :
    execRemoteWriteResponse p s = .next (if k.tile = 0xFF then u.transferAnswer k else u.answerRemote k) := by
  unfold execRemoteWriteResponse
  rw [hk]

theorem execEventSignalPacket_signals (hk : s.consume p.val (·.type == 0x38) = some (k, u)) : execEventSignalPacket p s =
    .next (u.signal (bitsOf (wordAt k.payload 0) 0 8) (bitsOf (wordAt k.payload 0) 8 3) (bitsOf (wordAt k.payload 0) 11 5)) := by
  unfold execEventSignalPacket
  rw [hk]

section
variable (hk : s.consume p.val (fun k => laneOf k.type.toNat == 2) = some (k, u))
include hk

theorem execCollectivePacket_groupless (hg : u.group (bitsOf k.addr.toNat 0 12) = none) : execCollectivePacket p s = .next u.countBad := by
  unfold execCollectivePacket
  rw [hk]
  dsimp only
  rw [hg]

variable {e : Group} (hg : u.group (bitsOf k.addr.toNat 0 12) = some e)
include hg

theorem execCollectivePacket_rankless (hr : u.rankOf e k.src.toNat = none) : execCollectivePacket p s = .next u.countBad := by
  unfold execCollectivePacket
  rw [hk]
  dsimp only
  rw [hg]
  dsimp only
  rw [hr]

variable {r : Nat} (hr : u.rankOf e k.src.toNat = some r)
include hr

theorem execCollectivePacket_of_rank : execCollectivePacket p s = .next (
    let g := bitsOf k.addr.toNat 0 12
    let seq := bitsOf k.addr.toNat 12 32
    if !e.inWindow seq then u.raiseColl g e.nextseq 5
    else if !u.hasRight k.dquire.toNat k.src.toNat k.squire.toNat then u.raiseColl g seq 4
    else if bitsOf k.addr.toNat 44 20 ≠ e.gsig then u.raiseColl g seq 5
    else ((u.openColl g seq e).arrived g seq
      [{ type := k.type.toNat, rank := r, chunk := k.word3.toNat, bytes := k.payload }]).advanceColl g) := by
  unfold execCollectivePacket
  rw [hk]
  dsimp only
  rw [hg]
  dsimp only
  rw [hr]

end
end
end

/-! ### What a remote request is answered (10 R278, Table 10-7) -/

/-- The answer to a remote request by what the reading of its span gave. -/
def readAnswer : Except Fail (List Byte) × State → Nat × List Byte × State
  | (.error f, s) => (refusalStatus f, [], s)
  | (.ok bs, s) => (0, bs, s)

section
variable {k : SPacket} {s : State}

theorem State.remoteAnswer_malformed (hf : formOk s.device k = false) : s.remoteAnswer k = (6, [], s) :=
  if_pos (by simp [hf])

section
variable (hf : formOk s.device k = true)
include hf

theorem State.remoteAnswer_unpaired (hc : copyFlag k = true) (hp : s.copyPair k = false) : s.remoteAnswer k = (3, [], s) :=
  (if_neg (by simp [hf])).trans (if_pos (by simp [hc, hp]))

variable (hc : copyFlag k = false)
include hc

theorem State.remoteAnswer_rightless (hr : s.hasRight k.dquire.toNat k.src.toNat k.squire.toNat = false) :
    s.remoteAnswer k = (3, [], s) :=
  (if_neg (by simp [hf])).trans (if_pos (by simp [hc, hr]))

variable (hr : s.hasRight k.dquire.toNat k.src.toNat k.squire.toNat = true)
include hr

theorem State.remoteAnswer_beyond (hm : s.memTop < (remoteSpan k).1 + (remoteSpan k).2) : s.remoteAnswer k = (1, [], s) :=
  (if_neg (by simp [hf])).trans ((if_neg (by simp [hc, hr])).trans (if_pos hm))

variable (hm : (remoteSpan k).1 + (remoteSpan k).2 ≤ s.memTop)
include hm

theorem State.remoteAnswer_performs : s.remoteAnswer k = s.performRemote k :=
  (if_neg (by simp [hf])).trans ((if_neg (by simp [hc, hr])).trans (if_neg (Nat.not_lt.mpr hm)))

variable (hs : (s.region ((remoteSpan k).1 / 2 ^ 21)).state ≠ .scrubbing) (hd : (s.quire k.dquire.toNat).use ≠ .drained)
  (ht : k.type = 1 ∨ k.type = 5)
include hs hd ht

omit hf hr hm in
theorem State.performRemote_reads :
    s.performRemote k = readAnswer (s.readSpan k.dquire.toNat false false (remoteSpan k).1 (remoteSpan k).2) := by
  unfold State.performRemote
  generalize remoteSpan k = span at hs ⊢
  obtain ⟨a, n⟩ := span
  have here : ¬ (((s.region (a / 2 ^ 21)).quire == k.dquire.toNat && (decide ((s.region (a / 2 ^ 21)).state = .scrubbing) ||
      decide ((s.quire k.dquire.toNat).use = .drained))) = true) := fun h =>
    (Bool.or_eq_true_iff.mp (Bool.and_eq_true_iff.mp h).2).elim (fun c => hs (of_decide_eq_true c)) (fun c => hd (of_decide_eq_true c))
  have reads : ¬ (k.type = 2 ∨ k.type = 4) := by
    rcases ht with h | h <;> rw [h] <;> decide
  have plain : ¬ k.type = 3 := by
    rcases ht with h | h <;> rw [h] <;> decide
  refine (if_neg here).trans ((if_neg reads).trans ?_)
  rw [hc]
  dsimp only
  generalize State.readSpan .. = w
  obtain ⟨_ | bs, u⟩ := w
  · rfl
  · exact if_neg plain

theorem State.remoteAnswer_refused {f : Fail} {u : State}
    (h : s.readSpan k.dquire.toNat false false (remoteSpan k).1 (remoteSpan k).2 = (.error f, u)) :
    s.remoteAnswer k = (refusalStatus f, [], u) :=
  (State.remoteAnswer_performs hf hc hr hm).trans ((State.performRemote_reads hc hs hd ht).trans (congrArg readAnswer h))

theorem State.remoteAnswer_reads {bs : List Byte} {u : State}
    (h : s.readSpan k.dquire.toNat false false (remoteSpan k).1 (remoteSpan k).2 = (.ok bs, u)) :
    s.remoteAnswer k = (0, bs, u) :=
  (State.remoteAnswer_performs hf hc hr hm).trans ((State.performRemote_reads hc hs hd ht).trans (congrArg readAnswer h))

end
end

/-- Settles O46: frames and packets by the checks in their order, and a remote read by what the reading of its span answers. -/
theorem spliceFramesAndPackets : Obligations.SpliceFramesAndPackets := by
  refine ⟨fun p s => ⟨fun hc hn => ⟨execFrameSend_idle hc hn, execFrameSend_new hc hn, fun q f => execFrameSend_again hc hn⟩,
      fun fr hc => ⟨execFrameReceive_uncorrectable hc, execFrameReceive_crc hc, fun hf hr ht => ⟨execFrameReceive_idle hc hf hr ht,
        execFrameReceive_next hc hf hr ht, execFrameReceive_disordered hc hf hr ht⟩⟩,
      fun hc => congrArg Host.Outcome.next (if_pos hc), fun hc => congrArg Host.Outcome.next (if_pos hc),
      fun k u => execRemoteRequest_answers,
      fun k u hk => ⟨fun h => (execRemoteWriteResponse_reaches hk).trans (congrArg Host.Outcome.next (if_pos h)),
        fun h => (execRemoteWriteResponse_reaches hk).trans (congrArg Host.Outcome.next (if_neg h))⟩,
      fun k u => execEventSignalPacket_signals,
      fun k u hk => ⟨execCollectivePacket_groupless hk, fun e => execCollectivePacket_rankless hk, fun e r hg hr => ⟨fun hw => ?late, fun hw hq hs => ?used⟩⟩⟩,
    fun k s => ⟨State.remoteAnswer_malformed, State.remoteAnswer_rightless, State.remoteAnswer_unpaired, State.remoteAnswer_beyond,
      fun hf hc hr hm hs hd ht => ⟨fun f u => State.remoteAnswer_refused hf hc hr hm hs hd ht,
        fun bs u h => ⟨State.readSpan_bytes h, State.remoteAnswer_reads hf hc hr hm hs hd ht h⟩⟩⟩⟩
  case late => exact (execCollectivePacket_of_rank hk hg hr).trans (congrArg Host.Outcome.next (if_pos (by simp [hw])))
  case used =>
    exact (execCollectivePacket_of_rank hk hg hr).trans (congrArg Host.Outcome.next
      ((if_neg (by simp [hw])).trans ((if_neg (by simp [hq])).trans (if_neg (not_not_intro hs)))))

end Sys2Proof.Machine
end

section
/-! Channels, stacks and work over regions (09, 13). -/

namespace Sys2Proof.Machine

/-! ### What channels and stacks do on their own (09 R225, R232–R239; 15 R379) -/

section
variable {c : ChannelId} {m : StackId} {s : State}

theorem State.setStack_setStack (s : State) (m : Nat) (x y : Stack) : (s.setStack m x).setStack m y = s.setStack m y := by
  simp [State.setStack]

theorem execPatrolScrub_reads {u : Nat} {e : Ecc} (he : (s.stackOf m.val).patrolEn = true) (hs : (s.stackOf m.val).stopped = false)
    (hm : 32 * u < s.memTop) (hc : s.channelOf (32 * u) / 32 = m.val) :
    (let k := { s.stackOf m.val with
       patrolAt := u, passes := if u < (s.stackOf m.val).patrolAt then ((s.stackOf m.val).passes + 1) % 65536 else (s.stackOf m.val).passes }
     let v := s.setStack m.val (Stack.charge k 16 1)
     execPatrolScrub m u e s = .next ((if e = .ok then v else v.strike u e).meet (· == u)).2) := by
  unfold execPatrolScrub
  dsimp only
  rw [if_neg (by simp [he, hs, hm, hc]), State.stackOf_setStack, State.setStack_setStack]

theorem execRetrainStart_quiesces {ms : Nat} (hd : (s.chan c.val).due = true ∨ (s.stackOf (c.val / 32)).period ≤ ms)
    (hl : (s.chan c.val).state = .live) (hq : (s.chan c.val).quiet = false) (hv : (s.stackOf (c.val / 32)).level ≠ 0)
    (hs : (s.stackOf (c.val / 32)).stopped = false) (hm : s.retraining ((List.range 32).map (32 * (c.val / 32) + ·)) = 0)
    (h8 : s.retraining (List.range 640) < 8) :
    execRetrainStart c ms s = .next (s.setChan c.val { s.chan c.val with state := .retraining, retrain := .quiescing }) := by
  have due : (!(s.chan c.val).due && decide (ms < (s.stackOf (c.val / 32)).period)) = false := by
    rcases hd with h | h
    · simp [h]
    · simp [Nat.not_lt.mpr h]
  unfold execRetrainStart
  dsimp only
  generalize s.retraining (List.range 640) = busy at h8 ⊢
  generalize s.retraining ((List.range 32).map _) = mine at hm ⊢
  refine congrArg Host.Outcome.next (if_neg ?_)
  simp [due, hl, hq, hv, hs, hm, h8]

section
variable (ht : (s.chan c.val).retrain = .training)
include ht

theorem execRetrainTrainDone_met : execRetrainTrainDone c true s = .next (s.setChan c.val { s.chan c.val with
      retrain := .resuming, retrains := ((s.chan c.val).retrains + 1) % 65536, fails := 0 }) :=
  congrArg Host.Outcome.next (if_neg (not_not_intro ht))

theorem execRetrainTrainDone_failed : execRetrainTrainDone c false s = .next (((s.setChan c.val { s.chan c.val with
      retrain := .resuming, fails := satAdd 8 (s.chan c.val).fails 1 }).alarm .retrainFailed c.val).risk 8).watchRisk := by
  unfold execRetrainTrainDone
  dsimp only
  rw [if_neg (not_not_intro ht), if_neg Bool.false_ne_true]

end

theorem execLanePhaseTrack_moves (lane : Fin 64) (up : Bool) :
    (let q := clampInt (-16) 16 (signedOf 6 (Sparse.get 0 (s.chan c.val).phases lane.val) + if up then 1 else -1)
     execLanePhaseTrack c lane up s = .next (s.setChan c.val { s.chan c.val with
       phases := Sparse.set 0 (s.chan c.val).phases lane.val (unsignedOf 6 q), due := (s.chan c.val).due || decide (q.natAbs = 16) })) := by
  cases up <;> rfl

theorem execThermalStopBound_ends (hs : (s.stackOf m.val).stopped = true) :
    (let u := ((s.setStack m.val { s.stackOf m.val with
      stopms := min 65535 (max (s.stackOf m.val).stopms (s.stackOf m.val).stopbound) }).alarm .stopBound m.val).risk 64
     exec (.thermalStopBound m) s = .next (u.colls.foldl (fun s c => s.raiseColl c.group c.seq 1) u)) := by
  change execThermalStopBound m s = _
  unfold execThermalStopBound
  dsimp only
  rw [if_neg (by simp [hs])]

/-! ### A dead channel (09 R245, 16 R385) -/

/-- The channels are as they were, and no log record is forgotten. -/
structure State.KeepsLog (s t : State) : Prop where
  chans : t.chans = s.chans
  logRing : t.logRing = s.logRing
  logLost : s.logLost ≤ t.logLost

namespace State.KeepsLog

theorem refl (s : State) : s.KeepsLog s := ⟨rfl, rfl, Nat.le_refl _⟩

theorem trans {s t u : State} (h : s.KeepsLog t) (k : t.KeepsLog u) : s.KeepsLog u :=
  ⟨k.chans.trans h.chans, k.logRing.trans h.logRing, Nat.le_trans h.logLost k.logLost⟩

theorem foldl {α : Type} {f : State → α → State} (h : ∀ (s : State) (x : α), s.KeepsLog (f s x)) (l : List α) (s : State) :
    s.KeepsLog (l.foldl f s) := by
  induction l generalizing s with
  | nil => exact refl s
  | cons x l ih => exact (h s x).trans (ih _)

end State.KeepsLog

theorem State.Reported.keepsLog {s t : State} (h : s.Reported t) : s.KeepsLog t := ⟨h.chans, h.logRing, h.1⟩

theorem State.keepsLog_loseRegion (s : State) (i : Nat) : s.KeepsLog (s.loseRegion i) := by
  unfold State.loseRegion
  dsimp only
  split
  · exact .refl s
  · refine State.KeepsLog.trans ?_
      (((State.reported_risk _ 48).trans (State.reported_alarm _ .regionLost i)).trans (State.reported_post ..)).keepsLog
    exact ⟨rfl, rfl, Nat.le_refl _⟩

theorem State.keepsLog_zeroBytes (s : State) (a n : Nat) : s.KeepsLog (s.zeroBytes a n) := ⟨rfl, rfl, Nat.le_refl _⟩

theorem State.keepsLog_condemn (s : State) (i : Nat) : s.KeepsLog (s.condemn i) := by
  unfold State.condemn
  split
  · exact ⟨rfl, rfl, Nat.le_refl _⟩
  · exact .refl s

/-- A channel that is dead stays dead when it is taken out of the map. -/
theorem State.keepsLog_tryRestripe {s : State} {c : Nat} (h : (s.chan c).state = .dead) : s.KeepsLog (s.tryRestripe c) := by
  unfold State.tryRestripe
  dsimp only
  generalize regionsBetween _ _ = rs
  generalize hv : List.foldl _ s rs = v
  have condemned : s.KeepsLog v := hv ▸ State.KeepsLog.foldl State.keepsLog_condemn rs s
  split
  · have dead : (v.chan c).state = .dead := by
      unfold State.chan at h ⊢
      rwa [condemned.chans]
    refine condemned.trans ?_
    unfold State.beginRestripe
    dsimp only
    rw [if_pos dead]
    exact ⟨rfl, rfl, Nat.le_refl _⟩
  · refine condemned.trans (State.KeepsLog.trans ?_ (State.reported_alarm _ .restripeWait c).keepsLog)
    exact ⟨rfl, rfl, Nat.le_refl _⟩

theorem State.keepsLog_candidate {s : State} {c : Nat} (h : (s.chan c).state = .dead) : s.KeepsLog (s.candidate c true) := by
  unfold State.candidate State.nextRestripe
  dsimp only
  split
  · exact .refl s
  · split
    next hw =>
      obtain ⟨rfl, rfl⟩ := List.cons.inj hw
      refine State.KeepsLog.trans ?_ (State.keepsLog_tryRestripe h)
      exact ⟨rfl, rfl, Nat.le_refl _⟩
    next => exact ⟨rfl, rfl, Nat.le_refl _⟩

/-- What a region suffers when a channel dies. -/
def State.bereave (s : State) (e : Nat × Region) : State :=
  if e.2.state = .assigned || e.2.state = .rotating then s.loseRegion e.1
  else if e.2.state = .held then s.zeroBytes (e.1 * 2 ^ 21) (2 ^ 21)
  else s

theorem State.keepsLog_bereave (s : State) (e : Nat × Region) : s.KeepsLog (s.bereave e) := by
  unfold State.bereave
  split
  · exact s.keepsLog_loseRegion _
  · split
    · exact s.keepsLog_zeroBytes _ _
    · exact .refl s

theorem execChannelDead_dies (hd : (s.chan c.val).state ≠ .dead) (hm : (s.chan c.val).state ≠ .mappedOut)
    (hu : (s.chan c.val).state ≠ .untrained) : ∃ t : State, execChannelDead c s = .next t ∧
      s.logLost + s.logRing.length ≤ t.logLost ∧ (t.chan c.val).state = .dead ∧ (s.mem.restripe ≠ .idle → t.logRing = []) := by
  let u := (s.setChan c.val { s.chan c.val with state := .dead }).alarm .channelDead c.val
  let v := u.mem.regions.foldl State.bereave u
  refine ⟨({ v with logLost := v.logLost + v.logRing.length, logRing := [] } : State).candidate c.val true,
    congrArg Host.Outcome.next (if_neg (by simp [hd, hm, hu])), ?_⟩
  have before : (s.setChan c.val { s.chan c.val with state := .dead }).KeepsLog v :=
    (State.reported_alarm _ .channelDead c.val).keepsLog.trans (State.KeepsLog.foldl State.keepsLog_bereave _ u)
  clear_value v
  have dead : (v.chan c.val).state = .dead := by
    unfold State.chan
    rw [before.chans]
    exact congrArg Chan.state (State.chan_setChan s c.val _)
  have after := State.keepsLog_candidate (s := { v with logLost := v.logLost + v.logRing.length, logRing := [] }) dead
  refine ⟨Nat.le_trans ?_ after.logLost, ?_, fun _ => after.logRing⟩
  · dsimp only
    rw [before.logRing]
    exact Nat.add_le_add_right before.logLost _
  · unfold State.chan
    rw [after.chans]
    exact dead

end

/-! ### Work over regions (09 R240–R245; 13 R332, R342) -/

theorem State.mem_chargeMove (s : State) (w n : Nat) : (s.chargeMove w n).mem = s.mem := State.mem_foldl_setStack _ _ _ s

/-- Nothing is met where no error has arisen. -/
theorem State.meet_errless {s : State} (h : s.mem.errs = []) (p : Nat → Bool) : (s.meet p).2 = s :=
  congrArg Prod.snd (State.meet_clean (by simp [h]))

section
variable {s : State} (hr : s.mem.restripe = .running) (hd : (s.chan s.mem.target).state ≠ .dead)
include hr hd

/-- Errors in the units that a batch moves from granule `w` to granule `w'`. -/
def movedUnit (w w' u : Nat) : Bool := decide (8 * w ≤ u) && decide (u < 8 * w')

/-- The units that a batch moves have been read, and those that cannot be corrected are zeros. -/
def State.batchRead (s : State) (w w' : Nat) : State :=
  (s.mem.errs.filter fun e => movedUnit w w' e.1 && e.2 == .bad).foldl (fun s e => s.zeroBytes (32 * e.1) 32) (s.meet (movedUnit w w')).2

/-- A batch has moved. -/
def State.batchMoved (s : State) (w w' : Nat) : State :=
  { (s.batchRead w w').chargeMove w (w' - w) with mem := { ((s.batchRead w w').chargeMove w (w' - w)).mem with wm := w' } }

theorem execRestripeBatch_moves {w' : Nat} (hw : min (capacity (s.mem.n - 1) * 2 ^ 22) (s.mem.wm + 4096) = w') : execRestripeBatch s =
    .next (if w' = capacity (s.mem.n - 1) * 2 ^ 22 then (s.batchMoved s.mem.wm w').endRestripe else s.batchMoved s.mem.wm w') := by
  subst hw
  have alive : ((s.chan s.mem.target).state == .dead) = false := beq_false_of_ne hd
  unfold execRestripeBatch State.batchMoved State.batchRead movedUnit
  dsimp only
  rw [if_neg (not_not_intro hr), alive, if_neg Bool.false_ne_true]

omit hr hd in
theorem State.batchMoved_errless (he : s.mem.errs = []) (w w' : Nat) :
    s.batchMoved w w' = { s.chargeMove w (w' - w) with mem := { (s.chargeMove w (w' - w)).mem with wm := w' } } := by
  have read : s.batchRead w w' = s := by
    unfold State.batchRead
    rw [State.meet_errless he, he]
    rfl
  unfold State.batchMoved
  rw [read]

omit hr hd in
/-- Zeros in some units, and nothing else. -/
theorem Sparse.get_zeroUnits (es : List (Nat × Ecc)) (s : State) (b : Nat) :
    Sparse.get 0 (es.foldl (fun s e => s.zeroBytes (32 * e.1) 32) s).mem.bytes b =
      if ∃ e ∈ es, e.1 = b / 32 then 0 else Sparse.get 0 s.mem.bytes b := by
  induction es generalizing s with
  | nil => simp
  | cons e es ih =>
    have here : (32 * e.1 ≤ b ∧ b < 32 * e.1 + 32) ↔ e.1 = b / 32 := by omega
    rw [List.foldl_cons, ih]
    unfold State.zeroBytes
    dsimp only
    rw [Sparse.get_clear, if_congr here rfl rfl]
    by_cases h : e.1 = b / 32
    · rw [if_pos h, ite_self, if_pos ⟨e, List.mem_cons_self .., h⟩]
    · rw [if_neg h]
      exact if_congr ⟨fun ⟨x, hx, k⟩ => ⟨x, List.mem_cons_of_mem _ hx, k⟩,
        fun ⟨x, hx, k⟩ => ⟨x, (List.mem_cons.mp hx).resolve_left fun c => h (c ▸ k), k⟩⟩ rfl rfl

omit hr hd in
theorem State.byte_batchMoved (s : State) (w w' b : Nat) : Sparse.get 0 (s.batchMoved w w').mem.bytes b =
    if (∃ e ∈ s.mem.errs, e.1 = b / 32 ∧ e.2 = .bad) ∧ 256 * w ≤ b ∧ b < 256 * w' then 0 else Sparse.get 0 s.mem.bytes b := by
  have moved : movedUnit w w' (b / 32) = true ↔ 256 * w ≤ b ∧ b < 256 * w' := by
    unfold movedUnit
    rw [Bool.and_eq_true, decide_eq_true_iff, decide_eq_true_iff]
    omega
  have zeros : (∃ e ∈ s.mem.errs.filter (fun e => movedUnit w w' e.1 && e.2 == .bad), e.1 = b / 32) ↔
      (∃ e ∈ s.mem.errs, e.1 = b / 32 ∧ e.2 = .bad) ∧ 256 * w ≤ b ∧ b < 256 * w' := by
    rw [← moved]
    constructor
    · rintro ⟨e, he, hu⟩
      obtain ⟨he, hb⟩ := List.mem_filter.mp he
      obtain ⟨hm, hb⟩ := Bool.and_eq_true_iff.mp hb
      exact ⟨⟨e, he, hu, eq_of_beq hb⟩, hu ▸ hm⟩
    · rintro ⟨⟨e, he, hu, hb⟩, hm⟩
      exact ⟨e, List.mem_filter.mpr ⟨he, by simp [hu, hm, hb]⟩, hu⟩
  unfold State.batchMoved
  dsimp only
  rw [State.mem_chargeMove]
  unfold State.batchRead
  rw [Sparse.get_zeroUnits, State.bytes_meet]
  exact if_congr zeros rfl rfl

theorem execRestripeBatch_midway (hw : s.mem.wm + 4096 < capacity (s.mem.n - 1) * 2 ^ 22) :
    execRestripeBatch s = .next (s.batchMoved s.mem.wm (s.mem.wm + 4096)) := by
  rw [execRestripeBatch_moves hr hd (Nat.min_eq_right (Nat.le_of_lt hw)), if_neg (Nat.ne_of_lt hw)]

theorem execRestripeBatch_clean (he : s.mem.errs = []) (hw : s.mem.wm + 4096 < capacity (s.mem.n - 1) * 2 ^ 22) :
    execRestripeBatch s = .next { s.chargeMove s.mem.wm 4096 with mem := { (s.chargeMove s.mem.wm 4096).mem with wm := s.mem.wm + 4096 } } := by
  rw [execRestripeBatch_midway hr hd hw, State.batchMoved_errless he, Nat.add_sub_cancel_left]

theorem execRestripeBatch_last (he : s.mem.errs = []) (hl : capacity (s.mem.n - 1) * 2 ^ 22 ≤ s.mem.wm + 4096) :
    (let top := capacity (s.mem.n - 1) * 2 ^ 22; let u := s.chargeMove s.mem.wm (top - s.mem.wm)
     execRestripeBatch s = .next ({ u with mem := { u.mem with wm := top } } : State).endRestripe) := by
  rw [execRestripeBatch_moves hr hd (Nat.min_eq_left hl), if_pos rfl, State.batchMoved_errless he]

end

theorem State.errs_chargeOwn {s : State} (he : s.mem.errs = []) (g n k : Nat) : (s.chargeOwn g n k).mem.errs = [] := by
  rw [State.mem_chargeOwn, he]

/-- A region in which no error has arisen keeps its bytes where it is rewritten. -/
theorem State.zeroUnreadable_errless {s : State} (i : Nat) (r : Region) (he : s.mem.errs = []) :
    ((s.setRegion i r).mem.errs.filter fun e => e.1 / 65536 == i && e.2 == .bad).foldl (fun s e => s.zeroBytes (32 * e.1) 32)
      ((s.setRegion i r).meet fun u => u / 65536 == i).2 = s.setRegion i r := by
  have clean : (s.setRegion i r).mem.errs = [] := he
  rw [State.meet_errless clean, clean]
  rfl

/-- A rotating region without an error is rewritten as it was. -/
theorem State.rewriteRegion_rotating {s : State} {i : Nat} {r : Region} (hi : s.region i = r) (slot : Bool) (h : r.state = .rotating)
    (he : s.mem.errs = []) :
    s.rewriteRegion i slot = (s.chargeOwn (8192 * i) 8192 2).setRegion i { r with gen := slot, state := .assigned } := by
  subst hi
  unfold State.rewriteRegion
  dsimp only
  rw [if_pos h]
  exact State.zeroUnreadable_errless i _ (State.errs_chargeOwn he _ _ _)

theorem State.quires_foldl_setStack {α : Type} (m : α → Nat) (x : State → α → Stack) (l : List α) (s : State) :
    (l.foldl (fun t e => t.setStack (m e) (x t e)) s).quires = s.quires := by
  induction l generalizing s with
  | nil => rfl
  | cons e l ih => exact ih _

theorem State.quires_chargeOwn (s : State) (g n k : Nat) : (s.chargeOwn g n k).quires = s.quires :=
  State.quires_foldl_setStack _ _ _ s

section
variable {q : QuireId} {s : State} (hs : s.anyStopped = false)
include hs

section
variable {slot : Bool} {i : Nat} {rest : List Nat} (hw : (s.quire q.val).sweep = some { slot := slot, todo := i :: rest })
include hw

theorem execKeySweepRegion_holds (h : (s.region i).state = .assigned) :
    execKeySweepRegion q s = .next (s.setRegion i { s.region i with state := .rotating }) := by
  unfold execKeySweepRegion
  dsimp only
  rw [if_neg (ne_true_of_eq_false hs), hw]
  exact congrArg Host.Outcome.next (if_pos h)

theorem execKeySweepRegion_rewrites (h : (s.region i).state = .rotating) (he : s.mem.errs = []) : execKeySweepRegion q s =
    .next ((((s.setQuire q.val { s.quire q.val with sweep := some { slot := slot, todo := rest } }).chargeOwn (8192 * i) 8192 2).setRegion i
      { s.region i with gen := slot, state := .assigned }).endSweep q.val) := by
  unfold execKeySweepRegion
  dsimp only
  rw [if_neg (ne_true_of_eq_false hs), hw]
  have rotating : ¬ (s.region i).state = .assigned := by rw [h]; decide
  exact congrArg Host.Outcome.next ((if_neg rotating).trans
    (congrArg (State.endSweep · q.val) (State.rewriteRegion_rotating (s.region_setQuire q.val _ i) slot h he)))

end

/-- Region `i` of a quire is filled with zeros and free. -/
def State.filled (s : State) (q i : Nat) : State :=
  let s := ((s.zeroRegion i).chargeOwn (8192 * i) 8192 1).setRegion i Region.reset
  let s : State := { s with mem := { s.mem with dirty := Sparse.set false s.mem.dirty i false }, lost := s.lost.filter (· ≠ i) }
  s.updQuire q fun x => { x with filled := x.filled + 1 }

omit hs in
theorem State.mem_filled (s : State) (q i : Nat) : (s.filled q i).mem =
    { (s.zeroRegion i).mem with regions := Sparse.set Region.reset s.mem.regions i Region.reset
                                dirty := Sparse.set false (s.zeroRegion i).mem.dirty i false } := by
  unfold State.filled State.setRegion
  dsimp only
  rw [State.updQuire_mem, State.mem_chargeOwn]
  rfl

theorem execFillRegion_fills {e : Nat × Region} (hf : s.mem.regions.find? (fun e => e.2.quire == q.val && e.2.state == .scrubbing) = some e)
    (hr : s.mem.restripe ≠ .waiting) : execFillRegion q s = .next ((s.filled q.val e.1).endScrub q.val) := by
  have restripe : (s.filled q.val e.1).mem.restripe ≠ .waiting := by
    rw [State.mem_filled]
    exact hr
  unfold State.filled at restripe ⊢
  unfold execFillRegion
  rw [if_neg (ne_true_of_eq_false hs), hf]
  dsimp only at restripe ⊢
  rw [if_neg restripe]

omit hs in
theorem State.region_filled (s : State) (q i j : Nat) : (s.filled q i).region j = if j = i then Region.reset else s.region j := by
  unfold State.region
  rw [State.mem_filled]
  dsimp only
  rw [Sparse.get_set]

omit hs in
theorem State.byte_filled (s : State) (q i b : Nat) : Sparse.get 0 (s.filled q i).mem.bytes b =
    if i * 2 ^ 21 ≤ b ∧ b < (i + 1) * 2 ^ 21 then 0 else Sparse.get 0 s.mem.bytes b := by
  have here : (2 ^ 21 * i ≤ b ∧ b < 2 ^ 21 * i + 2 ^ 21) ↔ i * 2 ^ 21 ≤ b ∧ b < (i + 1) * 2 ^ 21 := by omega
  rw [State.mem_filled]
  exact (Sparse.get_clear ..).trans (if_congr here rfl rfl)

omit hs in
theorem State.count_filled (s : State) (q i : Nat) : ((s.filled q i).quire q).filled = (s.quire q).filled + 1 := by
  unfold State.filled
  dsimp only
  rw [State.quire_updQuire]
  unfold State.quire State.setRegion
  dsimp only
  rw [State.quires_chargeOwn]
  rfl

end

/-- Settles O44: each event by the conditions on its channel, stack or region. -/
theorem channelAndRegionEvents : Obligations.ChannelAndRegionEvents := by
  refine ⟨fun c m s => ⟨rfl, fun q ns => rfl, fun temp => rfl, execThermalStopBound_ends,
      fun u e => execPatrolScrub_reads, fun ms => execRetrainStart_quiesces, fun h => congrArg Host.Outcome.next (if_pos h),
      execRetrainTrainDone_met, execRetrainTrainDone_failed,
      fun h => congrArg Host.Outcome.next (if_neg (not_not_intro h)), execLanePhaseTrack_moves, execChannelDead_dies⟩, fun s =>
    ⟨fun h => congrArg Host.Outcome.next (if_pos h), fun h => congrArg Host.Outcome.next (if_neg h),
      fun hr hd => ⟨execRestripeBatch_clean hr hd, fun he _ => execRestripeBatch_last hr hd he, fun hw =>
        ⟨_, execRestripeBatch_midway hr hd hw, rfl, State.byte_batchMoved s _ _⟩⟩,
      fun q slot i rest hw hs => ⟨execKeySweepRegion_holds hs hw, execKeySweepRegion_rewrites hs hw⟩,
      fun q e hf hs hr => ⟨_, execFillRegion_fills hs hf hr, ?free, fun b hl hh => ?zeros, fun b hb => ?others, fun j hj => ?regions,
        s.count_filled ..⟩⟩⟩
  case free => rw [State.region_filled, if_pos rfl]
  case zeros => rw [State.byte_filled, if_pos ⟨hl, hh⟩]
  case others => rw [State.byte_filled, if_neg (by omega)]
  case regions => rw [State.region_filled, if_neg hj]

end Sys2Proof.Machine
end

section
/-! Groups, collectives and transfers (11). -/

namespace Sys2Proof.Machine

/-! ### Events, groups and operands from a strand (03 R82; 11 R289, R290) -/

section
variable {a : At} {f : RF} {s : State} {w : Warrant}

theorem sysOp_go {zero uses : List (BitVec 5)} {eff : State → Act} {t : State} (hz : ∀ i ∈ zero, i = 0)
    (h : s.ready a 4 true uses = true) (e : eff s = .go t) : sysOp a zero uses eff s = .next (t.issued a) := by
  rw [sysOp_of_zero hz, State.issue32, State.issue_go h e]

theorem mem_zero_of_none {i : BitVec 5} (h : i ∈ ([] : List (BitVec 5))) : i = 0 := absurd h List.not_mem_nil

section
variable (hr : s.ready a 4 true [] = true) (h1 : f.rd = 0) (h2 : f.rs2 = 0) (hw : s.holdsWarrant a f.rs1 w = true) (hk : w.kind = 5)
  (hb : w.bit 24 = true)
include hr h1 h2 hw hk hb

theorem execEsignal_waits (hd : ((s.sendMerges a).tile a.t).storesDone a.h = false) : execEsignal a f s = .next (s.sendMerges a) := by
  refine sysOp_later (by simp [h1, h2]) hr ((State.needs_of_holdsWarrant hw (by simp [hk]) hb _).trans ?_)
  exact if_pos (by simp [hd])

variable (hd : ((s.sendMerges a).tile a.t).storesDone a.h = true)
include hd

theorem execEsignal_here (hh : w.field 64 20 = (s.sendMerges a).device.toNat) : execEsignal a f s =
    .next (((s.sendMerges a).signal (w.field 32 8) (w.field 40 3) (w.field 43 5)).completed a 4) := by
  refine sysOp_done (by simp [h1, h2]) hr ((State.needs_of_holdsWarrant hw (by simp [hk]) hb _).trans ?_)
  exact (if_neg (by simp [hd])).trans (if_pos hh)

theorem execEsignal_away (hh : w.field 64 20 ≠ (s.sendMerges a).device.toNat) : (let u := s.sendMerges a
    execEsignal a f s = .next ((u.originate
      { dst := BitVec.ofNat 20 (w.field 64 20), src := u.device, type := 0x38
        dquire := BitVec.ofNat 4 ((u.peerQuire (u.tile a.t).quire.toNat (w.field 64 20)).getD 0), squire := (u.tile a.t).quire, hops := 0
        addr := 0, len := 8, status := 0, txn := 0, tile := BitVec.ofNat 8 a.t.val, strand := BitVec.ofNat 3 a.h.val, op := 0
        word3 := 0, ecrcOk := true, payload := leBytes 8 (w.field 32 16) }).completed a 4)) := by
  refine sysOp_done (by simp [h1, h2]) hr ((State.needs_of_holdsWarrant hw (by simp [hk]) hb _).trans ?_)
  exact (if_neg (by simp [hd])).trans (if_neg hh)

end

section
variable (hw : s.holdsWarrant a f.rd w = true) (hk : w.kind = 4)
include hw hk

theorem execCgset_starts {ps : List (Word × Nat × Xlate)} (hr : s.ready a 4 true [f.rs1] = true) (h2 : f.rs2 = 0) (hb : w.bit 26 = true)
    (ha : (s.getG a f.rs1).toNat % 64 = 0) (hc : s.checkSectors a .load 2 (s.getG a f.rs1) [] = .ok ps) :
    execCgset a f s = .next ((s.startOperand a (.group f.rd.toNat w) 128 ps).issued a) := by
  refine sysOp_go (by simp [h2]) hr ((State.needs_of_holdsWarrant hw (by simp [hk]) hb _).trans ((if_neg (not_not_intro ha)).trans ?_))
  change s.checkSectors a .load 2 ((s.strand a).g f.rs1) [] = .ok ps at hc
  rw [hc]

theorem execCgget_writes {ps : List (Word × Nat × Xlate)} (hr : s.ready a 4 true [f.rs1, f.rs2] = true) (hb : w.bit 26 = true)
    (hg : w.hasGroup ((s.getG a f.rs2).toNat % 2 ^ 12) = true) (ha : (s.getG a f.rs1).toNat % 64 = 0)
    (hc : s.checkSectors a .store 2 (s.getG a f.rs1) [] = .ok ps) (hs : (s.strand a).sb = [])
    (hp : ps.all (fun p => (s.tile a.t).sectorRoom p.2.2) = true) :
    (let bs := s.groupBytes ((s.getG a f.rs2).toNat % 2 ^ 12)
     execCgget a f s = .next (((ps.zipIdx).foldl (fun s (p, i) =>
       (s.putSector a p.1.toNat p.2.2 ((bs.drop (64 * i)).take 64)).getD s) s).completed a 4)) := by
  refine sysOp_done (fun _ => mem_zero_of_none) hr ((State.needs_of_holdsWarrant hw (by simp [hk]) hb _).trans
    ((if_neg ?_).trans ((if_neg (not_not_intro ha)).trans ?_)))
  · change w.hasGroup (((s.strand a).g f.rs2).toNat % 2 ^ 12) = true at hg
    rw [hg]
    exact Bool.false_ne_true
  · change s.checkSectors a .store 2 ((s.strand a).g f.rs1) [] = .ok ps at hc
    rw [hc]
    exact if_neg (by simp [hs, hp])

section
variable (hr : s.ready a 4 true [f.rs1] = true) (h2 : f.rs2 = 0) (hb : w.bit 26 = true)
  (hg : w.hasGroup ((s.getG a f.rs1).toNat % 2 ^ 12) = true)
include hr h2 hb hg

theorem execCgclr_clears (hf : s.inFlight ((s.getG a f.rs1).toNat % 2 ^ 12) = false) :
    execCgclr a f s = .next ((s.setGroup ((s.getG a f.rs1).toNat % 2 ^ 12) none).completed a 4) := by
  refine sysOp_done (by simp [h2]) hr ((State.needs_of_holdsWarrant hw (by simp [hk]) hb _).trans
    ((if_neg (ne_true_of_eq_false (congrArg not hg))).trans (if_neg (ne_true_of_eq_false hf))))

theorem execCgclr_waits (hf : s.inFlight ((s.getG a f.rs1).toNat % 2 ^ 12) = true) : execCgclr a f s = .next s := by
  refine sysOp_wait (by simp [h2]) hr ((State.needs_of_holdsWarrant hw (by simp [hk]) hb _).trans
    ((if_neg (ne_true_of_eq_false (congrArg not hg))).trans (if_pos hf)))

end

section
variable {ps : List (Word × Nat × Xlate)} (hr : s.ready a 4 true [f.rs1] = true) (h2 : f.rs2 = 0)
  (hc : s.checkFrame a (halves (s.getG a f.rs1) 64) [] = .ok ps)
include hr h2 hc

theorem execCcol_starts (hb : w.bit 24 = true) :
    execCcol a f s = .next ((s.startOperand a (.collective f.rd.toNat w) 64 ps).issued a) := by
  refine sysOp_go (by simp [h2]) hr ((State.needs_of_holdsWarrant hw (by simp [hk]) hb _).trans ?_)
  change s.checkFrame a (halves ((s.strand a).g f.rs1) 64) [] = .ok ps at hc
  rw [hc]

theorem execXstart_starts (hb : w.bit 25 = true) :
    execXstart a f s = .next ((s.startOperand a (.transfer f.rd.toNat w) 64 ps).issued a) := by
  refine sysOp_go (by simp [h2]) hr ((State.needs_of_holdsWarrant hw (by simp [hk]) hb _).trans ?_)
  change s.checkFrame a (halves ((s.strand a).g f.rs1) 64) [] = .ok ps at hc
  rw [hc]

end
end
end

/-! ### How a collective ends (11 R293, R300, R301) -/

section
variable {s : State} {g : GroupId} {e : Group}

theorem execCollectiveBoundExpiry_raises (hg : s.group g.val = some e) (hb : e.bound ≠ 0) :
    execCollectiveBoundExpiry g s = .next (s.raiseColl g.val e.nextseq 6) := by
  unfold execCollectiveBoundExpiry
  rw [hg]
  exact congrArg Host.Outcome.next (if_neg hb)

/-- A change of a collective that leaves its group and number finds it changed. -/
theorem State.coll_updColl (s : State) (g seq : Nat) {f : Coll → Coll} (hf : ∀ c g seq, (f c).is g seq = c.is g seq) :
    (s.updColl g seq f).coll g seq = (s.coll g seq).map f := by
  unfold State.coll State.updColl
  dsimp only
  induction s.colls with
  | nil => rfl
  | cons c l ih =>
    rw [List.map_cons, List.find?_cons, List.find?_cons]
    cases hc : c.is g seq with
    | true => simp [hc, hf]
    | false => simpa [hc] using ih

/-- A collective that is known, or whose number lies in the window, is known once it is opened. -/
theorem State.coll_openColl {g seq : Nat} (h : (s.coll g seq).isSome = true ∨ e.inWindow seq = true) :
    (s.openColl g seq e).coll g seq = some ((s.coll g seq).getD (Coll.fresh g seq e.quire)) := by
  unfold State.openColl
  cases hc : s.coll g seq with
  | some c => rw [if_pos (by simp)]; exact hc
  | none =>
    have inside : e.inWindow seq = true := h.resolve_left (by simp [hc])
    rw [if_neg (by simp [inside])]
    unfold State.coll at hc ⊢
    dsimp only
    rw [List.find?_append, hc]
    simp [Coll.fresh, Coll.is]

/-- The end that a member's abort gives a collective that has not ended. -/
def Coll.ended (st rank : Nat) (c : Coll) : Coll := if c.ending.isSome then c else { c with ending := some (st, rank), own := [] }

theorem Coll.ending_ended (st rank : Nat) (c : Coll) : (c.ended st rank).ending = some (c.ending.getD (st, rank)) := by
  unfold Coll.ended
  cases h : c.ending with
  | none => rfl
  | some x => exact h

theorem Coll.is_ended (st rank : Nat) (c : Coll) (g seq : Nat) : (c.ended st rank).is g seq = c.is g seq := by
  unfold Coll.ended
  split <;> rfl

theorem execAbort_ends {q : BitVec 32} {st : BitVec 8} {r : BitVec 20} (hg : s.group g.val = some e) (hs : st ≠ 0)
    (h : (s.coll g.val q.toNat).isSome = true ∨ e.inWindow q.toNat = true) :
    ∃ (t : State) (d : Coll), execAbort g q st r s = .next t ∧ t.coll g.val q.toNat = some d ∧
      d.ending = some (((s.coll g.val q.toNat).bind (·.ending)).getD (st.toNat, r.toNat)) ∧ t.mem = s.mem ∧ t.tiles = s.tiles := by
  have run : execAbort g q st r s = .next ((s.openColl g.val q.toNat e).updColl g.val q.toNat (Coll.ended st.toNat r.toNat)) := by
    unfold execAbort State.abortColl
    rw [if_neg hs, hg]
    rfl
  have opened : ∃ l, s.openColl g.val q.toNat e = { s with colls := l } := by
    unfold State.openColl
    split
    · exact ⟨s.colls, rfl⟩
    · exact ⟨_, rfl⟩
  refine ⟨_, _, run, (State.coll_updColl _ _ _ (Coll.is_ended st.toNat r.toNat)).trans
    (congrArg (Option.map (Coll.ended st.toNat r.toNat)) (State.coll_openColl h)), ?_, ?_⟩
  · rw [Coll.ending_ended]
    cases s.coll g.val q.toNat <;> rfl
  · obtain ⟨l, hl⟩ := opened
    rw [hl]
    exact ⟨rfl, rfl⟩

/-- A collective has left with its records, which gave `v`, and its group goes on. -/
def State.afterColl (v : State) (g : Nat) (e : Group) (c : Coll) : State :=
  (({ (v.count c.quire 9 1) with colls := (v.count c.quire 9 1).colls.filter (!·.is g c.seq) } : State).setGroup g
    (some { e with nextseq := (e.nextseq + 1) % 2 ^ 32 })).advanceColl g

section
variable {s : State} {g : Nat} {c : Coll} {st r : Nat} {v : State}

theorem State.leaveColl_written (hv : s.completions st r c.seq c.issuers = some v) : s.leaveColl g e c st r = v.afterColl g e c := by
  unfold State.leaveColl
  rw [hv]
  rfl

variable (hg : s.group g = some e) (hc : s.coll g e.nextseq = some c) (hi : c.issuers ≠ [])
  (hv : s.completions st r c.seq c.issuers = some v)
include hg hc hi hv

theorem State.endColl_ended (he : c.ending = some (st, r)) (hd : c.desc = none) : s.endColl g = v.afterColl g e c := by
  unfold State.endColl
  rw [hg]
  dsimp only
  rw [hc]
  dsimp only
  rw [if_neg (by simpa using hi), he, hd]
  exact State.leaveColl_written hv

theorem State.endColl_done {d : CollOp} (hst : st = 0) (hr : r = 0) (he : c.ending = none) (hd : c.desc = some d) (h6 : d.op ≠ 6)
    (hx : s.collDone e c d = true) : s.endColl g = v.afterColl g e c := by
  subst hst hr
  unfold State.endColl
  rw [hg]
  dsimp only
  rw [hc]
  dsimp only
  rw [if_neg (by simpa using hi), he, hd]
  dsimp only
  rw [if_neg (by simp [hx]), if_neg h6]
  exact State.leaveColl_written hv

end
end

/-! ### Pieces of a transfer (11 R302) -/

section
variable {s : State} {k : Nat} {x : Transfer} {l m : Xlate} (hx : s.transfers[k]? = some x) (ha : x.asked = []) (he : x.ending = none)
  (hl : s.pageOf x.t x.auth .load (x.src + x.done) x.piece = .ok l) (hm : s.pageOf x.t x.auth .store (x.dst + x.done) x.piece = .ok m)
include hx ha he hl hm

/-- What a piece does once its pages are known. -/
def State.movePiece (s : State) (x : Transfer) (l m : Xlate) : State :=
  if l.target = .remote ∧ m.target = .remote then s.endTransfer x 4
  else if l.target = .remote then s.askPiece x 5 l.addr x.piece []
  else if s.spanWaits l.addr x.piece || (m.target = .memory && s.spanWaits m.addr x.piece) then s
  else match s.readSpan x.quire false false l.addr x.piece with
    | (.error f, s) => s.endTransfer x (sourceStatus f)
    | (.ok bs, s) => if m.target = .remote then s.askPiece x 4 m.addr x.piece bs else s.landPiece x m bs

theorem execTransferPieceDone_moves : execTransferPieceDone k s = .next (s.movePiece x l m) := by
  unfold execTransferPieceDone State.movePiece
  rw [hx]
  dsimp only
  rw [he]
  dsimp only
  rw [if_neg (by simp [ha]), hl, hm] <;> rfl

end

section
variable {s : State} {x : Transfer} {l m : Xlate}

theorem State.movePiece_asks (hl : l.target = .remote) (hm : m.target = .memory) :
    s.movePiece x l m = s.askPiece x 5 l.addr x.piece [] :=
  (if_neg (by simp [hm])).trans (if_pos hl)

variable {bs : List Byte} {u : State} (hl : l.target = .memory) (hw : s.spanWaits l.addr x.piece = false)
  (hr : s.readSpan x.quire false false l.addr x.piece = (.ok bs, u))
include hl hw hr

theorem State.movePiece_sends (hm : m.target = .remote) : s.movePiece x l m = u.askPiece x 4 m.addr x.piece bs := by
  unfold State.movePiece
  rw [if_neg (by simp [hl]), if_neg (by simp [hl]), if_neg (by simp [hm, hw]), hr]
  exact if_pos hm

theorem State.movePiece_lands {v : State} (hm : m.target = .memory) (hd : s.spanWaits m.addr x.piece = false)
    (hu : u.spanWaits m.addr bs.length = false) (hv : u.writeSpan x.quire false false m.addr bs = (none, v)) :
    s.movePiece x l m = v.pieceMoved x bs.length := by
  unfold State.movePiece State.landPiece
  rw [if_neg (by simp [hl]), if_neg (by simp [hl]), if_neg (by simp [hw, hd]), hr]
  dsimp only
  rw [if_neg (by simp [hm]), if_neg (ne_true_of_eq_false hu), hv]

end

/-- What a span was written, it holds. -/
theorem State.writeSpan_bytes {s v : State} {q a : Nat} {isSeal copy : Bool} {bs : List Byte}
    (h : s.writeSpan q isSeal copy a bs = (none, v)) : v.bytes a bs.length = bs := by
  unfold State.writeSpan at h
  split at h
  · cases h
  · split at h
    next => cases h
    next u _ =>
      obtain rfl := (Prod.mk.inj h).2
      exact u.bytes_writeBytes a bs

/-- Settles O47: what a strand starts by its warrant, how collectives end, and where the pages of a piece lie. -/
theorem groupsAndTransfers : Obligations.GroupsAndTransfers := by
  refine ⟨fun a f s w => ⟨fun hr h1 h2 hw hk hb => ⟨execEsignal_here hr h1 h2 hw hk hb, execEsignal_away hr h1 h2 hw hk hb,
      execEsignal_waits hr h1 h2 hw hk hb⟩, fun hw hk => ⟨fun ps => execCgset_starts hw hk, fun ps => execCgget_writes hw hk,
      fun hr h2 hb hg => ⟨execCgclr_clears hw hk hr h2 hb hg, execCgclr_waits hw hk hr h2 hb hg⟩,
      fun ps hr h2 hc => ⟨execCcol_starts hw hk hr h2 hc, execXstart_starts hw hk hr h2 hc⟩⟩⟩,
    fun s => ⟨fun g e => execCollectiveBoundExpiry_raises, fun g e q st r => execAbort_ends,
      fun g e c st r v hg hc hi hend hv => congrArg Host.Outcome.next ?ends, fun k x l m hx ha he hl hm => ⟨fun h1 h2 => ?asks,
        fun bs u h1 hw hr => ⟨State.readSpan_bytes hr, fun h2 => ?sends, fun v h2 hd hu hv => ⟨?lands, State.writeSpan_bytes hv⟩⟩⟩⟩⟩
  case ends =>
    rcases hend with ⟨he, hd⟩ | ⟨hst, hr, he, d, hd, h6, hx⟩
    · exact State.endColl_ended hg hc hi hv he hd
    · exact State.endColl_done hg hc hi hv hst hr he hd h6 hx
  case asks => exact (execTransferPieceDone_moves hx ha he hl hm).trans (congrArg Host.Outcome.next (State.movePiece_asks h1 h2))
  case sends => exact (execTransferPieceDone_moves hx ha he hl hm).trans (congrArg Host.Outcome.next (State.movePiece_sends h1 hw hr h2))
  case lands =>
    exact (execTransferPieceDone_moves hx ha he hl hm).trans (congrArg Host.Outcome.next (State.movePiece_lands h1 hw hr h2 hd hu hv))

end Sys2Proof.Machine
end

section
/-! The commands and instructions of quires (12, 13). -/

namespace Sys2Proof.Machine

/-! ### The commands of quires (12 R318; 13) -/

section
variable {s : State} {c : Hdr} {x : Session}

section
variable {p : QCreateReq} (h : s.admits c x 0x0200 = true)
include h

theorem qcreate_malformed (hf : qcreateFormOk p c.quire = false) :
    exec (.qcreate c p) s = .next ((s.opened c x).answer c 0x0200 stBadParam []) :=
  congrArg Host.Outcome.next (State.command_done h (if_pos (by simp [hf])))

variable (hf : qcreateFormOk p c.quire = true)
include hf

theorem qcreate_policy (hp : 256 < (s.opened c x).rateSum c.quire p.rate p.cap ∨
    (s.opened c x).shareOk c.quire p.share (onesOf p.tiles).length = false) :
    exec (.qcreate c p) s = .next ((s.opened c x).answer c 0x0200 stPolicy []) := by
  refine congrArg Host.Outcome.next (State.command_done h ((if_neg (by simp [hf])).trans (if_pos ?_)))
  rcases hp with hp | hp
  · simp [hp]
  · simp [hp]

variable (hr : (s.opened c x).rateSum c.quire p.rate p.cap ≤ 256)
  (hs : (s.opened c x).shareOk c.quire p.share (onesOf p.tiles).length = true)
include hr hs

omit h hf in
theorem qcreate_within : ¬ ((decide (256 < (s.opened c x).rateSum c.quire p.rate p.cap) ||
    !(s.opened c x).shareOk c.quire p.share (onesOf p.tiles).length) = true) := by
  simp [Nat.not_lt.mpr hr, hs]

theorem qcreate_taken (hv : (s.opened c x).freeFor c.quire p = false) :
    exec (.qcreate c p) s = .next ((s.opened c x).answer c 0x0200 stNoResource []) :=
  congrArg Host.Outcome.next (State.command_done h ((if_neg (by simp [hf])).trans
    ((if_neg (qcreate_within hr hs)).trans (if_pos (by simp [hv])))))

variable (hv : (s.opened c x).freeFor c.quire p = true)
include hv

theorem qcreate_runs (hb : (onesOf p.tiles).any p.badTiles.contains = false) :
    (let w := (((s.opened c x).compose c.quire p none).setUpTiles c.quire p.tiles p.badTiles 0).updQuire c.quire fun x => { x with use := .running }
     exec (.qcreate c p) s = .next (((w.appendLog c.quire
       { kind := 0, addr := 0, len := 0, digest := Config.sha384 (w.configBytes c.quire) }).replan).twice c 0x0200 stPending [] stOk [])) :=
  congrArg Host.Outcome.next (State.command_both h ((if_neg (by simp [hf])).trans
    ((if_neg (qcreate_within hr hs)).trans ((if_neg (by simp [hv])).trans (if_neg (ne_true_of_eq_false hb))))))

theorem qcreate_fails (hb : (onesOf p.tiles).any p.badTiles.contains = true) :
    (let v := ((s.opened c x).compose c.quire p none).setUpTiles c.quire p.tiles p.badTiles 0
     exec (.qcreate c p) s = .next (((v.updQuire c.quire fun x => { x with use := .drained }).beginScrub c.quire).twice c
       0x0200 stPending [] stFailed [])) :=
  congrArg Host.Outcome.next (State.command_both h ((if_neg (by simp [hf])).trans
    ((if_neg (qcreate_within hr hs)).trans ((if_neg (by simp [hv])).trans (if_pos hb)))))

end

theorem qquery_answers (h : s.admits c x 0x0201 = true) : ∃ rest, exec (.qquery c) s =
    .next ((s.opened c x).answer c 0x0201 stOk ({ type := 0x81, vals := [(s.quire c.quire).use.code] } :: rest)) :=
  ⟨_, congrArg Host.Outcome.next (State.command_done h rfl)⟩

section
variable {p : QModifyReq} (h : s.admits c x 0x0202 = true)
include h

theorem qmodify_empty (h1 : p.bandwidth = none) (h2 : p.share = none) (h3 : p.rights = none) (h4 : p.add = none) :
    exec (.qmodify c p) s = .next ((s.opened c x).answer c 0x0202 stBadParam []) :=
  congrArg Host.Outcome.next (State.command_done h (if_pos (by simp [h1, h2, h3, h4])))

theorem qmodify_sets (hsome : (p.bandwidth.isSome || p.share.isSome || p.rights.isSome || p.add.isSome) = true)
    {y : Quire} (hy : (s.opened c x).quire c.quire = y) {rate share : Nat} {cap : Bool} {add : List Nat} (hrate : (p.bandwidth.map (·.1)).getD y.rate = rate)
    (hcap : (p.bandwidth.map (·.2)).getD y.cap = cap) (hshare : p.share.getD y.share = share) (hadd : rangeNums (p.add.getD []) = add)
    (hr : rate ≤ 256) (h8 : (p.rights.getD []).length ≤ 8) (hok : (p.rights.getD []).all rightOk = true)
    (hin : ∀ r ∈ p.add.getD [], r.2 ≠ 0 ∧ r.1 + r.2 ≤ 638976) (hnd : add.Nodup)
    (hsum : (s.opened c x).rateSum c.quire rate cap ≤ 256) (hsh : (s.opened c x).shareOk c.quire share y.tileCount = true)
    (hfree : ∀ i ∈ add, i < 512 * s.mem.ctop ∧ (s.region i).state = .free) (hroom : y.room = true) :
    (let v := (s.opened c x).setQuire c.quire { y with rate := rate, cap := cap, share := share }
     let v := if p.bandwidth.isSome then v.setRegulators c.quire rate cap else v
     let v := if p.rights.isSome then v.setRights c.quire (p.rights.getD []) else v
     let gen := match y.sweep with | some w => w.slot | none => (Sparse.get 0 y.keys 0) == 0
     exec (.qmodify c p) s = .next ((((v.assignRegions c.quire add false gen).appendLog c.quire
       { kind := 3, addr := 0, len := 0, digest := Config.sha384 (natBytes (qmodifyNums p) 8) }).replan).answer c 0x0202 stOk [])) := by
  subst hy hrate hcap hshare hadd
  refine congrArg Host.Outcome.next (State.command_done h ((if_neg ?form).trans ((if_neg ?policy).trans ((if_neg ?free).trans rfl))))
  case form =>
    have some : (p.bandwidth.isNone && p.share.isNone && p.rights.isNone && p.add.isNone) = false := by
      cases hs : p.bandwidth <;> cases he : p.share <;> cases hl : p.rights <;> cases hk : p.add <;> simp_all
    have inside : ((p.add.getD []).any fun r => r.2 == 0 || decide (638976 < r.1 + r.2)) = false := by
      rw [List.any_eq_false]
      intro r hr
      obtain ⟨hn, hl⟩ := hin r hr
      simp [hn, hl]
    rw [some, inside]
    simp only [hok, decide_eq_true hnd, decide_eq_false (Nat.not_lt.mpr hr), decide_eq_false (Nat.not_lt.mpr h8)]
    exact Bool.false_ne_true
  case policy =>
    simp only [hsh, decide_eq_false (Nat.not_lt.mpr hsum)]
    exact Bool.false_ne_true
  case free =>
    have all : ((rangeNums (p.add.getD [])).all fun i => decide (i < 512 * (s.opened c x).mem.ctop) && ((s.opened c x).region i).state == .free) = true :=
      List.all_eq_true.mpr fun i hi => by
        obtain ⟨hl, hf⟩ := hfree i hi
        simp [hl, hf]
    rw [all]
    simp only [hroom]
    exact Bool.false_ne_true

end

section
variable (h : s.admits c x 0x0205 = true)
include h

theorem keyrotate_busy (hs : (s.quire c.quire).sweep.isSome = true) :
    exec (.keyrotate c) s = .next ((s.opened c x).answer c 0x0205 stBusy []) :=
  congrArg Host.Outcome.next (State.command_done h (if_pos hs))

theorem keyrotate_starts (hs : (s.quire c.quire).sweep = none) (hr : (s.quire c.quire).room = true) : exec (.keyrotate c) s =
    .next (((s.opened c x).startSweep c.quire).defer c 0x0205 stPending [] (.rotate c.quire)) :=
  congrArg Host.Outcome.next (State.command_pend h ((if_neg (by simp [hs])).trans (if_neg (by simp [hr]))))

end

/-- Settles O51: each command by the checks that it makes, in their order. -/
theorem quireCommands : Obligations.QuireCommands := by
  refine fun c x s => ⟨fun p h => ⟨qcreate_malformed h, qcreate_policy h, fun hf hr hs => ⟨qcreate_taken h hf hr hs,
      fun hv => ⟨qcreate_runs h hf hr hs hv, qcreate_fails h hf hr hs hv⟩⟩⟩, qquery_answers,
    fun p h => ⟨qmodify_empty h, fun hsome => qmodify_sets h hsome rfl rfl rfl rfl rfl⟩, fun h => ⟨keyrotate_busy h, keyrotate_starts h⟩,
    fun set h => ⟨fun h0 => congrArg Host.Outcome.next (State.command_done h (if_neg (not_not_intro h0))),
      fun h0 => congrArg Host.Outcome.next (State.command_done h (if_pos h0))⟩,
    fun first h => congrArg Host.Outcome.next (State.command_done h rfl), fun h => congrArg Host.Outcome.next (State.command_done h rfl),
    fun nonce h => ⟨fun hn => congrArg Host.Outcome.next (State.command_done h (if_pos hn)),
      fun hn => congrArg Host.Outcome.next (State.command_done h (if_neg (not_not_intro hn)))⟩,
    fun h => congrArg Host.Outcome.next (State.command_done h rfl)⟩

end

/-! ### What a strand reads and rotates (13 R342, R344) -/

section
variable {a : At} {f : RF} {w : Warrant} {s : State} (hw : s.holdsWarrant a f.rs1 w = true) (hk : w.kind = 6)
include hw hk

section
variable (hr : s.ready a 4 true [f.rd, f.rs2] = true) (hb : w.bit 27 = true)
include hr hb

theorem execQread_reads {v : Nat} (hq : s.quireReading (s.tile a.t).quire.toNat ((s.getG a f.rs2).toNat % 65536) = some v) :
    execQread a f s = .next ((s.putG a f.rd (word v)).completed a 4) := by
  refine sysOp_result (fun _ => mem_zero_of_none) hr ((State.needs_of_holdsWarrant hw (by simp [hk]) hb _).trans ?_)
  change s.quireReading (s.tile a.t).quire.toNat (((s.strand a).g f.rs2).toNat % 65536) = some v at hq
  rw [hq]

theorem execQread_unlisted (hq : s.quireReading (s.tile a.t).quire.toNat ((s.getG a f.rs2).toNat % 65536) = none) :
    execQread a f s = .next (s.raise a cIllegal 0 0 (s.strand a).pc) := by
  refine sysOp_fault (fun _ => mem_zero_of_none) hr ((State.needs_of_holdsWarrant hw (by simp [hk]) hb _).trans ?_)
  change s.quireReading (s.tile a.t).quire.toNat (((s.strand a).g f.rs2).toNat % 65536) = none at hq
  rw [hq]
  rfl

end

section
variable (hr : s.ready a 4 true [f.rd] = true) (h2 : f.rs2 = 0) (hb : w.bit 25 = true)
include hr h2 hb

theorem execQrekey_starts (hs : (s.quire (s.tile a.t).quire.toNat).sweep = none) (hm : (s.quire (s.tile a.t).quire.toNat).room = true) :
    execQrekey a f s = .next (((s.startSweep (s.tile a.t).quire.toNat).putG a f.rd 0).completed a 4) := by
  refine sysOp_done (by simp [h2]) hr ((State.needs_of_holdsWarrant hw (by simp [hk]) hb _).trans ?_)
  exact (if_neg (by simp [hs, hm])).trans rfl

theorem execQrekey_busy (hs : (s.quire (s.tile a.t).quire.toNat).sweep.isSome = true) :
    execQrekey a f s = .next ((s.putG a f.rd 1).completed a 4) := by
  refine sysOp_result (by simp [h2]) hr ((State.needs_of_holdsWarrant hw (by simp [hk]) hb _).trans ?_)
  exact if_pos (by simp [hs])

end
end

/-! ### The exchange about a discarded copy (13 R330) -/

section
variable {m : CkMsg} {s : State}

theorem execDiscarded_idle (hd : (s.quire m.quire.val).discarding = false) : execDiscarded m s = .next s :=
  congrArg Host.Outcome.next (if_pos (by simp [hd]))

section
variable (hd : (s.quire m.quire.val).discarding = true) (hp : s.survive.partner = some m.src.toNat)
include hd hp

theorem execDiscarded_held (hu : (s.quire m.quire.val).use ≠ .free) : execDiscarded m s =
    .next (s.setQuire m.quire.val { s.quire m.quire.val with discarding := false, copied := false }) :=
  congrArg Host.Outcome.next ((if_neg (by simp [hd, hp])).trans (if_neg hu))

theorem execDiscarded_released (hu : (s.quire m.quire.val).use = .free) : execDiscarded m s =
    .next ((s.setQuire m.quire.val Quire.reset).finishWhere (· == .release m.quire.val)
      (if (s.quire m.quire.val).late then stFailed else stOk) (detail (if (s.quire m.quire.val).late then 4 else 0))) :=
  congrArg Host.Outcome.next ((if_neg (by simp [hd, hp])).trans (if_pos hu))

end

/-- The partner's answer that a copy is discarded. -/
def State.answerDiscard (t : State) (m : CkMsg) : State :=
  t.sendSpine m.src.toNat 0x3F ([7, BitVec.ofNat 8 m.quire.val] ++ leBytes 2 0 ++ leBytes 4 m.number.toNat)

theorem execDiscard_none (hc : s.copiesOf m.src.toNat m.quire.val = []) : execDiscard m s = .next (s.answerDiscard m) := by
  unfold execDiscard State.answerDiscard
  rw [hc]
  rfl

theorem execDiscard_copy {k : Nat} (hc : s.copiesOf m.src.toNat m.quire.val = [k]) (hu : (s.quire k).use ≠ .scrubbing) :
    execDiscard m s = .next ((s.beginScrub k).answerDiscard m) := by
  unfold execDiscard State.answerDiscard
  rw [hc, List.foldl_cons, List.foldl_nil, if_neg hu]

end

section
variable {q : QuireId} {s : State}

theorem execDiscardRetry_asks {d : Nat} (hd : (s.quire q.val).discarding = true) (hp : s.survive.partner = some d)
    (hu : (s.quire q.val).use ≠ .free) :
    (let t := (s.sendSpine d 0x3F ([6, BitVec.ofNat 8 q.val] ++ leBytes 2 0 ++ leBytes 4 (s.quire q.val).number)).setQuire q.val
       { s.quire q.val with late := true }
     execDiscardRetry q s = .next (if (s.quire q.val).late then t else t.alarm .discardUnanswered q.val)) := by
  unfold execDiscardRetry
  dsimp only
  rw [if_neg (by simp [hd]), hp, if_neg hu]

end

/-- Settles O52: the instructions by what the warrant and the quire allow, the messages by the state of the discard. -/
theorem quireInstructionsAndDiscards : Obligations.QuireInstructionsAndDiscards :=
  ⟨fun _ _ _ _ hw hk => ⟨fun _ hr hb => execQread_reads hw hk hr hb, execQread_unlisted hw hk, fun hr h2 hb =>
      ⟨execQrekey_starts hw hk hr h2 hb, execQrekey_busy hw hk hr h2 hb⟩⟩,
    fun _ _ => ⟨execDiscarded_held, execDiscarded_released, execDiscarded_idle, execDiscard_none, fun _ => execDiscard_copy⟩,
    fun _ _ => ⟨fun _ => execDiscardRetry_asks, fun hd => congrArg Host.Outcome.next (if_pos (by simp [hd]))⟩⟩

end Sys2Proof.Machine
end

section
/-! The commands that run strands, and the supervision of tiles (12, 15, 16). -/

namespace Sys2Proof.Machine

/-! ### The commands that run strands (12 Tables 12-7, 12-9; 13 R328, R330) -/

section
variable {s : State} {c : Hdr} {x : Session} {tiles : BitVec 192} {strands : BitVec 8}

section
variable {rec : Nat} (h : s.admits c x 0x0400 = true)
include h

theorem start_denied (ho : (s.opened c x).ownsTiles c.quire tiles = false) :
    exec (.start c tiles strands rec) s = .next (((s.opened c x).answer c 0x0400 stDenied []).spineWork false) :=
  congrArg Host.Outcome.next (State.hostWork_done h (if_pos (by simp [ho])))

variable (ho : (s.opened c x).ownsTiles c.quire tiles = true)
include ho

theorem start_unavailable (hu : ∃ a ∈ strandsIn tiles strands, (s.tile a.t).use ≠ .normal) :
    exec (.start c tiles strands rec) s = .next (((s.opened c x).answer c 0x0400 stFailed []).spineWork false) := by
  obtain ⟨a, ha, hu⟩ := hu
  exact congrArg Host.Outcome.next (State.hostWork_done h ((if_neg (by simp [ho])).trans
    (if_pos (List.any_eq_true.mpr ⟨a, ha, decide_eq_true hu⟩))))

variable (hu : ∀ a ∈ strandsIn tiles strands, (s.tile a.t).use = .normal)
include hu

omit h ho in
theorem start_available : ¬ ((strandsIn tiles strands).any fun a => decide (((s.opened c x).tile a.t).use ≠ .normal)) = true := fun hb => by
  obtain ⟨a, ha, hn⟩ := List.any_eq_true.mp hb
  exact of_decide_eq_true hn (hu a ha)

theorem start_busy (hr : ∃ a ∈ strandsIn tiles strands, (s.strand a).run ≠ .halted) :
    exec (.start c tiles strands rec) s = .next (((s.opened c x).answer c 0x0400 stBusy []).spineWork false) := by
  obtain ⟨a, ha, hr⟩ := hr
  exact congrArg Host.Outcome.next (State.hostWork_done h ((if_neg (by simp [ho])).trans
    ((if_neg (start_available hu)).trans (if_pos (List.any_eq_true.mpr ⟨a, ha, decide_eq_true hr⟩)))))

variable (hr : ∀ a ∈ strandsIn tiles strands, (s.strand a).run = .halted)
include hr

omit h ho hu in
theorem start_halted : ¬ ((strandsIn tiles strands).any fun a => decide (((s.opened c x).strand a).run ≠ .halted)) = true := fun hb => by
  obtain ⟨a, ha, hn⟩ := List.any_eq_true.mp hb
  exact of_decide_eq_true hn (hr a ha)

theorem start_unread {f : Fail} {v : State} (hv : (s.opened c x).readSpan c.quire false false rec 64 = (.error f, v)) :
    exec (.start c tiles strands rec) s = .next ((v.answer c 0x0400 (failStatus f).1 (detail (failStatus f).2)).spineWork false) := by
  refine congrArg Host.Outcome.next (State.hostWork_done h ((if_neg (by simp [ho])).trans
    ((if_neg (start_available hu)).trans ((if_neg (start_halted hr)).trans ?_))))
  rw [hv]

theorem start_starts {bs : List Byte} {v : State} (hv : (s.opened c x).readSpan c.quire false false rec 64 = (.ok bs, v)) :
    exec (.start c tiles strands rec) s = .next ((((strandsIn tiles strands).foldl (fun s a => s.startStrand a bs none) v).answer c
      0x0400 stOk []).spineWork false) := by
  refine congrArg Host.Outcome.next (State.hostWork_done h ((if_neg (by simp [ho])).trans
    ((if_neg (start_available hu)).trans ((if_neg (start_halted hr)).trans ?_))))
  rw [hv]

end

section
variable (h : s.admits c x 0x0401 = true) (ho : (s.opened c x).ownsTiles c.quire tiles = true)
include h ho

theorem halt_halted (hh : ∀ a ∈ strandsIn tiles strands, (s.strand a).isHalted = true) :
    exec (.halt c tiles strands) s = .next (((s.opened c x).answer c 0x0401 stOk []).spineWork false) :=
  congrArg Host.Outcome.next (State.hostWork_done h ((if_neg (by simp [ho])).trans (if_pos (List.all_eq_true.mpr hh))))

theorem halt_asks (hh : ∃ a ∈ strandsIn tiles strands, (s.strand a).isHalted = false) : exec (.halt c tiles strands) s =
    .next ((((strandsIn tiles strands).foldl (fun s a => s.updStrand a Strand.askHalt) (s.opened c x)).defer c 0x0401 stPending []
      (.halted (strandsIn tiles strands))).spineWork false) := by
  obtain ⟨a, ha, hh⟩ := hh
  exact congrArg Host.Outcome.next (State.hostWork_pend h ((if_neg (by simp [ho])).trans (if_neg fun all =>
    ne_true_of_eq_false hh (List.all_eq_true.mp all a ha))))

end

section
variable (h : s.admits c x 0x0402 = true) (ho : (s.opened c x).ownsTiles c.quire tiles = true)
include h ho

theorem tilereset_busy (hj : ∃ j ∈ s.survive.jobs, j.tile ∈ onesOf tiles) :
    exec (.tilereset c tiles) s = .next (((s.opened c x).answer c 0x0402 stBusy []).spineWork false) := by
  obtain ⟨j, hj, ht⟩ := hj
  have busy : ((s.opened c x).survive.jobs.any fun j => (onesOf tiles).contains j.tile) = true :=
    List.any_eq_true.mpr ⟨j, hj, List.contains_iff_mem.mpr ht⟩
  exact congrArg Host.Outcome.next (State.hostWork_done h ((if_neg (by simp [ho])).trans (if_pos busy)))

theorem tilereset_resets (hj : ∀ j ∈ s.survive.jobs, j.tile ∉ onesOf tiles)
    (hu : ∀ t ∈ onesOf tiles, (s.tile (Fin.ofNat 192 t)).use ≠ .unavailable) : exec (.tilereset c tiles) s =
      .next ((((onesOf tiles).foldl (fun s t => s.beginReset (Fin.ofNat 192 t) c.quire) (s.opened c x)).defer c 0x0402 stPending []
        (.reset (onesOf tiles))).spineWork false) := by
  have idle : ¬ ((s.opened c x).survive.jobs.any fun j => (onesOf tiles).contains j.tile) = true := fun hb => by
    obtain ⟨j, hm, ht⟩ := List.any_eq_true.mp hb
    exact hj j hm (List.contains_iff_mem.mp ht)
  have there : ¬ ((onesOf tiles).any fun t => decide (((s.opened c x).tile (Fin.ofNat 192 t)).use = .unavailable)) = true := fun hb => by
    obtain ⟨t, hm, ht⟩ := List.any_eq_true.mp hb
    exact hu t hm (of_decide_eq_true ht)
  exact congrArg Host.Outcome.next (State.hostWork_pend h ((if_neg (by simp [ho])).trans ((if_neg idle).trans (if_neg there))))

end

section
variable {tile strand line : Nat} (h : s.admits c x 0x0404 = true)
include h

theorem signal_malformed (hb : 192 ≤ tile ∨ 8 ≤ strand ∨ line < 16 ∨ 32 ≤ line) :
    exec (.signal c tile strand line) s = .next ((s.opened c x).answer c 0x0404 stBadParam []) :=
  congrArg Host.Outcome.next (State.command_done h (if_pos hb))

theorem signal_signals (h1 : tile < 192) (h2 : strand < 8) (h3 : 16 ≤ line) (h4 : line < 32)
    (ho : (s.quire c.quire).tiles.getLsbD tile = true) : exec (.signal c tile strand line) s =
      .next (((s.opened c x).signal tile strand line).answer c 0x0404 stOk []) :=
  congrArg Host.Outcome.next (State.command_done h ((if_neg (by omega)).trans (if_neg (by simp [ho]))))

end

theorem strands_lists (h : s.admits c x 0x0403 = true) (ho : (s.opened c x).ownsTiles c.quire tiles = true) : exec (.strands c tiles) s =
    .next ((s.opened c x).answer c 0x0403 stOk
      [{ type := 0x81, vals := (strandsIn tiles (BitVec.allOnes 8)).flatMap fun a =>
        [(s.strand a).ctlWord.toNat, (s.strand a).pc.toNat, (s.strand a).cause.toNat] },
       { type := 0x82, vals := (onesOf tiles).map fun t => (s.tile (Fin.ofNat 192 t)).use.ctorIdx }]) :=
  congrArg Host.Outcome.next (State.command_done h (if_neg (by simp [ho])))

section
variable (h : s.admits c x 0x0204 = true)
include h

theorem qrelease_drained (hd : (s.quire c.quire).use = .drained) : exec (.qrelease c) s =
    .next (((((s.opened c x).beginScrub c.quire).endScrub c.quire).defer c 0x0204 stPending [] (.release c.quire)).spineWork false) :=
  congrArg Host.Outcome.next (State.hostWork_pend h (congrArg (Res.pend stPending [] (.release c.quire)) (if_pos hd)))

theorem qrelease_drains (hd : (s.quire c.quire).use ≠ .drained) : exec (.qrelease c) s =
    .next ((((s.opened c x).startDrain c.quire true).defer c 0x0204 stPending [] (.release c.quire)).spineWork false) :=
  congrArg Host.Outcome.next (State.hostWork_pend h (congrArg (Res.pend stPending [] (.release c.quire)) (if_neg hd)))

end
end

/-! ### Tiles that hang, drain or reach their delay limit (15 R378; 16 R389–R391, R412, R413) -/

section
variable {t : TileId} {s : State}

section
variable (ha : (s.tile t).assigned = true) (hq : (s.quire (s.tile t).quire.toNat).use = .running) (hu : (s.tile t).use = .normal)
include ha hq hu

theorem hungTile_judged : ¬ ((!(s.tile t).assigned || decide ((s.quire (s.tile t).quire.toNat).use ≠ .running) ||
    decide ((s.tile t).use ≠ .normal)) = true) := by
  simp [ha, hq, hu]

theorem State.hungTile_reset (hl : (s.tile t).resetLately = 0 ∨ 60000 ≤ s.power.ticks + 1 - (s.tile t).resetLately) :
    s.hungTile t = (s.beginReset t (s.tile t).quire.toNat).spineWork false := by
  refine (if_neg (hungTile_judged ha hq hu)).trans (if_neg ?_)
  rcases hl with hl | hl
  · simp [hl]
  · simp [Nat.not_lt.mpr hl]

theorem State.hungTile_again (hn : (s.tile t).resetLately ≠ 0) (hl : s.power.ticks + 1 - (s.tile t).resetLately < 60000) : s.hungTile t =
    ((s.updTile t fun x => { x.abandon with use := .unavailable }).post (s.tile t).quire.toNat 9 none).alarm .tileUnavailable t.val :=
  (if_neg (hungTile_judged ha hq hu)).trans (if_pos (by simp [hn, hl]))

end

section
variable (hs : 255 ≤ (s.tile t).delay.step) (hm : (s.tile t).delay.margin < 2)
include hs hm

/-- The limit of a tile's delay range is reported. -/
def State.atLimit (s : State) (t : TileId) : State :=
  (s.updTile t fun x => { x with delay := { x.delay with limit := true } }).alarm .delayLimit t.val

theorem execDelayLimit_raises (hr : ((s.atLimit t).island (islandOf t)).mv + 25 ≤ ((s.atLimit t).island (islandOf t)).top) :
    execDelayLimit t s = .next ((s.atLimit t).setIsland (islandOf t) { (s.atLimit t).island (islandOf t) with
      mv := ((s.atLimit t).island (islandOf t)).mv + 25, limitRise := true }) :=
  congrArg Host.Outcome.next ((if_neg (by omega)).trans (if_pos hr))

theorem execDelayLimit_hangs (hr : ((s.atLimit t).island (islandOf t)).top < ((s.atLimit t).island (islandOf t)).mv + 25) :
    execDelayLimit t s = .next ((s.atLimit t).hungTile t) :=
  congrArg Host.Outcome.next ((if_neg (by omega)).trans (if_neg (Nat.not_le.mpr hr)))

end
end

/-- Settles O53: each command by the checks that it makes, and the Spine's judgement by the state of the tile or quire. -/
theorem runCommandsAndSupervision : Obligations.RunCommandsAndSupervision := by
  refine ⟨fun c x tiles strands s => ⟨fun rec h => ⟨start_denied h, fun ho => ⟨start_unavailable h ho, fun hu => ⟨start_busy h ho hu, fun hr =>
      ⟨fun f v => start_unread h ho hu hr, fun bs v => start_starts h ho hu hr⟩⟩⟩⟩, fun h ho => ⟨halt_halted h ho, halt_asks h ho⟩,
      fun h ho => ⟨tilereset_busy h ho, tilereset_resets h ho⟩, strands_lists, fun tile strand line h => ⟨signal_signals h, signal_malformed h⟩,
      fun bound h => congrArg Host.Outcome.next (State.hostWork_pend h rfl), fun h => ⟨qrelease_drained h, qrelease_drains h⟩⟩,
    fun t q s => ⟨fun ha hq hu => ⟨fun hl => congrArg Host.Outcome.next (State.hungTile_reset ha hq hu hl),
        fun hn hl => congrArg Host.Outcome.next (State.hungTile_again ha hq hu hn hl)⟩,
      fun ha => congrArg Host.Outcome.next (if_pos (by simp [ha])), fun hs hm => ⟨execDelayLimit_raises hs hm, execDelayLimit_hangs hs hm⟩,
      fun h => congrArg Host.Outcome.next (if_pos h), fun h => congrArg Host.Outcome.next (if_pos h), fun h => rfl,
      fun h => congrArg Host.Outcome.next (if_pos h)⟩⟩

end Sys2Proof.Machine
end

section
/-! Checkpoints, restores and lost devices (16). -/

namespace Sys2Proof.Machine

/-! ### Checkpoints and restores of others (16 R395–R400, R404) -/

section
variable {m : CkMsg} {seals : List Nat} {s : State}

section
variable {k : Nat} {v : State} (hr : s.isReady = true) (hk : s.copyQuire m.src.toNat m.quire.val = some (k, v))
include hr hk

/-- The free regions, at most `n`, that a copy quire can have. -/
def State.roomFor (s : State) (n : Nat) : List Nat := ((List.range (512 * s.mem.ctop)).filter fun i => (s.region i).state == .free).take n

theorem execBegin_full (h : ((v.dropIncoming k).roomFor m.regions.toNat).length < m.regions.toNat) : execBegin m seals s = .next s := by
  unfold execBegin
  rw [if_neg (by simp [hr]), hk]
  exact congrArg Host.Outcome.next (if_pos h)

theorem execBegin_begins (h : m.regions.toNat ≤ ((v.dropIncoming k).roomFor m.regions.toNat).length) :
    (let w := v.dropIncoming k
     let room := w.roomFor m.regions.toNat
     let gen := Sparse.get 0 (w.quire k).keys 0 == 0
     let sealed := seals.filterMap fun j => room[j]?
     execBegin m seals s = .next ((sealed.foldl State.zeroRegion ((w.assignRegions k room false gen).assignRegions k
       sealed true gen)).updQuire k fun x => { x with incoming := some { number := m.number.toNat, fresh := room, got := 0 } })) := by
  unfold execBegin
  rw [if_neg (by simp [hr]), hk]
  exact congrArg Host.Outcome.next (if_neg (Nat.not_lt.mpr h))

end

theorem execCommitted_commits {f : Freeze} (hf : s.survive.freeze = some f) (hr : f.restore = false) (hs : f.step = .streaming)
    (hq : f.quire = m.quire.val) (hp : s.survive.partner = some m.src.toNat) : execCommitted m s =
      .next (((((s.updQuire f.quire fun x => { x with
        number := x.number + 1, position := s.leastMark f.quire, copied := true }).thaw f).post f.quire 2 none).finishWhere
          (· == .checkpoint f.quire) stOk [])) := by
  unfold execCommitted
  rw [hf]
  exact congrArg Host.Outcome.next (if_neg (by simp [hr, hs, hq, hp]))

theorem execCommitted_thawed (hf : s.survive.freeze = none) : execCommitted m s = .next s := by
  unfold execCommitted
  rw [hf]

theorem execCheckpointBoundExpiry_abandons {f : Freeze} (hf : s.survive.freeze = some f) (hr : f.restore = false) :
    execCheckpointBoundExpiry s = .next s.abandonFreeze := by
  unfold execCheckpointBoundExpiry
  rw [hf]
  exact congrArg Host.Outcome.next (if_neg (ne_true_of_eq_false hr))

theorem execRestoreRequest_sends {k : Nat} (hk : s.copiesOf m.src.toNat m.quire.val = [k]) :
    (let rs := s.regionsOf k
     let v := rs.foldl (fun s i => s.streamMemory m.src.toNat m.quire.val k i) (s.meet fun u => rs.contains (u / 65536)).2
     execRestoreRequest m s = .next (v.sendSpine m.src.toNat 0x3F
       ([5, BitVec.ofNat 8 m.quire.val] ++ leBytes 2 0 ++ leBytes 4 (v.quire k).number ++ leBytes 4 rs.length))) := by
  unfold execRestoreRequest
  dsimp only
  rw [hk, List.foldl_cons, List.foldl_nil]

section
variable {r : Restoring} {k : CopyImage} {rest : List CopyImage} (hr : s.survive.restoring = some r) (hc : r.copies = k :: rest)
  (ha : r.asked = true) (hd : m.src.toNat = r.device) (hq : k.quire = m.quire)
include hr hc ha hd hq

theorem execRestoreDone_fresh (hf : s.survive.freeze = none) :
    execRestoreDone m s = .next ((s.restoreFresh k r rest).spineWork false) := by
  unfold execRestoreDone
  rw [hr]
  dsimp only
  rw [hc]
  dsimp only
  rw [if_neg (by simp [ha, hd, hq]), hf]

theorem execRestoreDone_running {f : Freeze} (hf : s.survive.freeze = some f) (he : f.restore = true) (hm : f.quire = m.quire.val)
    (hs : f.step = .streaming) : execRestoreDone m s = .next ((s.restoreRunning k r rest).spineWork false) := by
  unfold execRestoreDone
  rw [hr]
  dsimp only
  rw [hc]
  dsimp only
  rw [if_neg (by simp [ha, hd, hq]), hf]
  exact congrArg Host.Outcome.next (if_pos (by simp [he, hm, hs]))

end
end

/-! ### Devices that are lost, held groups and the takeover (16 R401–R407) -/

section
variable {d : DeviceId} {inc : BitVec 32} {m : GroupMsg} {s : State}

theorem execProbeTimeout_declares (h : s.survive.probes.contains (d.toNat, inc.toNat) = true) : execProbeTimeout d inc s =
    .next (({ s with survive := { s.survive with probes := s.survive.probes.filter (· ≠ (d.toNat, inc.toNat)) } } :
      State).lossMessage 2 d.toNat inc.toNat) :=
  congrArg Host.Outcome.next (if_neg (ne_true_of_eq_false (congrArg not h)))

theorem execPortLossTimer_probes :
    (let ps := (List.range 16).filter fun p => (s.port p).peer == d.toNat && (s.port p).incarnation == inc.toNat && (s.port p).state ≠ .off
     ps ≠ [] → (∀ p ∈ ps, (s.port p).state = .failed) → execPortLossTimer d inc s = .next (({ s with survive := { s.survive with
       probes := s.survive.probes ++ [(d.toNat, inc.toNat)] } } : State).sendSpine d.toNat 0x3D (healthBytes 3 s.device.toNat s.incarnation))) := by
  unfold execPortLossTimer
  dsimp only
  generalize (List.range 16).filter _ = ps
  intro hn hf
  have failed : (ps.all fun p => (s.port p).state == .failed) = true := List.all_eq_true.mpr fun p hp => beq_iff_eq.mpr (hf p hp)
  rw [failed, List.isEmpty_eq_false_iff.mpr hn]
  rfl

section
variable {e : Group} (hg : s.group m.group.val = some e) (hr : (s.rankOf e m.src.toNat).isSome = true)
include hg hr

section
variable {h : GroupHold} (hh : s.holdOf m.group.val = some h)
include hh

theorem execHold_again : execHold m s = .next (s.answerHeld m.group.val) := by
  unfold execHold
  dsimp only
  rw [hg]
  dsimp only
  rw [if_neg (by simp [Option.isSome_iff_ne_none.mp hr]), hh]

theorem execRelease_releases : execRelease m s = .next (s.releaseGroup m.group.val) := by
  unfold execRelease
  dsimp only
  rw [hg, hh]
  exact congrArg Host.Outcome.next (if_pos hr)

omit hg hr in
theorem execMismatch_alarms : execMismatch m s = .next (s.alarm .groupMismatch m.group.val) :=
  congrArg Host.Outcome.next (if_pos (by simp [hh]))

end

theorem execHold_first {rank : Nat} {v : State} (hh : s.holdOf m.group.val = none) : (let h : GroupHold := { lost := [], held := [], told := false, rejoined := [] }
    s.lostRank e h = (rank, v) → execHold m s =
      .next ((((v.colls.filter (·.group == m.group.val)).foldl (fun s c => s.abortColl m.group.val c.seq 3 rank)
        (v.setHold m.group.val (some h))).post e.quire 7 (some m.group.val)).answerHeld m.group.val)) := by
  intro h hv
  unfold execHold
  dsimp only
  rw [hg]
  dsimp only
  rw [if_neg (by simp [Option.isSome_iff_ne_none.mp hr]), hh]
  dsimp only
  rw [hv]

end
end

/-- Settles O57: each message by what the state knows of its quire, group or device. -/
theorem checkpointAndLossMessages : Obligations.CheckpointAndLossMessages := by
  refine ⟨fun m seals s => ⟨fun hr => congrArg Host.Outcome.next (if_pos (by simp [hr])),
      fun k v hr hk => ⟨execBegin_full hr hk, execBegin_begins hr hk⟩, rfl, fun f => execCommitted_commits, execCommitted_thawed,
      fun f => execCheckpointBoundExpiry_abandons, fun k => execRestoreRequest_sends,
      fun r k rest hr hc ha hd hq => ⟨execRestoreDone_fresh hr hc ha hd hq, fun f => execRestoreDone_running hr hc ha hd hq⟩⟩,
    fun d inc m s => ⟨⟨rfl, rfl⟩, fun main backup h => congrArg Host.Outcome.next (if_pos h),
      fun main backup h => congrArg Host.Outcome.next (if_neg h), rfl, rfl, execProbeTimeout_declares, execPortLossTimer_probes,
      fun e h hg hr hh => ⟨execHold_again hg hr hh, execRelease_releases hg hr hh, execMismatch_alarms hh, rfl, rfl⟩,
      fun e rank v hg hr hh => execHold_first hg hr hh,
      fun h => ⟨congrArg Host.Outcome.next (if_pos h), congrArg Host.Outcome.next (if_pos h)⟩,
      fun h hb => congrArg Host.Outcome.next ((if_neg (ne_true_of_eq_false h)).trans (if_neg (ne_true_of_eq_false hb))),
      fun h => congrArg Host.Outcome.next (if_pos h), fun h => congrArg Host.Outcome.next (if_neg (ne_true_of_eq_false h))⟩⟩

end Sys2Proof.Machine
end

section
/-! The firmware commands and HELLO (12, 13, 15). -/

namespace Sys2Proof.Machine

/-! ### The firmware commands and HELLO (12 R314–R316, Table 12-15; 13 R340, R347; 15 R381) -/

section
variable {s : State} {c : Hdr} {x : Session}

section
variable (h : s.admits c x 0x0A01 = true)
include h

theorem fwverify_unstaged (hs : s.flash.staged = none) : exec (.fwverify c) s = .next ((s.opened c x).answer c 0x0A01 stFailed []) := by
  refine congrArg Host.Outcome.next (State.command_done h ?_)
  dsimp only
  rw [State.flash_opened, hs]

variable {i : FwImage} (hs : s.flash.staged = some i)
include hs

theorem fwverify_passes (hk : (s.opened c x).stagedOk i = true) : exec (.fwverify c) s =
    .next (({ s.opened c x with flash := { (s.opened c x).flash with verified := true } } : State).answer c 0x0A01 stOk
      [{ type := 0x81, vals := [stagedDigest i] }]) := by
  refine congrArg Host.Outcome.next (State.command_done h ?_)
  dsimp only
  rw [State.flash_opened, hs]
  exact if_pos hk

theorem fwverify_fails (hk : (s.opened c x).stagedOk i = false) : exec (.fwverify c) s =
    .next ((s.opened c x).answer c 0x0A01 stFailed [{ type := 0x81, vals := [stagedDigest i] }]) := by
  refine congrArg Host.Outcome.next (State.command_done h ?_)
  dsimp only
  rw [State.flash_opened, hs]
  exact if_neg (ne_true_of_eq_false hk)

end

section
variable {now : Nat} (h : s.admits c x 0x0A02 = true) (hr : s.isReady = true)
include h hr

theorem fwactivate_malformed (hn : 1 < now) : exec (.fwactivate c now) s = .next ((s.opened c x).answer c 0x0A02 stBadParam []) :=
  congrArg Host.Outcome.next (State.command_done h ((if_neg (by simp [hr])).trans (if_pos hn)))

theorem fwactivate_unverified (hn : now ≤ 1) (hv : s.flash.verified = false) :
    exec (.fwactivate c now) s = .next ((s.opened c x).answer c 0x0A02 stFailed []) :=
  congrArg Host.Outcome.next (State.command_done h ((if_neg (by simp [hr])).trans ((if_neg (Nat.not_lt.mpr hn)).trans (if_pos (by simp [hv])))))

variable (hv : s.flash.verified = true)
include hv

theorem fwactivate_owner {o : OwnerRecord} (hn : now ≤ 1) (ho : s.flash.staged.bind (·.owner) = some o) : exec (.fwactivate c now) s =
    .next (({ s.opened c x with flash := { (s.opened c x).flash with
      owners := s.flash.owners ++ [o], staged := none, verified := false } } : State).twice c 0x0A02 stPending [] stOk []) := by
  refine congrArg Host.Outcome.next (State.command_both h ((if_neg (by simp [hr])).trans ((if_neg (Nat.not_lt.mpr hn)).trans
    ((if_neg (by simp [hv])).trans ?_))))
  rw [State.flash_opened, ho]

variable (ho : s.flash.staged.bind (·.owner) = none)
include ho

theorem fwactivate_later (hn : now = 0) : exec (.fwactivate c now) s = .next (({ s.opened c x with flash := { (s.opened c x).flash with
      pointer := (s.opened c x).targetSlot, staged := none } } : State).twice c 0x0A02 stPending [] stOk []) := by
  refine congrArg Host.Outcome.next (State.command_both h ((if_neg (by simp [hr])).trans ((if_neg (by omega)).trans
    ((if_neg (by simp [hv])).trans ?_))))
  rw [State.flash_opened, ho]
  exact if_pos hn

theorem fwactivate_now (hd : ((s.opened c x).slotAt (s.opened c x).targetSlot).digests.drop 2 = (s.opened c x).slot.digests.drop 2)
    (hb : s.bothSpines = true) :
    (let v := ({ s.opened c x with flash := { (s.opened c x).flash with pointer := (s.opened c x).targetSlot, staged := none } } : State).handOver
     exec (.fwactivate c 1) s = .next (({ v with spine := { v.spine with primary := !v.spine.primary }
                                                 boot := { v.boot with slot := (s.opened c x).targetSlot } } : State).twice c
       0x0A02 stPending [] stOk [])) := by
  refine congrArg Host.Outcome.next (State.command_both h ((if_neg (by simp [hr])).trans ((if_neg (by omega)).trans
    ((if_neg (by simp [hv])).trans ?_))))
  rw [State.flash_opened, ho]
  exact (if_neg Nat.one_ne_zero).trans ((if_neg (not_not_intro hd)).trans (if_neg (ne_true_of_eq_false (congrArg not hb))))

end

theorem fwinfo_answers (h : s.admits c x 0x0A03 = true) : ∃ rest, exec (.fwinfo c) s = .next ((s.opened c x).answer c 0x0A03 stOk
    [{ type := 0x81, vals := natOf s.boot.slot :: s.slot.svn :: rest }]) :=
  ⟨s.slot.digests ++ [natOf s.otherSlot.valid, s.otherSlot.svn] ++ s.otherSlot.digests, congrArg Host.Outcome.next (State.command_done h rfl)⟩

section
variable {p : HelloReq} (hu : (s.eth c.port.val).isUp = true) (hs : s.spineUp = true)
include hu hs

omit x in
theorem hello_heard : ¬ ((!(s.eth c.port.val).isUp || !s.spineUp) = true) := by
  simp [hu, hs]

theorem State.helloOn_dropped (hk : packetOk c = false ∨ c.clear = false) : s.helloOn c p = s.dropPkt c.port.val := by
  refine (if_neg (hello_heard hu hs)).trans (if_pos ?_)
  rcases hk with hk | hk <;> simp [hk]

section
variable (hk : packetOk c = true) (hc : c.clear = true)
include hk hc

theorem State.helloOn_early (hb : s.boot.stage < 3) :
    s.helloOn c p = s.replyClear c 1 stNotReady [{ type := 0xF0, vals := [s.stageByte] }] :=
  (if_neg (hello_heard hu hs)).trans ((if_neg (by simp [hk, hc])).trans (if_pos hb))

variable (hb : 3 ≤ s.boot.stage) (hp : c.part = 0) (hm : c.more = false)
include hb hp hm

theorem State.helloOn_defect {t : Nat} (hd : defectOf c 1 = some t) :
    s.helloOn c p = s.replyClear c 1 stBadParam [{ type := 0xF1, vals := [t] }] := by
  unfold State.helloOn
  rw [if_neg (hello_heard hu hs), if_neg (by simp [hk, hc]), if_neg (Nat.not_lt.mpr hb), State.joinPart_whole s 1 hp hm]
  dsimp only
  rw [hd]

variable (hd : defectOf c 1 = none)
include hd

/-- The transcript of the exchange that HELLO makes (12 R314). -/
def State.greeting (s : State) (p : HelloReq) : Nat :=
  transcriptOf ([p.hostKey, p.kemKey, p.maxPayload, s.net.nextSession, Config.drbgKey s.free, Config.exchange 0 p.hostKey s.free,
    Config.exchange 1 p.kemKey s.free] ++ s.chain) p.nonce

/-- The session that HELLO makes (12 R314). -/
def State.greeted (s : State) (c : Hdr) (p : HelloReq) : Session :=
  let secrets := [Config.exchange 2 p.hostKey s.free, Config.exchange 3 p.kemKey s.free]
  { role := .noRole, epoch := 0, graced := false, high := 0, seen := [], stored := [], port := c.port.val
    source := c.source, sourceA := none, sourceB := none, maxPayload := p.maxPayload, transcript := s.greeting p
    secrets := secrets, keys := sessionKeys secrets (s.greeting p), old := [] }

/-- The state in which HELLO has made a session and answered it. -/
def State.greet (s : State) (c : Hdr) (p : HelloReq) : State :=
  (({ s with free := s.free + 1, net := { s.net with nextSession := s.net.nextSession + 1 } } : State).setSession s.net.nextSession
    (some ((s.greeted c p).heard c))).replyClear c 1 stOk
      [{ type := 0x81, vals := [s.net.nextSession] }, { type := 0x82, vals := [Config.drbgKey s.free] },
       { type := 0x83, vals := [Config.exchange 0 p.hostKey s.free] }, { type := 0x84, vals := [Config.exchange 1 p.kemKey s.free] },
       { type := 0x85, vals := s.chain }, { type := 0x86, vals := [Config.aliasSignature 0 (s.greeting p)] },
       { type := 0x87, vals := [Config.aliasSignature 1 (s.greeting p)] }]

theorem State.helloOn_whole : s.helloOn c p =
    if c.version ≠ 1 ∨ p.maxPayload < 1280 ∨ 8972 < p.maxPayload ∨ p.nonce.length ≠ 48 then s.replyClear c 1 stBadParam []
    else if 64 ≤ (s.net.sessions.filter (·.2.isSome)).length then s.replyClear c 1 stNoResource []
    else s.greet c p := by
  unfold State.helloOn
  rw [if_neg (hello_heard hu hs), if_neg (by simp [hk, hc]), if_neg (Nat.not_lt.mpr hb), State.joinPart_whole s 1 hp hm]
  dsimp only
  rw [hd]
  rfl

theorem State.helloOn_malformed (hf : c.version ≠ 1 ∨ p.maxPayload < 1280 ∨ 8972 < p.maxPayload ∨ p.nonce.length ≠ 48) :
    s.helloOn c p = s.replyClear c 1 stBadParam [] :=
  (State.helloOn_whole hu hs hk hc hb hp hm hd).trans (if_pos hf)

variable (hv : c.version = 1) (hl : 1280 ≤ p.maxPayload) (hh : p.maxPayload ≤ 8972) (hn : p.nonce.length = 48)
include hv hl hh hn

omit hu hs hk hc hb hp hm hd in
theorem hello_formed : ¬ (c.version ≠ 1 ∨ p.maxPayload < 1280 ∨ 8972 < p.maxPayload ∨ p.nonce.length ≠ 48) := by
  omega

theorem State.helloOn_full (hf : 64 ≤ (s.net.sessions.filter (·.2.isSome)).length) : s.helloOn c p = s.replyClear c 1 stNoResource [] :=
  (State.helloOn_whole hu hs hk hc hb hp hm hd).trans ((if_neg (hello_formed hv hl hh hn)).trans (if_pos hf))

theorem State.helloOn_greets (hf : (s.net.sessions.filter (·.2.isSome)).length < 64) : s.helloOn c p = s.greet c p :=
  (State.helloOn_whole hu hs hk hc hb hp hm hd).trans ((if_neg (hello_formed hv hl hh hn)).trans (if_neg (Nat.not_le.mpr hf)))

end

omit hu hs x in
theorem State.session_greet : (s.greet c p).session s.net.nextSession = some ((s.greeted c p).heard c) := by
  unfold State.session State.greet State.replyClear State.send State.setSession
  dsimp only
  rw [Sparse.get_set_self]

end
end
end Sys2Proof.Machine
end

section
/-! Bring-up up to the memory's map (15). -/

namespace Sys2Proof.Machine

/-! ### Bring-up stage by stage (15 R367–R376) -/

section
variable {S V : Type} {get : S → Nat → V} {put : S → Nat → S}

/-- Changes at other places leave a place as it was. -/
theorem foldl_elsewhere (miss : ∀ s i j, j ≠ i → get (put s i) j = get s j) (l : List Nat) (s : S) {j : Nat} (hj : j ∉ l) :
    get (l.foldl put s) j = get s j := by
  induction l generalizing s with
  | nil => rfl
  | cons i l ih =>
    exact (ih _ (List.not_mem_of_not_mem_cons hj)).trans (miss s i j (List.ne_of_not_mem_cons hj))

/-- What every change makes of its place holds of each place of the list. -/
theorem foldl_each {P : Nat → V → Prop} (hit : ∀ s i, P i (get (put s i) i)) (miss : ∀ s i j, j ≠ i → get (put s i) j = get s j)
    (l : List Nat) (s : S) {i : Nat} (hi : i ∈ l) : P i (get (l.foldl put s) i) := by
  induction l generalizing s with
  | nil => exact absurd hi List.not_mem_nil
  | cons k l ih =>
    by_cases h : i ∈ l
    · exact ih _ h
    · obtain rfl := (List.mem_cons.mp hi).resolve_right h
      rw [List.foldl_cons, foldl_elsewhere miss l _ h]
      exact hit s i

end

theorem State.eth_setEth_ne (s : State) {i j : Nat} (x : Eth) (h : j ≠ i) : (s.setEth i x).eth j = s.eth j := Sparse.get_set_ne _ _ _ h

theorem State.chan_setChan_ne (s : State) {i j : Nat} (x : Chan) (h : j ≠ i) : (s.setChan i x).chan j = s.chan j := Sparse.get_set_ne _ _ _ h

section
variable {s : State}

theorem atStage_goes {k : Nat} (h : s.atStage k = true) : ¬ ((!s.atStage k) = true) := by
  rw [h]
  exact Bool.false_ne_true

/-- An Ethernet port under its network record, up or failed. -/
def State.startEth (eth : BitVec 8) (s : State) (e : Nat) : State :=
  s.setEth e { s.eth e with en := true, state := if eth.getLsbD e then .up else .failed, vlan := (s.netRecord e).vlan,
                            cmdpcp := (s.netRecord e).cmdpcp, bulkpcp := (s.netRecord e).bulkpcp }

theorem execStageRom_passes (ok0 ok1 : Bool) (eth : BitVec 8) (h : s.atStage 0 = true) : ∃ t : State, execStageRom ok0 ok1 eth s =
    .next (t.spinesPass ok0 ok1 1 1) ∧ ∀ e < 8, (t.eth e).en = true ∧ (t.eth e).state = (if eth.getLsbD e then .up else .failed) := by
  refine ⟨(List.range 8).foldl (State.startEth eth) s, congrArg Host.Outcome.next (if_neg (atStage_goes h)), fun e he => ?_⟩
  refine foldl_each (get := State.eth) (put := State.startEth eth) (P := fun e x => x.en = true ∧ x.state = (if eth.getLsbD e then .up else .failed)) (fun s i => ?_)
    (fun s i j hj => s.eth_setEth_ne _ hj) _ s (List.mem_range.mpr he)
  unfold State.startEth
  rw [State.eth_setEth]
  exact ⟨rfl, rfl⟩

section
variable {p : FirmwareCheck} (h : s.atStage 1 = true)
include h

theorem execStageFirmware_unchained (hc : p.chainOk = false) : execStageFirmware p s = .next (s.stopBoot 3) :=
  congrArg Host.Outcome.next ((if_neg (atStage_goes h)).trans (if_pos (by simp [hc])))

theorem execStageFirmware_named (hc : p.chainOk = true)
    (hp : s.slotPasses s.flash.pointer (if s.flash.pointer then p.slot1Ok else p.slot0Ok) = true) : execStageFirmware p s =
      .next (({ s with boot := { s.boot with slot := s.flash.pointer } } : State).spinesPass p.xd0Ok
        (p.xd1Ok && (p.sameSlot || !p.xd0Ok || !s.spine.up0)) 2 2) := by
  unfold execStageFirmware
  dsimp only
  have one : ¬ ((!s.slotPasses s.flash.pointer (if s.flash.pointer then p.slot1Ok else p.slot0Ok) &&
      !s.slotPasses (!s.flash.pointer) (if !s.flash.pointer then p.slot1Ok else p.slot0Ok)) = true) := fun hb =>
    ne_true_of_eq_false (congrArg not hp) (Bool.and_eq_true_iff.mp hb).1
  rw [if_neg (atStage_goes h), if_neg (by simp [hc]), if_neg one, if_pos hp]

end

section
variable {r : ManufRecord} (h : s.atStage 3 = true)
include h

theorem execStageRecord_refuses (hr : (r.formOk && r.deviceOk && r.sigsOk && recordArraysOk r) = false) :
    execStageRecord r s = .next (s.stopBoot 5) :=
  congrArg Host.Outcome.next ((if_neg (atStage_goes h)).trans (if_pos (congrArg not hr)))

/-- An Ethernet port takes its MAC address from the record. -/
def State.nameEth (r : ManufRecord) (s : State) (e : Nat) : State := s.setEth e { s.eth e with mac := r.macs.getD e 0 }

/-- The record is taken, and stage 4 begins. -/
def State.recorded (s : State) (r : ManufRecord) : State :=
  let s := (List.range 8).foldl (State.nameEth r) s
  { s.setStage 4 with grade768 := r.grade == 0, boot := { s.boot with record := some r, stage := 4 } }

theorem execStageRecord_records (hr : (r.formOk && r.deviceOk && r.sigsOk && recordArraysOk r) = true) : ∃ t : State,
    execStageRecord r s = .next t ∧ t.boot.stage = 4 ∧ t.boot.record = some r ∧ t.grade768 = (r.grade == 0) ∧
      (∀ e < 8, (t.eth e).mac = r.macs.getD e 0) := by
  have run : execStageRecord r s = .next (s.recorded r) := by
    unfold execStageRecord State.recorded State.nameEth
    rw [if_neg (atStage_goes h), if_neg (ne_true_of_eq_false (congrArg not hr))]
  have same (e : Nat) : (s.recorded r).eth e = ((List.range 8).foldl (State.nameEth r) s).eth e := by
    unfold State.recorded
    generalize (List.range 8).foldl (State.nameEth r) s = v
    rfl
  refine ⟨s.recorded r, run, rfl, rfl, rfl, fun e he => ?_⟩
  rw [same]
  refine foldl_each (get := State.eth) (put := State.nameEth r) (P := fun e x => x.mac = r.macs.getD e 0) (fun s i => ?_)
    (fun s i j hj => s.eth_setEth_ne _ hj) _ s (List.mem_range.mpr he)
  unfold State.nameEth
  rw [State.eth_setEth]

end

/-! ### Stage 4: memory (15 R374) -/

/-- The channels, the memory and bring-up are as they were. -/
structure State.SameMemory (s t : State) : Prop where
  chans : t.chans = s.chans
  mem : t.mem = s.mem
  boot : t.boot = s.boot

theorem State.SameMemory.refl (s : State) : s.SameMemory s := ⟨rfl, rfl, rfl⟩

theorem State.SameMemory.trans {s t u : State} (h : s.SameMemory t) (k : t.SameMemory u) : s.SameMemory u :=
  ⟨k.chans.trans h.chans, k.mem.trans h.mem, k.boot.trans h.boot⟩

theorem State.SameMemory.foldl {α : Type} {f : State → α → State} (h : ∀ (s : State) (x : α), s.SameMemory (f s x)) (l : List α) (s : State) :
    s.SameMemory (l.foldl f s) :=
  List.foldlRecOn (motive := fun t => s.SameMemory t) l f (State.SameMemory.refl s) fun t ht a _ => State.SameMemory.trans ht (h t a)

theorem State.Reported.sameMemory {s t : State} (h : s.Reported t) : s.SameMemory t := ⟨h.chans, h.mem, h.boot⟩

theorem State.sameMemory_enablePort (s : State) (p : Nat) : s.SameMemory (s.enablePort p) := by
  unfold State.enablePort
  dsimp only
  split <;> exact ⟨rfl, rfl, rfl⟩

/-- A Splice port under its record in flash. -/
def State.linkPort (s : State) (p : Nat) : State :=
  let r := Sparse.get PortRecord.reset s.flash.ports p
  let x := { s.port p with dim := r.dim, minus := r.minus, member := r.member, halfok := r.halfok, rto := r.rto, drainto := r.drainto }
  let s := s.setPort p x
  if r.member then s.enablePort p else s

theorem State.sameMemory_linkPort (s : State) (p : Nat) : s.SameMemory (s.linkPort p) := by
  unfold State.linkPort
  dsimp only
  split
  · exact State.SameMemory.trans (t := s.setPort p _) ⟨rfl, rfl, rfl⟩ (State.sameMemory_enablePort _ p)
  · exact ⟨rfl, rfl, rfl⟩

theorem State.sameMemory_beginLinks (s : State) : s.SameMemory s.beginLinks :=
  State.SameMemory.trans (t := { s with
    device := BitVec.ofNat 20 s.flash.device
    splice := { s.splice with dims := s.flash.dims, hoplimit := s.flash.hoplimit, ovr := s.flash.ovr } }) ⟨rfl, rfl, rfl⟩
    (State.SameMemory.foldl State.sameMemory_linkPort _ _)

/-- The channels that training takes out of the map. -/
def State.untrained (s : State) (failed : List Nat) : List Nat :=
  (List.range 640).filter fun c => ((s.boot.record.map (·.chx)).getD []).contains c || s.flash.channels.contains c || failed.contains c

/-- A channel has been trained, or is out of the map. -/
def State.trainChan (out : List Nat) (s : State) (c : Nat) : State :=
  s.setChan c { Chan.reset with state := if out.contains c then .mappedOut else .live, tempAt := (s.stackOf (c / 32)).temp }

/-- A stack's regulators are at reset, and its patrol runs. -/
def State.trainStack (s : State) (m : Nat) : State := s.setStack m { s.stackOf m with regs := [], patrolEn := true }

/-- Channels and stacks are trained. -/
def State.trained (s : State) (out : List Nat) : State := (List.range 20).foldl State.trainStack ((List.range 640).foldl (State.trainChan out) s)

/-- The memory map and the list of failed channels in flash are written. -/
def State.mapped (s : State) (out failed : List Nat) : State :=
  { s with
    mem := { Mem.reset with n := 640 - out.length, ctop := capacity (640 - out.length), removed := out
                            regions := (List.range 128).map fun i => (i, { Region.reset with state := .held }) }
    flash := { s.flash with channels := s.flash.channels ++ (failed.filter fun c => !s.flash.channels.contains c) } }

/-- The log has a key, and stage 5 begins. -/
def State.keyLog (s : State) : State :=
  let (f, s) := s.takeFree
  let s : State := { s with boot := { s.boot with keys := { s.boot.keys with log := Config.drbgKey f + 1 } } }
  s.setStage 5

/-- The links begin, and a Spine that stands alone is reported. -/
def State.linkUp (s : State) : State :=
  let s := s.beginLinks
  if s.boot.alone then s.alarm .spineFailover (natOf s.spine.primary) else s

section
variable {failed : List Nat} (h : s.atStage 4 = true) (hl : s.hbm.any (fun e => e.2.level == 0) = false)
include h hl

theorem memory_goes : ¬ ((!s.atStage 4 || s.hbm.any (fun e => e.2.level == 0)) = true) := by
  simp only [h, hl]
  exact Bool.false_ne_true

theorem execStageMemory_stops : execStageMemory false failed s = .next (s.stopBoot 6) := by
  unfold execStageMemory
  generalize List.range 640 = cs
  exact congrArg Host.Outcome.next ((if_neg (memory_goes h hl)).trans (if_pos rfl))

theorem execStageMemory_runs (ho : (s.untrained failed).length ≤ 32) : execStageMemory true failed s =
    .next (((s.trained (s.untrained failed)).mapped (s.untrained failed) failed).keyLog.linkUp) := by
  have enough : ¬ ((!true || decide (640 - (s.untrained failed).length < 608)) = true) := by
    simp only [Bool.not_true, Bool.false_or, decide_eq_true_eq]
    omega
  unfold execStageMemory
  -- The intermediate states get names and lose their values: compared unfolded, each would stand in every field of the next.
  extract_lets chx out n freshChan chanState stackState freshMem freshRegion oldFlash mapState
  have laid : (s.trained (s.untrained failed)).mapped (s.untrained failed) failed = mapState := by
    have trained : s.trained (s.untrained failed) = stackState := rfl
    rw [trained]
    subst mapState oldFlash freshRegion freshMem
    clear_value stackState
    rfl
  rw [laid, if_neg (memory_goes h hl), if_neg (show ¬ ((!true || decide (n < 608)) = true) from enough)]
  clear_value mapState
  unfold State.keyLog
  generalize mapState.takeFree = f
  obtain ⟨f, v⟩ := f
  dsimp -zeta only
  extract_lets oldBoot oldKeys keyed linked
  subst linked
  clear_value keyed
  generalize keyed.setStage 5 = v
  rfl

end

theorem State.chan_trained (s : State) (out : List Nat) {c : Nat} (hc : c < 640) :
    ((s.trained out).chan c).state = if out.contains c then .mappedOut else .live := by
  have kept (v : State) (ms : List Nat) : (ms.foldl State.trainStack v).chans = v.chans :=
    List.foldlRecOn (motive := fun t => t.chans = v.chans) ms State.trainStack rfl fun _ h _ _ => by
      unfold State.trainStack
      exact h
  have each : ((((List.range 640).foldl (State.trainChan out) s).chan c).state = if out.contains c then .mappedOut else .live) := by
    refine foldl_each (get := State.chan) (put := State.trainChan out) (P := fun c x => x.state = if out.contains c then .mappedOut else .live) (fun s i => ?_)
      (fun s i j hj => s.chan_setChan_ne _ hj) _ s (List.mem_range.mpr hc)
    unfold State.trainChan
    rw [State.chan_setChan]
  unfold State.trained
  generalize (List.range 640).foldl (State.trainChan out) s = v at each ⊢
  generalize List.range 20 = ms
  rwa [State.chan, kept v ms]

theorem State.mem_keyLog (s : State) : s.keyLog.mem = s.mem := rfl

theorem State.chans_keyLog (s : State) : s.keyLog.chans = s.chans := rfl

theorem State.stage_keyLog (s : State) : s.keyLog.boot.stage = 5 := rfl

theorem State.chans_mapped (s : State) (out failed : List Nat) : (s.mapped out failed).chans = s.chans := rfl

theorem State.mem_mapped (s : State) (out failed : List Nat) : (s.mapped out failed).mem.n = 640 - out.length ∧
    (s.mapped out failed).mem.ctop = capacity (640 - out.length) ∧ (s.mapped out failed).mem.removed = out := ⟨rfl, rfl, rfl⟩

theorem State.SameMemory.stage {s t : State} (h : s.SameMemory t) : t.boot.stage = s.boot.stage := congrArg Boot.stage h.boot

theorem State.sameMemory_linkUp (s : State) : s.SameMemory s.linkUp := by
  have links := State.sameMemory_beginLinks s
  unfold State.linkUp
  generalize s.beginLinks = t at links
  dsimp only
  split
  · exact State.SameMemory.trans links (State.reported_alarm _ _ _).sameMemory
  · exact links

theorem execStageMemory_maps {failed : List Nat} (h : s.atStage 4 = true) (hl : s.hbm.any (fun e => e.2.level == 0) = false)
    (ho : (s.untrained failed).length ≤ 32) : ∃ t : State, execStageMemory true failed s = .next t ∧ t.boot.stage = 5 ∧
      t.mem.n = 640 - (s.untrained failed).length ∧ t.mem.ctop = capacity (640 - (s.untrained failed).length) ∧
      t.mem.removed = s.untrained failed ∧
      (∀ c < 640, (t.chan c).state = if (s.untrained failed).contains c then .mappedOut else .live) := by
  refine ⟨_, execStageMemory_runs h hl ho, ?_⟩
  have chan (c : Nat) (hc : c < 640) := s.chan_trained (s.untrained failed) hc
  generalize s.untrained failed = out at chan ⊢
  generalize s.trained out = u at chan ⊢
  have chans := u.chans_mapped out failed
  obtain ⟨channels, top, removed⟩ := u.mem_mapped out failed
  generalize u.mapped out failed = v at chans channels top removed ⊢
  have linked := State.sameMemory_linkUp v.keyLog
  have same : v.keyLog.linkUp.mem = v.mem := linked.mem.trans v.mem_keyLog
  refine ⟨linked.stage.trans v.stage_keyLog, ?_, ?_, ?_, fun c hc => ?_⟩
  · rw [same, channels]
  · rw [same, top]
  · rw [same, removed]
  · rw [State.chan, linked.chans, v.chans_keyLog, chans]
    exact chan c hc

end
end Sys2Proof.Machine
end

section
/-! The links, the tiles, power and the module's pins (14, 15, 17). -/

namespace Sys2Proof.Machine

/-! ### Stages 5 and 6, power and the module's pins (14, 15, 17) -/

section
variable {s : State}

theorem execStageLinks_ends (h : s.atStage 5 = true) (hp : ∀ p < 16, ¬ ((s.port p).member = true ∧ (s.port p).state = .training)) :
    execStageLinks s = .next s.endLinks := by
  have none : ((List.range 16).any fun p => (s.port p).member && (s.port p).state == .training) = false := by
    simp only [List.any_eq_false, List.mem_range, Bool.and_eq_true, beq_iff_eq]
    exact hp
  unfold execStageLinks
  rw [if_pos (by rw [h, none]; rfl)]

theorem execStageTiles_stops (failed steps : List Nat) (h : s.atStage 6 = true) : execStageTiles false failed steps s = .next (s.stopBoot 7) := by
  unfold execStageTiles
  generalize List.range 16 = is
  generalize allTiles = ts
  exact congrArg Host.Outcome.next ((if_neg (atStage_goes h)).trans (if_pos rfl))

/-- A tile takes its delay, and is retired where its self-test failed. -/
def State.testTile (failed steps : List Nat) (s : State) (t : TileId) : State :=
  let d : Delay := { (s.tile t).delay with step := min (steps.getD t.val 0) 255, margin := 4 }
  if failed.contains t.val then (s.updTile t fun x => { x.retire with delay := d }).alarm .selfTestFailed t.val
  else s.updTile t fun x => { x.clear with delay := d }

theorem State.islands_updTile (s : State) (t : TileId) (f : Tile → Tile) : (s.updTile t f).islands = s.islands := rfl

theorem State.islands_testTile (failed steps : List Nat) (s : State) (t : TileId) : (s.testTile failed steps t).islands = s.islands := by
  unfold State.testTile
  dsimp only
  split
  · exact (State.reported_alarm _ _ _).islands.trans (s.islands_updTile t _)
  · exact s.islands_updTile t _

/-- The device is ready, and its memory is open. -/
def State.readied (s : State) : State := { s.setStage 7 with splice := { s.splice with ready := true }, mem := { s.mem with isOpen := true } }

theorem execStageTiles_runs (failed steps : List Nat) (h : s.atStage 6 = true) : execStageTiles true failed steps s =
    .next ((allTiles.foldl (State.testTile failed steps) ((List.range 16).foldl State.firstIsland s)).readied).watchRisk := by
  unfold execStageTiles
  generalize List.range 16 = is
  generalize allTiles = ts
  exact congrArg Host.Outcome.next ((if_neg (atStage_goes h)).trans (if_neg Bool.false_ne_true))

theorem State.island_firstIslands (s : State) {i : Nat} (hi : i < 16) :
    (((List.range 16).foldl State.firstIsland s).island i).mv = 750 ∧ (((List.range 16).foldl State.firstIsland s).island i).calvalid = true := by
  refine foldl_each (get := State.island) (put := State.firstIsland) (P := fun _ x => x.mv = 750 ∧ x.calvalid = true) (fun s k => ?_)
    (fun s k j hj => ?_) _ s (List.mem_range.mpr hi)
  · unfold State.firstIsland
    dsimp only
    rw [State.island_setIsland]
    exact ⟨rfl, rfl⟩
  · unfold State.firstIsland
    exact State.island_setIsland_ne _ _ hj

theorem execStageTiles_readies (failed steps : List Nat) (h : s.atStage 6 = true) : ∃ t : State, execStageTiles true failed steps s = .next t.watchRisk ∧
    t.splice.ready = true ∧ t.mem.isOpen = true ∧ t.boot.stage = 7 ∧ (∀ i < 16, (t.island i).mv = 750 ∧ (t.island i).calvalid = true) := by
  refine ⟨_, execStageTiles_runs failed steps h, ?_⟩
  have first (i : Nat) (hi : i < 16) := s.island_firstIslands hi
  generalize (List.range 16).foldl State.firstIsland s = u at first ⊢
  have kept : (allTiles.foldl (State.testTile failed steps) u).islands = u.islands :=
    List.foldlRecOn (motive := fun t => t.islands = u.islands) allTiles (State.testTile failed steps) rfl
      fun v hv t _ => (v.islands_testTile failed steps t).trans hv
  generalize allTiles.foldl (State.testTile failed steps) u = v at kept ⊢
  refine ⟨rfl, rfl, rfl, fun i hi => ?_⟩
  have same : v.readied.island i = u.island i := by
    rw [State.island, State.island, ← kept]
    rfl
  rw [same]
  exact first i hi

theorem execHoldupExhausted_off (h : s.power.state = .lost) : ∃ t : State, execHoldupExhausted s = .next t ∧ t.power.state = .off ∧
    t.boot.tripped = s.boot.tripped :=
  ⟨_, congrArg Host.Outcome.next (if_neg (not_not_intro h)), rfl, rfl⟩

theorem execPowerUp_starts (m b : Bool) (tags : FeedTags) (h : s.power.state = .off) : ∃ t : State, execPowerUp m b tags s = .next t ∧
    t.power.tags = tags ∧ t.boot.tripped = false ∧ t.pins.thermtrip = false ∧
    (t.power.state, t.power.inUse) = firstFeed (m && tags.main ≠ 0x3F) (b && tags.backup ≠ 0x3F) :=
  ⟨_, congrArg Host.Outcome.next (if_neg (not_not_intro h)), rfl, rfl, rfl, rfl⟩

theorem execModuleReset_keeps_feeds (hl : s.boot.low = false) (hp : s.power.state ≠ .off) (ht : s.boot.tripped = false) : execModuleReset s =
    .next { s.cold s.power.state s.power.inUse with
      boot := { (s.cold s.power.state s.power.inUse).boot with low := true }
      pins := { (s.cold s.power.state s.power.inUse).pins with thermtrip := false } } := by
  unfold execModuleReset
  dsimp only
  rw [if_neg (by simp [hl, hp]), if_neg (ne_true_of_eq_false ht)]

theorem execModuleReset_after_trip (hl : s.boot.low = false) (ht : s.boot.tripped = true) : execModuleReset s =
    (let f := firstFeed (s.feedInfo .main).good (s.feedInfo .backup).good; let v := s.cold f.1 f.2
     .next { v with boot := { v.boot with low := true }, pins := { v.pins with thermtrip := false } }) := by
  unfold execModuleReset
  dsimp only
  rw [if_neg (by simp [hl, ht]), if_pos ht]

theorem execThermtrip_trips (tj ts : BitVec 16) (hp : s.power.state ≠ .off) (ht : s.boot.tripped = false)
    (hot : 448 ≤ tj.toNat ∨ 440 ≤ ts.toNat) : execThermtrip tj ts s =
      .next (((({ s with pins := { s.pins with thermtrip := true }, boot := { s.boot with tripped := true } } : State).setFeedState .lost).alarm
        .thermtrip 0).flood 1 s.device.toNat s.incarnation) := by
  have trips : ¬ ((decide (s.power.state = .off) || s.boot.tripped || (decide (tj.toNat < 448) && decide (ts.toNat < 440))) = true) := by
    simp only [hp, ht, Bool.or_eq_true, Bool.and_eq_true, decide_eq_true_eq, Bool.false_eq_true, false_or]
    omega
  unfold execThermtrip
  rw [if_neg trips]

theorem execThermtrip_cool (tj ts : BitVec 16) (hj : tj.toNat < 448) (hs : ts.toNat < 440) : execThermtrip tj ts s = .next s :=
  congrArg Host.Outcome.next (if_pos (by simp [hj, hs]))

theorem execStageRom_elsewhere (ok0 ok1 : Bool) (eth : BitVec 8) (h : s.atStage 0 = false) : execStageRom ok0 ok1 eth s = .next s := by
  unfold execStageRom
  rw [if_pos (by rw [h]; rfl)]

theorem execSmbusStatusRead_answers {a : BitVec 7} (r : SensorBlock) (h : s.smbusHears a = true) (hp : s.auxPower = true) :
    execSmbusStatusRead a r s = .next (s.setSmbus (some (s.statusBlock r))) := by
  unfold execSmbusStatusRead
  rw [if_pos h, if_pos hp]

end

/-- Settles O60: the commands by their checks, and each stage of bring-up by what it needs, sets and leaves. -/
theorem firmwareAndBringUp : Obligations.FirmwareAndBringUp := by
  refine ⟨fun c x s => ⟨fun h => ⟨fwverify_unstaged h, fun i hs => fwverify_passes h hs, fun i hs => fwverify_fails h hs⟩,
      fun now h hr => ⟨fwactivate_malformed h hr, fwactivate_unverified h hr, fun hn hv ho => fwactivate_later h hr hv ho hn,
        fun o hn hv ho => fwactivate_owner h hr hv hn ho⟩,
      fun h hr hv ho hd hb => fwactivate_now h hr hv ho hd hb, fwinfo_answers, fun p hu hs => ⟨?dropped, fun hk hc => ⟨?early, fun hb hp hm =>
        ⟨fun t hd => ?defect, fun hd hf => ?malformed, fun hd hv hl hh hn => ⟨fun hf => ?full, fun hf => ?greets⟩⟩⟩⟩⟩,
    fun s => ⟨execStageRom_elsewhere, execStageRom_passes, fun p => execStageFirmware_unchained, fun p => execStageFirmware_named,
      fun ok0 ok1 h => congrArg Host.Outcome.next (if_neg (atStage_goes h)), fun r h => ⟨execStageRecord_refuses h, execStageRecord_records h⟩,
      fun failed => execStageMemory_stops, fun failed h hl => ?memory, fun h => congrArg Host.Outcome.next (if_pos h), execStageLinks_ends,
      execStageTiles_stops, execStageTiles_readies, execHoldupExhausted_off, execPowerUp_starts, execModuleReset_keeps_feeds,
      execModuleReset_after_trip, rfl, execThermtrip_trips, execThermtrip_cool,
      fun a r k h => ⟨congrArg Host.Outcome.next (if_pos h), execSmbusStatusRead_answers r h⟩⟩⟩
  case memory =>
    have maps := execStageMemory_maps (failed := failed) h hl
    unfold State.untrained at maps
    exact maps
  case dropped => exact fun hk => congrArg Host.Outcome.next (State.helloOn_dropped hu hs hk)
  case early => exact fun hb => congrArg Host.Outcome.next (State.helloOn_early hu hs hk hc hb)
  case defect => exact congrArg Host.Outcome.next (State.helloOn_defect hu hs hk hc hb hp hm hd)
  case malformed => exact congrArg Host.Outcome.next (State.helloOn_malformed hu hs hk hc hb hp hm hd hf)
  case full => exact congrArg Host.Outcome.next (State.helloOn_full hu hs hk hc hb hp hm hd hv hl hh hn hf)
  case greets =>
    exact ⟨s.greet c p, (s.greeted c p).heard c, congrArg Host.Outcome.next (State.helloOn_greets hu hs hk hc hb hp hm hd hv hl hh hn hf),
      State.session_greet, rfl, rfl, rfl, rfl, rfl, rfl, rfl, rfl, rfl, rfl, rfl⟩

end Sys2Proof.Machine
end
